-- ==== Sys2Proof/Word.lean ====
section
/-! DEFINITION. The word types of the ZT96 and their plainest arithmetic (R6: little-endian, bit 0 least significant). -/

namespace Sys2Proof

/-- One byte of memory. -/
abbrev Byte := BitVec 8
/-- A halfword (R6). -/
abbrev Half := BitVec 16
/-- A word (R6): the width of sockets' values and of CSR registers. -/
abbrev Word := BitVec 32
/-- A doubleword (R6): phases (R24), accumulators (R160), velocities (R28). -/
abbrev DWord := BitVec 64
/-- A timestamp: a count of 125 ps steps (R26). -/
abbrev Stamp := BitVec 64
/-- 128 bits: a move word (R92) or an Almanac entry (R62). -/
abbrev Quad := BitVec 128

end Sys2Proof
end

