-- ==== Sys2Proof/Syntax.lean ====
section
/-! DEFINITION. The commands of the ZT96 as plain data: one constructor per row of spec/opcode_table.json, with the operands
that the rule of the row names (which engine, base, ring, pin, port; the value moved or written; what arrives from outside). -/

namespace Sys2Proof

/-- A physical engine TE0–TE15 (R2). -/
abbrev EngId := Fin 16
/-- An Angle Base AB0–AB7, its ring, or one of eight buses or counters. -/
abbrev BaseId := Fin 8
/-- An event pin EV0–EV63 (R12). -/
abbrev PinId := Fin 64
/-- An Almanac slot (R57). -/
abbrev Slot := Fin 16384
/-- A byte offset within a slot (R62). -/
abbrev SlotOffset := Fin 16
/-- An output group (R85). -/
abbrev GroupId := Fin 8
/-- ALU0–ALU3 (R110). -/
abbrev AluId := Fin 4
/-- One of two like units or ports: MUL, MAC, LSU, ETH, LBP, I²C. -/
abbrev PairId := Fin 2
/-- The compute units in window order, ALU0–ALU3, MUL0–MUL1, MAC0–MAC1, DIV0, BIT0 (R110). -/
abbrev UnitId := Fin 10
/-- An interrupt input of an engine (R211). -/
abbrev InputId := Fin 128
/-- Stall fc that a microword's work met (R230), or a strobe width in fc. -/
abbrev Stall := BitVec 16
/-- A Waveform Counter WC0–WC31, or a capture pair. -/
abbrev WcId := Fin 32
/-- A channel of a Waveform Counter. -/
abbrev ChId := Fin 4
/-- A master of the matrix (R302). -/
abbrev MasterId := Fin 33
/-- A target of the matrix (R303). -/
abbrev TargetId := Fin 30
/-- The MST field of MTX_MRST and MTX_INJ (R315). -/
abbrev MasterNum := BitVec 6
/-- HL0–HL3, or UART0–UART3. -/
abbrev PortId := Fin 4
/-- Four bits. -/
abbrev Nibble := BitVec 4
/-- A measured one-way delay in 125 ps steps (R345). -/
abbrev LinkDelay := BitVec 9
/-- A Hatorlink node (R330). -/
abbrev NodeId := BitVec 12
/-- An encoder receiver ENC0–ENC23 (R369). -/
abbrev RcvId := Fin 24
/-- An MSI vector (R355). -/
abbrev MsiId := Fin 32
/-- A byte offset in the PCIe configuration space. -/
abbrev CfgOffset := BitVec 12
/-- A legacy word address (R361). -/
abbrev LbpAddr := BitVec 24
/-- SPI1–SPI3, numbered 0–2 (R380). -/
abbrev SpiId := Fin 3
/-- GPIO0–GPIO95 (R374). -/
abbrev GpioId := Fin 96
/-- A DMA channel (R375). -/
abbrev ChanId := Fin 8
/-- A word of the never-borrow map (R409). -/
abbrev NbWord := Fin 192
/-- The STORE field of SYS_INJ (R412). -/
abbrev StoreSel := BitVec 2

/-- The widths in which the Almanac table is accessed (R57). -/
inductive TableSize where
  | w32 | w64 | w128
  deriving DecidableEq, Repr

/-- The three register pairs of a base that a read snapshots (R25). -/
inductive PhaseReg where
  | phase | velocity | edge
  deriving DecidableEq, Repr

/-- A change of an input of a base or of a capture pair: the timestamp of its raw transition, and how many samples of the input filter
in a row see the new level (R26, R27). -/
structure RawEdge where
  ts   : Stamp
  held : Nat
  deriving DecidableEq, Repr

/-- A change of T1 at a base (R26, R37). -/
structure T1Edge where
  b    : BaseId
  edge : RawEdge
  deriving DecidableEq, Repr

/-- A channel whose read-back differs, and for how many fc in a row (R86). -/
structure PinMismatch where
  pin  : PinId
  held : Nat
  deriving DecidableEq, Repr

/-- A line that stays at break level, and for how many fc from the command on (R369). -/
structure LongBreak where
  r     : RcvId
  lasts : Nat
  deriving DecidableEq, Repr

/-- Why a training fails, and the partner that its fourth step gave where it got there (R320). -/
structure TrainingEnd where
  cause   : Nibble
  partner : Option NodeId
  deriving DecidableEq, Repr

/-- The filtered levels of A, B and Z after a change, the timestamp of its raw transition, and how many samples in a row see the new
levels (R26, R27, R33–R35). -/
structure QuadEdge where
  a    : Bool
  b    : Bool
  z    : Bool
  ts   : Stamp
  held : Nat
  deriving DecidableEq, Repr

/-- What the SSI data line gave in one frame (R38). -/
structure SsiWord where
  startHigh : Bool
  word      : BitVec 40
  endLow    : Bool
  clock     : Stamp
  deriving DecidableEq, Repr

/-- The kinds of matrix request (R304, R190). -/
inductive ReqKind where
  | read | write | atomAdd | atomSwap
  deriving DecidableEq, Repr

/-- A request that a master with no engine of its own in this model's state issues (R304). -/
structure ReqSpec where
  addr    : Word
  kind    : ReqKind
  len     : Nat
  data    : List Byte
  ordered : Bool
  node    : NodeId
  deriving DecidableEq, Repr

/-- A Hatorlink frame as the receiving port sees it (R323–R325). -/
structure HlFrame where
  typ     : Nibble
  bc      : Bool
  rsp     : Bool
  noseq   : Bool
  dst     : NodeId
  src     : NodeId
  lseq    : Byte
  hops    : BitVec 7
  tag     : Byte
  w2      : Word
  w3      : Word
  payload : List Byte
  deriving DecidableEq, Repr

/-- Why a received frame or link-control set is not good (R327, R340). -/
inductive FrameError where
  | badCrc
  | badLcs
  | truncated
  | endedBad
  | duplicate
  | laterSeq
  | strayAck
  | unknownFrame
  | wrongNode (f : HlFrame)
  deriving DecidableEq, Repr

/-- A frame that a receiver turns away, and the copy that cut-through has sent on where there is one (R327, R331). -/
structure BadFrame where
  err  : FrameError
  copy : Option HlFrame
  deriving DecidableEq, Repr

/-- An inbound request of the PCIe host (R352, R353); `bad` marks a malformed TLP (R379). -/
structure PcieReq where
  bad   : Bool
  bar0  : Bool
  off   : Word
  write : Bool
  len   : Nat
  data  : List Byte
  deriving DecidableEq, Repr

/-- How the host answers an outbound read (R354). -/
inductive CplStatus where
  | success | unsupported | abort | poisoned
  deriving DecidableEq, Repr

/-- A host completion (R354): the outbound read that it answers, by the number of its matrix request, its status and its data. -/
structure PcieCpl where
  tag    : Nat
  status : CplStatus
  data   : List Byte
  deriving DecidableEq, Repr

/-- The in-band status reports the link of a MAC up, with its speed: 0 for 10, 1 for 100, 2 for 1000 Mb/s (R357, R360). -/
structure EthUp where
  mac   : PairId
  speed : BitVec 2
  deriving DecidableEq, Repr

/-- What a PHY answers to a clause 22 access, and how many fc the access takes (R357, R379). -/
structure MdioPhy where
  data  : Half
  lasts : Half
  deriving DecidableEq, Repr

/-- An Ethernet frame as received (R358, R359). -/
structure EthFrame where
  data  : List Byte
  fcsOk : Bool
  ts    : Stamp
  deriving DecidableEq, Repr

/-- An access to the cycle window and what the backplane answers: the word on D as the strobe is released, and how many fc after the
strobe's assertion READY is seen (R362, R363). -/
structure LbpAccess where
  off   : BitVec 15
  write : Bool
  data  : Word
  din   : Word
  ready : Option (BitVec 16)
  deriving DecidableEq, Repr

/-- The address of a backplane cycle, and whether the line with the CS role is asserted in it (R364). -/
structure LbpCall where
  addr : LbpAddr
  cs   : Bool
  deriving DecidableEq, Repr

/-- A received character and its error marks (R371), with the fc that it took. -/
structure UartChar where
  lasted : Nat
  data   : Byte
  frame  : Bool
  parity : Bool
  brk    : Bool
  deriving DecidableEq, Repr

/-- A word at an SPI port (R380): the word shifted in as it ends, or, at a slave, that a word begins. -/
structure SpiShift where
  begins : Bool
  data   : Word
  deriving DecidableEq, Repr

/-- What a QSPI_CMD write asks of the flash (R372). -/
inductive FlashOp where
  | erase (off len : Nat)
  | program (off : Nat) (bytes : List Byte)
  | other
  deriving DecidableEq, Repr

/-- What the bus does during a controller transfer (R373, R381). -/
structure I2cBus where
  ackAddr  : Bool
  acks     : Nat
  rdata    : List Byte
  arbLost  : Bool
  sdaStuck : Bool
  deriving DecidableEq, Repr

/-- What a controller does when it addresses this part as target, and for how many fc it does (R381). -/
structure I2cTarget where
  lasts : Nat
  addr  : BitVec 7
  wr    : List Byte
  reads : Nat
  deriving DecidableEq, Repr

/-- What caused a Barometer reset (R435). -/
inductive BaroCause where
  | vin | vcore | rail | vinLost
  deriving DecidableEq, Repr

/-- The owner that the pin-function section gives a pin (R12). -/
inductive PinOwner where
  | none | almanac | counter (m : WcId) (k : ChId) | gpio
  deriving DecidableEq, Repr

/-- A level of an event pin: low, high, or high impedance (R418). -/
inductive PinLevel where
  | low | high | z
  deriving DecidableEq, Repr

/-- The reset-entry descriptor of the addressing section; `tile` names the logical Tile Store its BASE is relative to (R397). -/
structure ImgSeg where
  idx   : Fin 8
  tile  : Option EngId
  base  : Word
  limit : Word
  node  : Word
  w3    : Word
  deriving DecidableEq, Repr

/-- The addressing section of one logical engine (R22, R388). -/
structure ImgEngine where
  segm    : Bool
  vbase   : Word
  emubase : Word
  segs    : List ImgSeg
  deriving DecidableEq, Repr

/-- A port's bus masks for one logical engine (R101). -/
structure ImgConn where
  log    : EngId
  socket : BitVec 12
  dst    : Byte
  src    : Byte
  deriving DecidableEq, Repr

/-- One path of the register-slice section (R310). -/
structure ImgSlice where
  m : MasterId
  t : TargetId
  n : BitVec 2
  deriving DecidableEq, Repr

/-- The cells of the boundary-scan register, one for each ball or pair but the lanes and the oscillator (R454). -/
abbrev Cells := BitVec 439

/-- One event pin of the pin-function section (R12, R418). -/
structure ImgPin where
  pin   : PinId
  owner : PinOwner
  safe  : PinLevel
  deriving DecidableEq, Repr

/-- Where the pin-function section routes an encoder receiver (R369): to an input of an Angle Base (A, B, Z, T0, T1, SSI data or mains,
numbered 0 to 6), to a capture input, to a GPIO input, or nowhere. -/
inductive RcvRoute where
  | none | base (b : BaseId) (input : Fin 7) | capture (n : WcId) | gpio (pin : GpioId)
  deriving DecidableEq, Repr

/-- One encoder receiver of the pin-function section: whether its termination is switched in, and its route (R369). -/
structure ImgRcv where
  rcv   : RcvId
  term  : Bool
  route : RcvRoute
  deriving DecidableEq, Repr

/-- One SSI clock driver of the pin-function section and the base it is assigned to (R370). -/
structure ImgSck where
  sck  : BaseId
  base : BaseId
  deriving DecidableEq, Repr

/-- A record of the memory images section (R389); other contents sections are given as such records of what they write. -/
structure ImgRecord where
  kind  : Nibble
  log   : EngId
  dest  : Word
  bytes : List Byte
  deriving DecidableEq, Repr

/-- The identity of the PCIe function (R351): the configuration dwords 0x00, 0x08 and 0x2C. -/
structure PcieIds where
  dev   : Word
  cls   : Word
  sub   : Word
  deriving DecidableEq, Repr

/-- What the sections 0x02 to 0x13 of an image fill: their bytes are in a Larpays format that the spec does not give (R388), so they are
given by their content. Bit `n` of `volts` gives bank IOBn 5 V (R350); `contents` holds what the sections 0x10 to 0x13 write, in order;
`ids` is the identity of the PCIe function where the image gives one (R351); and `odd` the types of the structural sections with a value outside its range that the other fields cannot spell (R399). -/
structure ImgBody where
  ids     : Option PcieIds
  conn    : List ImgConn
  engines : List ImgEngine
  slices  : List ImgSlice
  msClass : DWord
  tsClass : List (BitVec 4)
  pins    : List ImgPin
  volts   : BitVec 7
  rcvs    : List ImgRcv
  scks    : List ImgSck
  caps    : List (WcId × WcId)
  never   : List (NbWord × Word)
  lbpBw   : List (BitVec 2)
  contents : List ImgRecord
  odd     : List Byte
  deriving DecidableEq, Repr

/-- An Accession image as its bytes give it (R386, R389, R396), with the content of its other sections: generation, logical engines, LOCK,
ALMEN, BOOTWIN, the bytes of the engine map, and the records of the memory images. -/
structure Image extends ImgBody where
  gen     : Word
  nlog    : Nat
  lock    : Bool
  almen   : Bool
  bootwin : Word
  map     : List Byte
  records : List ImgRecord
  deriving DecidableEq, Repr

/-- What one slot of a source holds as the Boot ROM finds it (R391): a read error, where a header that can be read gives its GEN (R394),
or an image: its bytes, and the content of the sections that the spec gives no layout for. -/
inductive SlotOffer where
  | readError (gen : Option Word)
  | image (bytes : List Byte) (body : ImgBody)
  deriving DecidableEq, Repr

/-- How a slot of the QSPI flash reads (R391): with a read error, where a header that can be read gives its GEN (R394), or as the bytes
that the flash holds, with the content of the sections that the spec gives no layout for. -/
inductive FlashSlot where
  | readError (gen : Option Word)
  | image (body : ImgBody)
  deriving DecidableEq, Repr

/-- What the boot sources give when the sequence runs (R390): the TESTEN ball (R453), the straps, whether a flash answers, how its two slots
read, and what the PCIe host gives. -/
structure BootOffer where
  testen : Bool
  straps : BitVec 2
  flash  : Bool
  slotA  : FlashSlot
  slotB  : FlashSlot
  pcie   : Option SlotOffer
  deriving DecidableEq, Repr

/-- A march read that differs from the pattern written (R406): the offset of its ECC unit, the bit, and the fc of TEST of the read. -/
structure MarchFail where
  off : BitVec 12
  bit : BitVec 10
  at' : BitVec 9
  deriving DecidableEq, Repr

/-- What a march test would find, and the units of the shadow that hold an uncorrectable error at the restore (R406). -/
structure MarchResult where
  fails  : List MarchFail
  shadow : List (BitVec 12)
  deriving DecidableEq, Repr

/-- The commands, one per row of spec/opcode_table.json. -/
inductive Instr where
  /-- REGISTER_WRITE (R7). -/
  | registerWrite (addr : Word) (value : Word)
  /-- CANCEL_REQUEST (R20). -/
  | cancelRequest
  /-- REQUEST_HOLD (R17). -/
  | requestHold
  /-- REQUEST_RETAIN (R18). -/
  | requestRetain
  /-- REQUEST_OFF (R18). -/
  | requestOff
  /-- WAKE_REQUEST (R21). -/
  | wakeRequest
  /-- HOLD_ENTRY (R17). -/
  | holdEntry
  /-- RETAIN_OFF_ENTRY (R18). -/
  | retainOffEntry
  /-- WAKE_PIN_EDGE (R453). -/
  | wakePinEdge (offer : BootOffer)
  /-- PWR_ALARM (R21). -/
  | pwrAlarm (offer : BootOffer)
  /-- QUADRATURE_TRANSITION (R34). -/
  | quadratureTransition (b : BaseId) (ev : QuadEdge)
  /-- TIMED_T0_EDGE (R37). -/
  | timedT0Edge (b : BaseId) (edge : RawEdge) (t1 : Bool)
  /-- TIMED_T1_EDGE (R37). -/
  | timedT1Edge (change : T1Edge)
  /-- SSI_FRAME (R38). -/
  | ssiFrame (b : BaseId)
  /-- SSI_SAMPLE (R40). -/
  | ssiSample (b : BaseId) (raw : SsiWord)
  /-- MAINS_CROSSING (R43). -/
  | mainsCrossing (b : BaseId) (rising : Bool) (edge : RawEdge)
  /-- MAINS_CROSSING_TIMEOUT (R42). -/
  | mainsCrossingTimeout (b : BaseId)
  /-- VELOCITY_UPDATE (R28). -/
  | velocityUpdate (b : BaseId)
  /-- SILENCE_TIMEOUT (R31). -/
  | silenceTimeout (b : BaseId)
  /-- ANGLE_SNAPSHOT (R44). -/
  | angleSnapshot (b : BaseId)
  /-- AB_APPLY (R48). -/
  | abApply (b : BaseId)
  /-- AB_CANCEL (R48). -/
  | abCancel (b : BaseId)
  /-- STAGED_CHANGE_APPLY (R48). -/
  | stagedChangeApply (b : BaseId)
  /-- BASE_ENABLE (R50). -/
  | baseEnable (b : BaseId)
  /-- BASE_DISABLE (R50). -/
  | baseDisable (b : BaseId)
  /-- ANGLE_LOCKSTEP_MISMATCH (R51). -/
  | angleLockstepMismatch (b : BaseId)
  /-- ANG_INJ_SSIREJ (R55). -/
  | angInjSsirej (b : BaseId)
  /-- ANG_INJ_ILL (R55). -/
  | angInjIll (b : BaseId)
  /-- ANG_INJ_LS (R55). -/
  | angInjLs (b : BaseId)
  /-- PHASE_READ (R25). -/
  | phaseRead (b : BaseId) (which : PhaseReg)
  /-- WALKER_READ (R61). -/
  | walkerRead (r : BaseId)
  /-- ENTRY_PERFORM (R66). -/
  | entryPerform (r : BaseId)
  /-- EDGE_COMMIT (R67). -/
  | edgeCommit (r : BaseId)
  /-- EDGE_PLACE (R68). -/
  | edgePlace (pin : PinId)
  /-- TABLE_WRITE (R70). -/
  | tableWrite (slot : Slot) (off : SlotOffset) (size : TableSize) (data : Quad)
  /-- RING_ENABLE (R58). -/
  | ringEnable (r : BaseId)
  /-- RING_DISABLE (R58). -/
  | ringDisable (r : BaseId)
  /-- ALMANAC_ENABLE (R59). -/
  | almanacEnable
  /-- ALMANAC_DISABLE (R91). -/
  | almanacDisable
  /-- FRAME_REQUEST_ARRIVAL (R75). -/
  | frameRequestArrival (e : EngId)
  /-- FRAME_START (R76). -/
  | frameStart (e : EngId)
  /-- BUDGET_MISS (R80). -/
  | budgetMiss (e : EngId)
  /-- PHASE_MISS (R80). -/
  | phaseMiss (e : EngId)
  /-- GUST_OVERRUN (R82). -/
  | gustOverrun (e : EngId)
  /-- GROUP_SAFE_RELEASE (R85). -/
  | groupSafeRelease (g : GroupId)
  /-- GROUP_HOLD_RELEASE (R85). -/
  | groupHoldRelease (g : GroupId)
  /-- READBACK_MISMATCH (R86). -/
  | readbackMismatch (found : PinMismatch)
  /-- READBACK_RELEASE (R86). -/
  | readbackRelease (pin : PinId)
  /-- ALMANAC_LOCKSTEP_MISMATCH (R87). -/
  | almanacLockstepMismatch
  /-- ALM_INJ_GUSTO (R91). -/
  | almInjGusto (e : EngId)
  /-- ALM_INJ_DLM (R91). -/
  | almInjDlm (e : EngId)
  /-- ALM_INJ_LS (R91). -/
  | almInjLs
  /-- ALM_INJ_RB (R91). -/
  | almInjRb (pin : PinId)
  /-- LINE_FETCH_REQUEST (R123). -/
  | lineFetchRequest (e : EngId)
  /-- LINE_ARRIVAL (R124). -/
  | lineArrival (e : EngId)
  /-- ISSUE_GROUP (R128). -/
  | issueGroup (e : EngId)
  /-- ALU_ADD (R156). -/
  | aluAdd (e : EngId) (u : AluId) (t : Word)
  /-- ALU_SUB (R156). -/
  | aluSub (e : EngId) (u : AluId) (t : Word)
  /-- ALU_ADDC (R156). -/
  | aluAddc (e : EngId) (u : AluId) (t : Word)
  /-- ALU_SUBB (R156). -/
  | aluSubb (e : EngId) (u : AluId) (t : Word)
  /-- ALU_ADDS (R156). -/
  | aluAdds (e : EngId) (u : AluId) (t : Word)
  /-- ALU_SUBS (R156). -/
  | aluSubs (e : EngId) (u : AluId) (t : Word)
  /-- ALU_AND (R156). -/
  | aluAnd (e : EngId) (u : AluId) (t : Word)
  /-- ALU_OR (R156). -/
  | aluOr (e : EngId) (u : AluId) (t : Word)
  /-- ALU_XOR (R156). -/
  | aluXor (e : EngId) (u : AluId) (t : Word)
  /-- ALU_ANDN (R156). -/
  | aluAndn (e : EngId) (u : AluId) (t : Word)
  /-- ALU_SHL (R157). -/
  | aluShl (e : EngId) (u : AluId) (t : Word)
  /-- ALU_SHR (R157). -/
  | aluShr (e : EngId) (u : AluId) (t : Word)
  /-- ALU_SRA (R157). -/
  | aluSra (e : EngId) (u : AluId) (t : Word)
  /-- ALU_ROL (R157). -/
  | aluRol (e : EngId) (u : AluId) (t : Word)
  /-- ALU_EQ (R156). -/
  | aluEq (e : EngId) (u : AluId) (t : Word)
  /-- ALU_NE (R156). -/
  | aluNe (e : EngId) (u : AluId) (t : Word)
  /-- ALU_LTS (R156). -/
  | aluLts (e : EngId) (u : AluId) (t : Word)
  /-- ALU_LES (R156). -/
  | aluLes (e : EngId) (u : AluId) (t : Word)
  /-- ALU_GTS (R156). -/
  | aluGts (e : EngId) (u : AluId) (t : Word)
  /-- ALU_GES (R156). -/
  | aluGes (e : EngId) (u : AluId) (t : Word)
  /-- ALU_LTU (R156). -/
  | aluLtu (e : EngId) (u : AluId) (t : Word)
  /-- ALU_LEU (R156). -/
  | aluLeu (e : EngId) (u : AluId) (t : Word)
  /-- ALU_GTU (R156). -/
  | aluGtu (e : EngId) (u : AluId) (t : Word)
  /-- ALU_GEU (R156). -/
  | aluGeu (e : EngId) (u : AluId) (t : Word)
  /-- ALU_MINS (R156). -/
  | aluMins (e : EngId) (u : AluId) (t : Word)
  /-- ALU_MAXS (R156). -/
  | aluMaxs (e : EngId) (u : AluId) (t : Word)
  /-- ALU_MINU (R156). -/
  | aluMinu (e : EngId) (u : AluId) (t : Word)
  /-- ALU_MAXU (R156). -/
  | aluMaxu (e : EngId) (u : AluId) (t : Word)
  /-- ALU_ABS (R156). -/
  | aluAbs (e : EngId) (u : AluId) (t : Word)
  /-- MUL_MULL (R158). -/
  | mulMull (e : EngId) (u : PairId) (t : Word)
  /-- MUL_MULU (R158). -/
  | mulMulu (e : EngId) (u : PairId) (t : Word)
  /-- MUL_MULSU (R158). -/
  | mulMulsu (e : EngId) (u : PairId) (t : Word)
  /-- MAC_MACS (R160). -/
  | macMacs (e : EngId) (u : PairId) (t : Word)
  /-- MAC_MACU (R160). -/
  | macMacu (e : EngId) (u : PairId) (t : Word)
  /-- MAC_MSBS (R160). -/
  | macMsbs (e : EngId) (u : PairId) (t : Word)
  /-- MAC_MACSS (R164). -/
  | macMacss (e : EngId) (u : PairId) (t : Word)
  /-- MAC_LDMUL (R160). -/
  | macLdmul (e : EngId) (u : PairId) (t : Word)
  /-- MAC_LERP (R162). -/
  | macLerp (e : EngId) (u : PairId) (t : Word)
  /-- MAC_LDACC (R160). -/
  | macLdacc (e : EngId) (u : PairId) (t : Word)
  /-- MAC_RSH (R163). -/
  | macRsh (e : EngId) (u : PairId) (t : Word)
  /-- MAC_ADDA (R160). -/
  | macAdda (e : EngId) (u : PairId) (t : Word)
  /-- DIV_DIVS (R165). -/
  | divDivs (e : EngId) (t : Word)
  /-- DIV_DIVU (R165). -/
  | divDivu (e : EngId) (t : Word)
  /-- BIT_EXTU (R169). -/
  | bitExtu (e : EngId) (t : Word)
  /-- BIT_EXTS (R169). -/
  | bitExts (e : EngId) (t : Word)
  /-- BIT_INS (R169). -/
  | bitIns (e : EngId) (t : Word)
  /-- BIT_CLZ (R169). -/
  | bitClz (e : EngId) (t : Word)
  /-- BIT_CTZ (R169). -/
  | bitCtz (e : EngId) (t : Word)
  /-- BIT_POPC (R169). -/
  | bitPopc (e : EngId) (t : Word)
  /-- BIT_PERM (R170). -/
  | bitPerm (e : EngId) (t : Word)
  /-- COMPUTE_RESULT_COMPLETE (R106). -/
  | computeResultComplete (e : EngId) (u : UnitId)
  /-- LSU_LDBU (R182). -/
  | lsuLdbu (e : EngId) (n : PairId) (t : Word)
  /-- LSU_LDBS (R182). -/
  | lsuLdbs (e : EngId) (n : PairId) (t : Word)
  /-- LSU_LDHU (R182). -/
  | lsuLdhu (e : EngId) (n : PairId) (t : Word)
  /-- LSU_LDHS (R182). -/
  | lsuLdhs (e : EngId) (n : PairId) (t : Word)
  /-- LSU_LDW (R182). -/
  | lsuLdw (e : EngId) (n : PairId) (t : Word)
  /-- LSU_LDWX (R182). -/
  | lsuLdwx (e : EngId) (n : PairId) (t : Word)
  /-- LSU_STB (R182). -/
  | lsuStb (e : EngId) (n : PairId) (t : Word)
  /-- LSU_STH (R182). -/
  | lsuSth (e : EngId) (n : PairId) (t : Word)
  /-- LSU_STW (R182). -/
  | lsuStw (e : EngId) (n : PairId) (t : Word)
  /-- LSU_STWX (R182). -/
  | lsuStwx (e : EngId) (n : PairId) (t : Word)
  /-- LSU_AADD (R190). -/
  | lsuAadd (e : EngId) (n : PairId) (t : Word)
  /-- LSU_ASWP (R190). -/
  | lsuAswp (e : EngId) (n : PairId) (t : Word)
  /-- LSU_LDFBU (R182). -/
  | lsuLdfbu (e : EngId) (n : PairId) (t : Word)
  /-- LSU_LDFBS (R182). -/
  | lsuLdfbs (e : EngId) (n : PairId) (t : Word)
  /-- LSU_LDFHU (R182). -/
  | lsuLdfhu (e : EngId) (n : PairId) (t : Word)
  /-- LSU_LDFHS (R182). -/
  | lsuLdfhs (e : EngId) (n : PairId) (t : Word)
  /-- LSU_LDFW (R182). -/
  | lsuLdfw (e : EngId) (n : PairId) (t : Word)
  /-- LSU_LDFWX (R182). -/
  | lsuLdfwx (e : EngId) (n : PairId) (t : Word)
  /-- LSU_STFB (R182). -/
  | lsuStfb (e : EngId) (n : PairId) (t : Word)
  /-- LSU_STFH (R182). -/
  | lsuStfh (e : EngId) (n : PairId) (t : Word)
  /-- LSU_STFW (R182). -/
  | lsuStfw (e : EngId) (n : PairId) (t : Word)
  /-- LSU_STFWX (R182). -/
  | lsuStfwx (e : EngId) (n : PairId) (t : Word)
  /-- LSU_FAADD (R190). -/
  | lsuFaadd (e : EngId) (n : PairId) (t : Word)
  /-- LSU_FASWP (R190). -/
  | lsuFaswp (e : EngId) (n : PairId) (t : Word)
  /-- LOCAL_LOAD_RESULT (R135). -/
  | localLoadResult (e : EngId) (n : PairId)
  /-- STORE_DRAIN (R186). -/
  | storeDrain (e : EngId)
  /-- FAR_LOAD_RESULT (R108). -/
  | farLoadResult (e : EngId) (n : PairId)
  /-- FAR_STORE_COMPLETION (R186). -/
  | farStoreCompletion (e : EngId) (n : PairId)
  /-- BMU_CPY (R194). -/
  | bmuCpy (e : EngId) (t : Word)
  /-- BMU_CPYF (R194). -/
  | bmuCpyf (e : EngId) (t : Word)
  /-- BMU_FILL (R194). -/
  | bmuFill (e : EngId) (t : Word)
  /-- BMU_SCAN (R194). -/
  | bmuScan (e : EngId) (t : Word)
  /-- BMU_SCANN (R194). -/
  | bmuScann (e : EngId) (t : Word)
  /-- BMU_CMP (R194). -/
  | bmuCmp (e : EngId) (t : Word)
  /-- BMU_STOP (R198). -/
  | bmuStop (e : EngId) (t : Word)
  /-- BMU_ELEMENT_ACCESS (R197). -/
  | bmuElementAccess (e : EngId)
  /-- CTL_JMP (R138). -/
  | ctlJmp (e : EngId) (t : Word)
  /-- CTL_JR (R138). -/
  | ctlJr (e : EngId) (t : Word)
  /-- CTL_CALL (R138). -/
  | ctlCall (e : EngId) (t : Word)
  /-- CTL_RET (R138). -/
  | ctlRet (e : EngId) (t : Word)
  /-- CTL_REP (R141). -/
  | ctlRep (e : EngId) (t : Word)
  /-- CTL_LP0 (R144). -/
  | ctlLp0 (e : EngId) (t : Word)
  /-- CTL_LP1 (R144). -/
  | ctlLp1 (e : EngId) (t : Word)
  /-- CTL_SYNC (R147). -/
  | ctlSync (e : EngId) (t : Word)
  /-- SYNC_COMPLETE (R147). -/
  | syncComplete (e : EngId)
  /-- CTL_TRAP (R209). -/
  | ctlTrap (e : EngId) (t : Word)
  /-- CTL_ERET (R217). -/
  | ctlEret (e : EngId) (t : Word)
  /-- APU_PHS (R111). -/
  | apuPhs (e : EngId) (t : Word)
  /-- APU_VEL (R111). -/
  | apuVel (e : EngId) (t : Word)
  /-- APU_EDGE (R111). -/
  | apuEdge (e : EngId) (t : Word)
  /-- APU_TB (R111). -/
  | apuTb (e : EngId) (t : Word)
  /-- APU_WPH (R112). -/
  | apuWph (e : EngId) (t : Word)
  /-- APU_WTB (R112). -/
  | apuWtb (e : EngId) (t : Word)
  /-- APU_WAIT_COMPLETE (R112). -/
  | apuWaitComplete (e : EngId)
  /-- XIO_SEND (R115). -/
  | xioSend (e : EngId) (t : Word)
  /-- XIO_ALW (R116). -/
  | xioAlw (e : EngId) (t : Word)
  /-- XIO_POP (R114). -/
  | xioPop (e : EngId) (t : Word)
  /-- XIO_FEND (R77). -/
  | xioFend (e : EngId) (t : Word)
  /-- XIO_MCALL (R223). -/
  | xioMcall (e : EngId) (t : Word)
  /-- OUTBOUND_DELIVERY (R116). -/
  | outboundDelivery (e : EngId)
  /-- EXCEPTION_ENTRY (R213). -/
  | exceptionEntry (e : EngId)
  /-- INTERRUPT_INPUT_ASSERT (R211). -/
  | interruptInputAssert (e : EngId) (i : InputId)
  /-- VECTOR_PREFETCH (R219). -/
  | vectorPrefetch (e : EngId)
  /-- SOFTWARE_SOURCE_SET (R221). -/
  | softwareSourceSet (mask : Word)
  /-- NOP (R236). -/
  | muNop (e : EngId) (stall : Stall)
  /-- MOV (R236). -/
  | muMov (e : EngId) (stall : Stall)
  /-- LDI (R236). -/
  | muLdi (e : EngId) (stall : Stall)
  /-- ADD (R235). -/
  | muAdd (e : EngId) (stall : Stall)
  /-- ADC (R235). -/
  | muAdc (e : EngId) (stall : Stall)
  /-- SUB (R235). -/
  | muSub (e : EngId) (stall : Stall)
  /-- SBC (R235). -/
  | muSbc (e : EngId) (stall : Stall)
  /-- AND (R236). -/
  | muAnd (e : EngId) (stall : Stall)
  /-- OR (R236). -/
  | muOr (e : EngId) (stall : Stall)
  /-- XOR (R236). -/
  | muXor (e : EngId) (stall : Stall)
  /-- NOT (R236). -/
  | muNot (e : EngId) (stall : Stall)
  /-- SHL (R236). -/
  | muShl (e : EngId) (stall : Stall)
  /-- SHR (R236). -/
  | muShr (e : EngId) (stall : Stall)
  /-- SRA (R236). -/
  | muSra (e : EngId) (stall : Stall)
  /-- RLC (R236). -/
  | muRlc (e : EngId) (stall : Stall)
  /-- RRC (R236). -/
  | muRrc (e : EngId) (stall : Stall)
  /-- CMP (R236). -/
  | muCmp (e : EngId) (stall : Stall)
  /-- TST (R236). -/
  | muTst (e : EngId) (stall : Stall)
  /-- INC (R236). -/
  | muInc (e : EngId) (stall : Stall)
  /-- DEC (R236). -/
  | muDec (e : EngId) (stall : Stall)
  /-- ADDI (R236). -/
  | muAddi (e : EngId) (stall : Stall)
  /-- ADDA (R236). -/
  | muAdda (e : EngId) (stall : Stall)
  /-- SHLA (R236). -/
  | muShla (e : EngId) (stall : Stall)
  /-- EXF (R236). -/
  | muExf (e : EngId) (stall : Stall)
  /-- LDMIR (R236). -/
  | muLdmir (e : EngId) (stall : Stall)
  /-- MRD (R237). -/
  | muMrd (e : EngId) (stall : Stall)
  /-- MWR (R237). -/
  | muMwr (e : EngId) (stall : Stall)
  /-- MFETCH (R236). -/
  | muMfetch (e : EngId) (stall : Stall)
  /-- MPCW (R236). -/
  | muMpcw (e : EngId) (stall : Stall)
  /-- MPCR (R236). -/
  | muMpcr (e : EngId) (stall : Stall)
  /-- LDF (R236). -/
  | muLdf (e : EngId) (stall : Stall)
  /-- STF (R236). -/
  | muStf (e : EngId) (stall : Stall)
  /-- SETF (R236). -/
  | muSetf (e : EngId) (stall : Stall)
  /-- CLRF (R236). -/
  | muClrf (e : EngId) (stall : Stall)
  /-- LDCNT (R236). -/
  | muLdcnt (e : EngId) (stall : Stall)
  /-- LDCNTR (R236). -/
  | muLdcntr (e : EngId) (stall : Stall)
  /-- WAITC (R237). -/
  | muWaitc (e : EngId) (stall : Stall)
  /-- SYNC (R236). -/
  | muSync (e : EngId) (stall : Stall)
  /-- TRAP (R236). -/
  | muTrap (e : EngId) (stall : Stall)
  /-- EXIT (R223). -/
  | muExit (e : EngId) (stall : Stall)
  /-- NANO (R238). -/
  | muNano (e : EngId) (stall : Stall)
  /-- MICRO_OP_UNDEFINED (R236). -/
  | microOpUndefined (e : EngId) (stall : Stall)
  /-- EMU_DISPATCH (R227). -/
  | emuDispatch (e : EngId)
  /-- TE_EMUINJ_MISS (R246). -/
  | teEmuinjMiss (e : EngId)
  /-- TE_EMUINJ_IPC (R246). -/
  | teEmuinjIpc (e : EngId)
  /-- TIME_BASE_READ (R266). -/
  | timeBaseRead
  /-- TB_COMPARE_ARM (R269). -/
  | tbCompareArm (hi : Word)
  /-- TB_COMPARE (R269). -/
  | tbCompare
  /-- TB_SYNC_TIMEOUT (R268). -/
  | tbSyncTimeout
  /-- WC_TICK (R271). -/
  | wcTick (m : WcId)
  /-- LINK_TARGET_ACTION (R275). -/
  | linkTargetAction (m : WcId)
  /-- WC_START (R275). -/
  | wcStart (m : WcId)
  /-- WC_STOP (R275). -/
  | wcStop (m : WcId)
  /-- WC_RESET (R275). -/
  | wcReset (m : WcId)
  /-- WC_ARM (R275). -/
  | wcArm (m : WcId)
  /-- WC_CANCEL (R284). -/
  | wcCancel (m : WcId)
  /-- TMR_GSTART (R275). -/
  | tmrGstart (mask : Word)
  /-- TMR_GSTOP (R275). -/
  | tmrGstop (mask : Word)
  /-- TMR_GRESET (R275). -/
  | tmrGreset (mask : Word)
  /-- ARMED_START (R275). -/
  | armedStart (m : WcId)
  /-- PERIOD_WRITE (R272). -/
  | periodWrite (m : WcId) (value : Word)
  /-- COMPARE_WRITE (R273). -/
  | compareWrite (m : WcId) (k : ChId) (value : Word)
  /-- LINK_TARGET_WRITE (R279). -/
  | linkTargetWrite (m : WcId) (value : Word)
  /-- WC_COUNT_READ (R278). -/
  | wcCountRead (m : WcId)
  /-- CAPTURE_EDGE (R280). -/
  | captureEdge (n : WcId) (rising : Bool) (edge : RawEdge)
  /-- CAPTURE_READ (R281). -/
  | captureRead (n : WcId) (falling : Bool)
  /-- ECC_WRITEBACK (R296). -/
  | eccWriteback (unit : Word)
  /-- REMAP_WRITE (R288). -/
  | remapWrite (remap : Bool)
  /-- LOCK_SET (R402). -/
  | lockSet
  /-- MATRIX_REQUEST (R305). -/
  | matrixRequest (m : MasterId) (req : ReqSpec)
  /-- ORDERED_RELEASE (R308). -/
  | orderedRelease (m : MasterId)
  /-- TARGET_ACCEPT (R306). -/
  | targetAccept (t : TargetId)
  /-- TARGET_ACCESS (R457). -/
  | targetAccess (t : TargetId)
  /-- RESPONSE (R311). -/
  | response (m : MasterId)
  /-- MASTER_RESET (R313). -/
  | masterReset (m : MasterNum)
  /-- MTX_INJ (R316). -/
  | mtxInj (value : Word)
  /-- PORT_ENABLE (R320). -/
  | portEnable (p : PortId)
  /-- PORT_RETRAIN (R341). -/
  | portRetrain (p : PortId)
  /-- TRAINING_FAILURE (R320). -/
  | trainingFailure (p : PortId) (why : TrainingEnd)
  /-- TRAINING_RETRY (R320). -/
  | trainingRetry (p : PortId)
  /-- DELAY_MEASUREMENT (R321). -/
  | delayMeasurement (p : PortId) (delay : LinkDelay)
  /-- LINK_DOWN (R322). -/
  | linkDown (p : PortId)
  /-- FRAME_SEND (R326). -/
  | frameSend (p : PortId)
  /-- LINK_FRAME_ERROR (R327). -/
  | linkFrameError (p : PortId) (bad : BadFrame)
  /-- VIOLATION_WINDOW (R341). -/
  | violationWindow (p : PortId)
  /-- ACK_RECEIVE (R327). -/
  | ackReceive (p : PortId) (seq : Byte) (cred : Byte)
  /-- NAK_RECEIVE (R327). -/
  | nakReceive (p : PortId) (seq : Byte) (cred : Byte)
  /-- ACK_TIMEOUT (R327). -/
  | ackTimeout (p : PortId)
  /-- TSYNC_SEND (R332). -/
  | tsyncSend
  /-- TSYNC_RECEIVE (R332). -/
  | tsyncReceive (p : PortId) (f : HlFrame) (rx : Stamp)
  /-- ANGLE_RECEIVE (R334). -/
  | angleReceive (p : PortId) (f : HlFrame)
  /-- MSG_RECEIVE (R335). -/
  | msgReceive (p : PortId) (f : HlFrame)
  /-- MSG_RESPONSE (R335). -/
  | msgResponse (p : PortId) (f : HlFrame)
  /-- MSG_RESEND (R335). -/
  | msgResend (tag : Byte)
  /-- RREAD_REQUEST (R336). -/
  | rreadRequest (p : PortId) (f : HlFrame)
  /-- RWRITE_REQUEST (R336). -/
  | rwriteRequest (p : PortId) (f : HlFrame)
  /-- RATOM_REQUEST (R336). -/
  | ratomRequest (p : PortId) (f : HlFrame)
  /-- REMOTE_RESPONSE (R336). -/
  | remoteResponse (p : PortId) (f : HlFrame)
  /-- TRANSACTION_TIMEOUT (R336). -/
  | transactionTimeout (tag : Byte)
  /-- CONFIG_IMAGE_REQUEST (R339). -/
  | configImageRequest (p : PortId) (f : HlFrame)
  /-- CONFIG_RESPONSE (R339): `loaded` gives the content of the sections without a layout of the image that the bytes belong to. -/
  | configResponse (p : PortId) (f : HlFrame) (loaded : Option ImgBody)
  /-- HL_INJ_DROPACK (R345). -/
  | hlInjDropack (p : PortId)
  /-- HL_INJ_RXNODE (R345). -/
  | hlInjRxnode (p : PortId)
  /-- HL_INJ_RXUNK (R345). -/
  | hlInjRxunk (p : PortId)
  /-- HL_INJ_RXSEQ (R345). -/
  | hlInjRxseq (p : PortId)
  /-- HL_INJ_RXCRC (R345). -/
  | hlInjRxcrc (p : PortId)
  /-- PCIE_INBOUND_REQUEST (R353). -/
  | pcieInboundRequest (req : PcieReq)
  /-- PCIE_COMPLETION (R354). -/
  | pcieCompletion (cpl : PcieCpl)
  /-- PCIE_COMPLETION_TIMEOUT (R354). -/
  | pcieCompletionTimeout
  /-- MSI_SEND (R355). -/
  | msiSend (v : MsiId)
  /-- PCIE_LINK_RESET (R356). -/
  | pcieLinkReset (perst : Bool)
  /-- ETH_TRANSMIT_FRAME (R358). -/
  | ethTransmitFrame (m : PairId)
  /-- ETH_RECEIVE_FRAME (R358). -/
  | ethReceiveFrame (m : PairId) (frame : EthFrame)
  /-- ETH_LINK_DOWN (R360). -/
  | ethLinkDown (m : PairId)
  /-- MDIO_ACCESS (R357). -/
  | mdioAccess (m : PairId) (value : Word) (phy : MdioPhy)
  /-- LBP_WINDOW_ACCESS (R363). -/
  | lbpWindowAccess (p : PairId) (acc : LbpAccess)
  /-- LBP_READY_TIMEOUT (R362). -/
  | lbpReadyTimeout (p : PairId)
  /-- LBP_SLAVE_READ (R364). -/
  | lbpSlaveRead (p : PairId) (addr : LbpCall) (width : Stall)
  /-- LBP_SLAVE_WRITE (R364). -/
  | lbpSlaveWrite (p : PairId) (addr : LbpCall) (data : Word) (width : Stall)
  /-- LBP_START_STROBE (R365). -/
  | lbpStartStrobe (p : PairId)
  /-- LBP_BEAT (R365). -/
  | lbpBeat (p : PairId) (data : Word) (ts : Stamp)
  /-- LBP_END_STROBE (R365). -/
  | lbpEndStrobe (p : PairId)
  /-- LBP_GAP_TIMEOUT (R366). -/
  | lbpGapTimeout (p : PairId)
  /-- LBP_MODE_CHANGE (R382). -/
  | lbpModeChange (p : PairId) (value : Word)
  /-- LINE_BREAK (R369). -/
  | lineBreak (found : LongBreak)
  /-- UART_RECEIVE (R371). -/
  | uartReceive (u : PortId) (ch : UartChar)
  /-- UART_SEND (R371). -/
  | uartSend (u : PortId) (value : Word)
  /-- UART_DATA_READ (R379). -/
  | uartDataRead (u : PortId)
  /-- SPI_WORD (R380): a word begins at a slave, or ends. -/
  | spiWord (s : SpiId) (rx : SpiShift)
  /-- SPI_DATA_WRITE (R380). -/
  | spiDataWrite (s : SpiId) (value : Word)
  /-- SPI_DATA_READ (R380). -/
  | spiDataRead (s : SpiId)
  /-- SPI_SELECT_END (R372). -/
  | spiSelectEnd (s : SpiId)
  /-- QSPI_COMMAND (R372). -/
  | qspiCommand (cmd : Word) (op : FlashOp)
  /-- I2C_COMMAND (R381). -/
  | i2cCommand (i : PairId) (value : Word) (bus : I2cBus)
  /-- I2C_DATA_WRITE (R381). -/
  | i2cDataWrite (i : PairId) (value : Word)
  /-- I2C_DATA_READ (R381). -/
  | i2cDataRead (i : PairId)
  /-- I2C_TARGET_ADDRESSED (R381). -/
  | i2cTargetAddressed (i : PairId) (bus : I2cTarget)
  /-- I2C_CLOCK_TIMEOUT (R373). -/
  | i2cClockTimeout (i : PairId)
  /-- GPIO_INPUT_EVENT (R374). -/
  | gpioInputEvent (pin : GpioId) (level : Bool)
  /-- DMA_GO (R375). -/
  | dmaGo (c : ChanId) (value : Word)
  /-- DMA_ABORT (R376). -/
  | dmaAbort (c : ChanId)
  /-- DMA_PERIPHERAL_REQUEST (R375). -/
  | dmaPeripheralRequest (c : ChanId)
  /-- DMA_CHAIN (R375). -/
  | dmaChain (c : ChanId)
  /-- POWER_ON (R430). -/
  | powerOn (offer : BootOffer)
  /-- RESET_ASSERT (R452). -/
  | resetAssert
  /-- RESET_RELEASE (R452). -/
  | resetRelease (offer : BootOffer)
  /-- DEVICE_RESET (R402). -/
  | deviceReset (offer : BootOffer)
  /-- FAILED_START_CLEAR (R402). -/
  | failedStartClear
  /-- BOOT_MAILBOX_GO (R390). -/
  | bootMailboxGo (offer : BootOffer)
  /-- BOOT_SOURCE_TIMEOUT (R390). -/
  | bootSourceTimeout (offer : BootOffer)
  /-- START_CONFIRM (R395). -/
  | startConfirm (value : Word)
  /-- CONFIRMATION_WINDOW_EXPIRY (R398). -/
  | confirmationWindowExpiry (offer : BootOffer)
  /-- MONITOR_INFO (R401). -/
  | monitorInfo
  /-- MONITOR_READ (R401). -/
  | monitorRead (addr : Word)
  /-- MONITOR_WRITE (R401). -/
  | monitorWrite (addr : Word) (value : Word)
  /-- MONITOR_LOAD (R401). -/
  | monitorLoad (n : Word) (bytes : List Byte) (crc : Word)
  /-- MONITOR_CHECK (R401). -/
  | monitorCheck (body : ImgBody)
  /-- MONITOR_PROGRAM (R401). -/
  | monitorProgram (slotB flash : Bool)
  /-- MONITOR_BOOT (R401). -/
  | monitorBoot (offer : BootOffer)
  /-- VITRINE_BORROW (R404). -/
  | vitrineBorrow (fail : MarchResult)
  /-- SCRUB_READ (R407). -/
  | scrubRead
  /-- NEVER_BORROW_MARK (R408). -/
  | neverBorrowMark (w : NbWord) (value : Word)
  /-- CUR_INJ_MFAIL (R412). -/
  | curInjMfail
  /-- TE_INJ_CE (R412). -/
  | teInjCe (e : EngId) (emu : Bool)
  /-- TE_INJ_UE (R412). -/
  | teInjUe (e : EngId) (emu : Bool)
  /-- TE_INJ_SPAR (R412). -/
  | teInjSpar (e : EngId)
  /-- TE_INJ_BPAR (R412). -/
  | teInjBpar (e : EngId) (bus : BaseId)
  /-- TE_INJ_WDG (R412). -/
  | teInjWdg (e : EngId)
  /-- SYS_INJ_CE (R412). -/
  | sysInjCe (store : StoreSel)
  /-- SYS_INJ_UE (R412). -/
  | sysInjUe (store : StoreSel)
  /-- PWR_INJ_THW (R412). -/
  | pwrInjThw (on : Bool)
  /-- PWR_INJ_WARN (R412). -/
  | pwrInjWarn (on : Bool)
  /-- GPIO_INJ_BRK (R412). -/
  | gpioInjBrk (r : RcvId)
  /-- WATCHDOG_EXPIRY (R413). -/
  | watchdogExpiry (e : EngId)
  /-- WATCHDOG_KICK (R413). -/
  | watchdogKick (e : EngId)
  /-- ERROR_LOG_ACCEPT (R415). -/
  | errorLogAccept
  /-- ERROR_LOG_POP (R417). -/
  | errorLogPop
  /-- PERF_OVERFLOW (R425). -/
  | perfOverflow (e : EngId) (k : BaseId)
  /-- PERF_COUNT_READ (R426). -/
  | perfCountRead (e : EngId) (k : BaseId)
  /-- PERF_COUNT_WRITE (R426). -/
  | perfCountWrite (e : EngId) (k : BaseId) (value : Word)
  /-- BAROMETER_SAMPLE (R433). -/
  | barometerSample (vin : Half) (vcore : Half)
  /-- BAROMETER_RECOVER (R434). -/
  | barometerRecover
  /-- BAROMETER_RESET (R435). -/
  | barometerReset (cause : BaroCause) (offer : BootOffer)
  /-- THERMAL_SAMPLE (R436). -/
  | thermalSample (temp : Half)
  /-- REFERENCE_SWITCH (R440). -/
  | referenceSwitch (src : Bool)
  /-- RECOVERED_CLOCK_LOSS (R440). -/
  | recoveredClockLoss
  /-- XIN_LOSS (R440). -/
  | xinLoss
  /-- XIN_LOSS_TIMEOUT (R440). -/
  | xinLossTimeout (offer : BootOffer)
  /-- PORT_UP (R320). -/
  | portUp (p : PortId) (partner : NodeId) (nextSeq : Byte)
  /-- PCIE_LINK_UP (R356). -/
  | pcieLinkUp (width : Fin 4) (gen2 : Bool)
  /-- PCIE_CONFIG_REQUEST (R355). -/
  | pcieConfigRequest (write : Bool) (off : CfgOffset) (value : Word)
  /-- ETH_LINK_UP (R360). -/
  | ethLinkUp (m : EthUp)
  /-- XIN_RETURN (R440). -/
  | xinReturn
  /-- TIME_BASE_SLEW (R267). -/
  | timeBaseSlew
  /-- VIRTUAL_MASTER_ACCUMULATION (R47). -/
  | virtualMasterAccumulation (b : BaseId)
  /-- UART_CHARACTER_SENT (R371). -/
  | uartCharacterSent (u : PortId)
  /-- CTS_CHANGE (R371). -/
  | ctsChange (u : PortId) (asserted : Bool)
  /-- MONITOR_UNKNOWN_COMMAND (R401). -/
  | monitorUnknownCommand
  /-- TAP_INSTRUCTION (R454). -/
  | tapInstruction (ir : Byte) (bsr : Option Cells)
  /-- TEST_LOGIC_RESET (R454). -/
  | testLogicReset
  deriving DecidableEq, Repr

end Sys2Proof
end

