-- ==== Sys2Proof/Config.lean ====
section
/-! DEFINITION. What the spec leaves open, as constants without a body: nothing can evaluate them or prove a value of them.
Each is named in a log entry. -/

namespace Sys2Proof.Config

/-- A free word: what an operation of one of the five cases of R9 leaves in a register or port it touches. The argument is the
model's own counter of free values. -/
opaque freeWord : Nat → Word

/-- A free byte: what an operation of one of the five cases of R9 leaves in a memory byte it touches. -/
opaque freeByte : Nat → Byte

/-- The Boot ROM's bytes, by offset (R285 gives its size and no contents). -/
opaque bootRom : Nat → Byte

/-- What the serial flash holds where this model has programmed nothing, by offset (R372). -/
opaque flashByte : Nat → Byte

/-- The density in KiB that the flash's SFDP tables state (R372, R379). -/
opaque flashDensity : BitVec 24

/-- The flash has valid SFDP tables (R372). -/
opaque flashSfdp : Bool

/-- Whether the flash answers a read with the command, address bytes and dummy cycles that QSPI_CFG[23:0] gives (R372, R379). -/
opaque flashReads : BitVec 24 → Bool

/-- What the flash gives at an offset to a read that it does not answer (R372). -/
opaque flashStray : BitVec 24 → Nat → Byte

/-- The level that a pull, a load or the outside gives a ball while the part does not drive it, by boundary-scan cell (R418, R450). -/
opaque padLevel : Nat → Bool

/-- The level of an asserted RTS output (R371, R450). -/
opaque rtsLevel : Bool

/-- The level that the outside gives a strobe/handshake line of a backplane port, by port and line and by model fc (R361). -/
opaque hsLevel : Nat → Nat → Bool

/-- The ECC check bits' syndrome that a log entry carries for a corrected unit: the spec gives no code (R416). -/
opaque eccSyndrome : Nat → BitVec 16

/-- The speed that an Ethernet MAC takes before the in-band status has reported one: 0 for 10, 1 for 100, 2 for 1000 Mb/s (R357). -/
opaque inbandSpeed : Nat → BitVec 2

/-- The identity that the Boot ROM gives the PCIe function, by configuration offset (R351). -/
opaque romId : Nat → BitVec 32

/-- The codes of the TAP instructions IDCODE and SAMPLE/PRELOAD (R454 names them without a code). -/
opaque tapIdcode : BitVec 8
opaque tapSample : BitVec 8

/-- The hops of the path to a node, by node ID: the topology stands outside the part (R337). -/
opaque hops : Nat → Nat

end Sys2Proof.Config
end

