-- ==== Sys2Proof/Machine/Map.lean ====
section
/-! DEFINITION. A sparse map as plain data: a list of key and value pairs in one canonical form, keys strictly rising and no
entry equal to what an unlisted key reads as. -/

namespace Sys2Proof.Machine

variable {α : Type}

/-- What key `k` reads as; `d` gives what an unlisted key reads as. -/
def mapGet (d : Nat → α) : List (Nat × α) → Nat → α
  | [], k => d k
  | (j, w) :: m, k => if j = k then w else mapGet d m k

/-- The map without key `k`. -/
def mapErase : List (Nat × α) → Nat → List (Nat × α)
  | [], _ => []
  | (j, w) :: m, k => if j = k then mapErase m k else (j, w) :: mapErase m k

/-- The map with an entry for `k` put in its place in key order. -/
def mapInsert : List (Nat × α) → Nat → α → List (Nat × α)
  | [], k, v => [(k, v)]
  | (j, w) :: m, k, v => if k < j then (k, v) :: (j, w) :: m else (j, w) :: mapInsert m k v

/-- The map in which key `k` reads as `v`; writing what an unlisted key reads as removes the entry. -/
def mapSet [DecidableEq α] (d : Nat → α) (m : List (Nat × α)) (k : Nat) (v : α) : List (Nat × α) :=
  if v = d k then mapErase m k else mapInsert (mapErase m k) k v

/-- The map without the keys that `p` picks. -/
def mapDrop (p : Nat → Bool) (m : List (Nat × α)) : List (Nat × α) := m.filter (fun e => !p e.1)

/-- The canonical form: keys strictly rising, no entry equal to what an unlisted key reads as. -/
def mapWf [DecidableEq α] (d : Nat → α) : List (Nat × α) → Bool
  | [] => true
  | (j, w) :: m => decide (w ≠ d j) && (m.all fun e => decide (j < e.1)) && mapWf d m

end Sys2Proof.Machine
end

