-- ==== Sys2Proof/Machine/Regs.lean ====
section
/-! DEFINITION. The register map: one row per register or register family of the spec's register tables, with its offset, its
reset value and the masks of its RW and W1C bits (R7, R8), and the address of every register by name (R286, R121). -/

namespace Sys2Proof.Machine

/-- One row of a register table: the offset in its block, the (count, stride) pairs of a family with the outermost first, the
reset value, the bits with access code RW and the bits with access code W1C. Bits in neither mask ignore writes (R7, R8). -/
structure RegRow where
  off   : Nat
  dims  : List (Nat × Nat)
  reset : Word
  rw    : Word
  w1c   : Word
  deriving DecidableEq, Repr

/-- Whether an offset from the row's own offset falls on a member of the family. -/
def RegRow.hits : List (Nat × Nat) → Nat → Bool
  | [], r => r == 0
  | (n, k) :: ds, r => decide (r / k < n) && RegRow.hits ds (r % k)

/-- Whether the row covers the block offset `o`. -/
def RegRow.covers (x : RegRow) (o : Nat) : Bool :=
  decide (x.off ≤ o) && RegRow.hits x.dims (o - x.off)

namespace Reg

/-- The rows of the SYS block. -/
def sysRows0 : List RegRow := [
  ⟨0x0, [], 0x0, 0x0, 0x0⟩,
  ⟨0x4, [], 0x0, 0x3, 0x0⟩,
  ⟨0x8, [], 0x0, 0x0, 0x0⟩,
  ⟨0xC, [], 0x0, 0x0, 0x0⟩,
  ⟨0x10, [], 0x0, 0x0, 0x0⟩,
  ⟨0x14, [], 0x0, 0x7, 0x0⟩,
  ⟨0x18, [], 0x0, 0x0, 0x0⟩,
  ⟨0x20, [(3, 0x4)], 0x0, 0xFFFFFFFF, 0x0⟩,
  ⟨0x2C, [], 0x0, 0x0, 0x0⟩,
  ⟨0x40, [], 0x0, 0x0, 0x0⟩,
  ⟨0x44, [], 0x0, 0x0, 0xFFFFFFFF⟩,
  ⟨0x200, [], 0x0, 0x0, 0x0⟩,
  ⟨0x204, [], 0x0, 0x0, 0x0⟩,
  ⟨0x208, [], 0x0, 0x0, 0x0⟩,
  ⟨0x20C, [], 0x0, 0x0, 0x0⟩,
  ⟨0x210, [], 0x0, 0x0, 0x0⟩,
  ⟨0x220, [], 0x0, 0xFFFFFFFF, 0x0⟩,
  ⟨0x224, [], 0x0, 0xFFFFFFFF, 0x0⟩,
  ⟨0x228, [], 0x0, 0x0, 0x0⟩,
  ⟨0x230, [], 0x0, 0x0, 0x0⟩,
  ⟨0x400, [(8, 0x20)], 0x0, 0xFFFFFFFF, 0x0⟩,
  ⟨0x404, [(8, 0x20)], 0x0, 0xFFFFFFFF, 0x0⟩,
  ⟨0x408, [(8, 0x20)], 0x0, 0xFFFFFFFF, 0x0⟩,
  ⟨0x40C, [(8, 0x20)], 0x0, 0xFFFFFFFF, 0x0⟩]
/-- The rows of the SYS block, continued. -/
def sysRows1 : List RegRow := [
  ⟨0x410, [(8, 0x20)], 0x2, 0xFFFF1F, 0x0⟩,
  ⟨0x414, [(8, 0x20)], 0x0, 0x0, 0xF00⟩,
  ⟨0x418, [(8, 0x20)], 0x0, 0x0, 0x0⟩]
/-- All rows of the SYS block. -/
def sysRows : List RegRow := sysRows0 ++ sysRows1

/-- The rows of the PWR block. -/
def pwrRows : List RegRow := [
  ⟨0x0, [], 0x0, 0x0, 0x0⟩,
  ⟨0x4, [], 0x30, 0x0, 0x0⟩,
  ⟨0x8, [], 0x1, 0x1F, 0x0⟩,
  ⟨0x10, [], 0x0, 0xFFFFFFFF, 0x0⟩,
  ⟨0x14, [], 0x0, 0xFFFFFFFF, 0x0⟩,
  ⟨0x18, [], 0x0, 0xFFFFFFFF, 0x0⟩,
  ⟨0x20, [], 0x0, 0x3, 0x0⟩,
  ⟨0x40, [], 0x10CC0000, 0xFFFF0F00, 0x0⟩,
  ⟨0x44, [], 0x0, 0x0, 0xF00⟩,
  ⟨0x48, [], 0x0, 0x0, 0x0⟩,
  ⟨0x4C, [], 0xFFFF, 0xFFFF, 0x0⟩,
  ⟨0x50, [], 0x0, 0x700, 0x0⟩,
  ⟨0x54, [], 0x0, 0x0, 0x700⟩,
  ⟨0x58, [], 0x0, 0x0, 0x0⟩]

/-- The rows of the CLK block. -/
def clkRows : List RegRow := [
  ⟨0x0, [], 0x0, 0x1, 0x0⟩,
  ⟨0x4, [], 0x0, 0x0, 0x700⟩]

/-- The rows of the ANG block. -/
def angRows0 : List RegRow := [
  ⟨0x0, [], 0x0, 0x0, 0x0⟩,
  ⟨0x4, [], 0x0, 0x0, 0x0⟩,
  ⟨0x100, [(8, 0x80)], 0x0, 0xFF09, 0x0⟩,
  ⟨0x104, [(8, 0x80)], 0x220, 0xF1FFF, 0x0⟩,
  ⟨0x108, [(8, 0x80)], 0x0, 0x0, 0xFF00⟩,
  ⟨0x10C, [(8, 0x80)], 0x0, 0xFFFFFFF, 0x0⟩,
  ⟨0x110, [(8, 0x80)], 0x0, 0x0, 0x0⟩,
  ⟨0x114, [(8, 0x80)], 0x0, 0x0, 0x0⟩,
  ⟨0x118, [(8, 0x80)], 0x0, 0x0, 0x0⟩,
  ⟨0x11C, [(8, 0x80)], 0x0, 0x0, 0x0⟩,
  ⟨0x120, [(8, 0x80)], 0x0, 0x0, 0x0⟩,
  ⟨0x124, [(8, 0x80)], 0x0, 0x0, 0x0⟩,
  ⟨0x128, [(8, 0x80)], 0x0, 0xFFFFFFFF, 0x0⟩,
  ⟨0x12C, [(8, 0x80)], 0x0, 0xFFFFFFFF, 0x0⟩,
  ⟨0x130, [(8, 0x80)], 0x0, 0xFFFFFFFF, 0x0⟩,
  ⟨0x134, [(8, 0x80)], 0x0, 0xFFFFFFFF, 0x0⟩,
  ⟨0x138, [(8, 0x80)], 0x0, 0xFFFFFFFF, 0x0⟩,
  ⟨0x13C, [(8, 0x80)], 0x0, 0xFFFFFFFF, 0x0⟩,
  ⟨0x140, [(8, 0x80)], 0x0, 0xFFFFFFFF, 0x0⟩,
  ⟨0x144, [(8, 0x80)], 0x5F5E100, 0xFFFFFFFF, 0x0⟩,
  ⟨0x148, [(8, 0x80)], 0x0, 0xFFFFFF01, 0x0⟩,
  ⟨0x14C, [(8, 0x80)], 0x0, 0xFFFF, 0x0⟩,
  ⟨0x150, [(8, 0x80)], 0x0, 0xFFFF, 0x0⟩,
  ⟨0x154, [(8, 0x80)], 0x0, 0x0, 0x0⟩]
/-- The rows of the ANG block, continued. -/
def angRows1 : List RegRow := [
  ⟨0x158, [(8, 0x80)], 0x0, 0x0, 0x0⟩]
/-- All rows of the ANG block. -/
def angRows : List RegRow := angRows0 ++ angRows1

/-- The rows of the ALM block. -/
def almRows : List RegRow := [
  ⟨0x0, [], 0x0, 0xFF03, 0x0⟩,
  ⟨0x4, [], 0x0, 0x0, 0xFF00⟩,
  ⟨0x8, [], 0x0, 0x0, 0x0⟩,
  ⟨0xC, [], 0x0, 0xFFFF, 0x0⟩,
  ⟨0x10, [], 0x0, 0x0, 0xFFFF⟩,
  ⟨0x20, [], 0x0, 0xFFFFFFFF, 0x0⟩,
  ⟨0x24, [], 0x0, 0xFFFFFFFF, 0x0⟩,
  ⟨0x28, [], 0x0, 0xFFFFFFFF, 0x0⟩,
  ⟨0x2C, [], 0x0, 0xFFFFFFFF, 0x0⟩,
  ⟨0x40, [(8, 0x8)], 0x0, 0xFFFFFFFF, 0x0⟩,
  ⟨0x44, [(8, 0x8)], 0x0, 0xFFFFFFFF, 0x0⟩,
  ⟨0x80, [], 0x8, 0x1FF, 0x0⟩,
  ⟨0x88, [], 0x0, 0x0, 0xFFFFFFFF⟩,
  ⟨0x8C, [], 0x0, 0x0, 0xFFFFFFFF⟩,
  ⟨0x100, [(8, 0x20)], 0x0, 0x707, 0x0⟩,
  ⟨0x104, [(8, 0x20)], 0x0, 0x3FFF, 0x0⟩,
  ⟨0x108, [(8, 0x20)], 0x0, 0x7FFF, 0x0⟩,
  ⟨0x10C, [(8, 0x20)], 0x0, 0x0, 0x0⟩,
  ⟨0x110, [(8, 0x20)], 0x0, 0x0, 0x0⟩,
  ⟨0x400, [(16, 0x10)], 0x0, 0x0, 0x0⟩,
  ⟨0x404, [(16, 0x10)], 0x0, 0x0, 0x0⟩,
  ⟨0x408, [(16, 0x10)], 0x0, 0x0, 0x0⟩,
  ⟨0x40C, [(16, 0x10)], 0x0, 0x0, 0xF⟩,
  ⟨0x8000, [(1024, 0x10), (3, 0x4)], 0x0, 0xFFFFFFFF, 0x0⟩,
  ⟨0x800C, [(1024, 0x10)], 0x0, 0xFFFFFF70, 0x0⟩]

/-- The rows of the TMR block. -/
def tmrRows0 : List RegRow := [
  ⟨0x0, [], 0x0, 0x0, 0x0⟩,
  ⟨0x4, [], 0x0, 0x0, 0x0⟩,
  ⟨0x8, [], 0x0, 0x0, 0x0⟩,
  ⟨0xC, [], 0x0, 0x713, 0x0⟩,
  ⟨0x10, [], 0x1, 0x0, 0x700⟩,
  ⟨0x14, [], 0x400408, 0xFFFFFFFF, 0x0⟩,
  ⟨0x18, [], 0xF4240, 0xFFFFFFFF, 0x0⟩,
  ⟨0x1C, [], 0x0, 0x0, 0x0⟩,
  ⟨0x20, [], 0x0, 0xFFFFFFFF, 0x0⟩,
  ⟨0x24, [], 0x0, 0xFFFFFFFF, 0x0⟩,
  ⟨0x30, [], 0x0, 0x0, 0x0⟩,
  ⟨0x34, [], 0x0, 0x0, 0x0⟩,
  ⟨0x38, [], 0x0, 0x0, 0x0⟩,
  ⟨0x100, [(32, 0x40)], 0x0, 0xFF00, 0x0⟩,
  ⟨0x104, [(32, 0x40)], 0x0, 0xFF03300F, 0x0⟩,
  ⟨0x108, [(32, 0x40)], 0x0, 0x0, 0x1FF00⟩,
  ⟨0x10C, [(32, 0x40)], 0x0, 0x0, 0x0⟩,
  ⟨0x110, [(32, 0x40)], 0x0, 0x0, 0x0⟩,
  ⟨0x114, [(32, 0x40)], 0x0, 0xFFFFFFFF, 0x0⟩,
  ⟨0x118, [(32, 0x40)], 0x0, 0xFFFFFFFF, 0x0⟩,
  ⟨0x11C, [(32, 0x40)], 0x0, 0x1FFFFFFF, 0x0⟩,
  ⟨0x120, [(32, 0x40), (4, 0x4)], 0x0, 0xFFFFFFFF, 0x0⟩,
  ⟨0x130, [(32, 0x40)], 0x0, 0xFFFFFFFF, 0x0⟩,
  ⟨0x134, [(32, 0x40)], 0x0, 0x1F1F1F1F, 0x0⟩]
/-- The rows of the TMR block, continued. -/
def tmrRows1 : List RegRow := [
  ⟨0x138, [(32, 0x40)], 0x0, 0xFFFFFFFF, 0x0⟩,
  ⟨0x13C, [(32, 0x40)], 0x0, 0xFFFFFFFF, 0x0⟩,
  ⟨0x1000, [(32, 0x20)], 0x0, 0xF0703, 0x0⟩,
  ⟨0x1004, [(32, 0x20)], 0x0, 0x0, 0x700⟩,
  ⟨0x1008, [(32, 0x20)], 0x0, 0x0, 0x0⟩,
  ⟨0x100C, [(32, 0x20)], 0x0, 0x0, 0x0⟩,
  ⟨0x1010, [(32, 0x20)], 0x0, 0x0, 0x0⟩,
  ⟨0x1014, [(32, 0x20)], 0x0, 0x0, 0x0⟩,
  ⟨0x1018, [(32, 0x20)], 0x0, 0x0, 0x0⟩]
/-- All rows of the TMR block. -/
def tmrRows : List RegRow := tmrRows0 ++ tmrRows1

/-- The rows of the MTX block. -/
def mtxRows : List RegRow := [
  ⟨0x0, [], 0x0, 0x1F00, 0x0⟩,
  ⟨0x4, [], 0x0, 0x0, 0x1F00⟩,
  ⟨0x10, [], 0x0, 0x0, 0x0⟩,
  ⟨0x14, [], 0x0, 0x0, 0xC0000000⟩,
  ⟨0x18, [], 0x0, 0xFFFFFFFF, 0x0⟩,
  ⟨0x20, [], 0x0, 0x0, 0x0⟩,
  ⟨0x24, [], 0x0, 0x0, 0xC0000000⟩,
  ⟨0x28, [], 0x0, 0x0, 0x0⟩,
  ⟨0x2C, [], 0x0, 0x0, 0x0⟩,
  ⟨0x30, [], 0x0, 0xFFFFFFFF, 0x0⟩,
  ⟨0x100, [(33, 0x4)], 0x0, 0x0, 0x0⟩,
  ⟨0x200, [(30, 0x4)], 0x0, 0x0, 0x0⟩,
  ⟨0x400, [(33, 0x8)], 0x0, 0x0, 0x0⟩,
  ⟨0x404, [(33, 0x8)], 0x0, 0x0, 0x0⟩]

/-- The rows of the CUR block. -/
def curRows : List RegRow := [
  ⟨0x0, [], 0x0, 0xFF03, 0x0⟩,
  ⟨0x4, [], 0x0, 0x0, 0xF00⟩,
  ⟨0x8, [], 0x10000, 0xFFFFFFFF, 0x0⟩,
  ⟨0xC, [], 0x100, 0xFFFFFFFF, 0x0⟩,
  ⟨0x10, [], 0x0, 0x0, 0x0⟩,
  ⟨0x14, [], 0x0, 0x0, 0x0⟩,
  ⟨0x18, [], 0x0, 0x0, 0xC0000000⟩,
  ⟨0x20, [], 0x0, 0xFFFFFFFF, 0x0⟩,
  ⟨0x24, [], 0x0, 0xFFFFFFFF, 0x0⟩,
  ⟨0x28, [], 0x0, 0xFFFFFFFF, 0x0⟩,
  ⟨0x40, [], 0x0, 0x0, 0x0⟩,
  ⟨0x1000, [(192, 0x4)], 0x0, 0xFFFFFFFF, 0x0⟩]

/-- The rows of the ERR block. -/
def errRows : List RegRow := [
  ⟨0x0, [], 0x0, 0xFF03, 0x0⟩,
  ⟨0x4, [], 0x0, 0x0, 0x500⟩,
  ⟨0x8, [], 0x0, 0xFFFFFFFF, 0x0⟩,
  ⟨0xC, [], 0x0, 0x0, 0x0⟩,
  ⟨0x10, [(4, 0x4)], 0x0, 0x0, 0x0⟩,
  ⟨0x100, [(64, 0x10), (4, 0x4)], 0x0, 0x0, 0x0⟩]

/-- The rows of the HL block. -/
def hlRows : List RegRow := [
  ⟨0x0, [], 0x0, 0xFF03, 0x0⟩,
  ⟨0x4, [], 0x0, 0x0, 0xFF00⟩,
  ⟨0x8, [], 0x0, 0x0, 0x0⟩,
  ⟨0xC, [], 0x0, 0x0, 0x0⟩,
  ⟨0x10, [], 0x7D004, 0xFFFF0F, 0x0⟩,
  ⟨0x14, [], 0x3E80010, 0xFFFF00FF, 0x0⟩,
  ⟨0x18, [], 0x10, 0x1F, 0x0⟩,
  ⟨0x20, [], 0x0, 0xFFFFFFFF, 0x0⟩,
  ⟨0x24, [], 0x0, 0xFFFFFFFF, 0x0⟩,
  ⟨0x28, [], 0x0, 0xFFFFFFFF, 0x0⟩,
  ⟨0x2C, [], 0x0, 0xFFFFFFFF, 0x0⟩,
  ⟨0x30, [], 0x0, 0xFFFFFFFF, 0x0⟩,
  ⟨0x34, [], 0x0, 0x0, 0x0⟩,
  ⟨0x40, [], 0x0, 0x0, 0x0⟩]

/-- The rows of the HLC block. -/
def hlcRows : List RegRow := [
  ⟨0x1000, [], 0x0, 0xFFF, 0x0⟩,
  ⟨0x1004, [], 0x0, 0x8000000F, 0x0⟩,
  ⟨0x1008, [], 0x4E20, 0xFFFFFFFF, 0x0⟩,
  ⟨0x100C, [], 0x0, 0xFFF003, 0x0⟩,
  ⟨0x1010, [], 0x2710, 0xFFFFFFFF, 0x0⟩,
  ⟨0x1014, [], 0x1003E8, 0xFFFFFF, 0x0⟩,
  ⟨0x1018, [], 0x0, 0xF, 0x0⟩,
  ⟨0x101C, [], 0x0, 0xFFFFFFFF, 0x0⟩,
  ⟨0x1020, [], 0x0, 0xFFFFFFFF, 0x0⟩,
  ⟨0x1024, [], 0x0, 0xFFFFFFFF, 0x0⟩,
  ⟨0x1028, [], 0x0, 0xFFFFFFFF, 0x0⟩,
  ⟨0x4000, [(512, 0x4)], 0xFFFFFFFF, 0xFFFFFFFF, 0x0⟩]

/-- The rows of the PCIE block. -/
def pcieRows : List RegRow := [
  ⟨0x0, [], 0x0, 0xFF01, 0x0⟩,
  ⟨0x4, [], 0x0, 0x0, 0x1F00⟩,
  ⟨0x8, [], 0x32, 0xFFFFFFFF, 0x0⟩,
  ⟨0x10, [], 0x0, 0xF0000000, 0x0⟩,
  ⟨0x14, [], 0x0, 0xFFFFFFFF, 0x0⟩,
  ⟨0x20, [(4, 0x4)], 0x0, 0xFF, 0x0⟩,
  ⟨0x100, [(32, 0x4)], 0x0, 0x800000FF, 0x0⟩]

/-- The rows of the ETH block. -/
def ethRows : List RegRow := [
  ⟨0x0, [], 0x0, 0xFF37, 0x0⟩,
  ⟨0x4, [], 0x0, 0x0, 0x1F00⟩,
  ⟨0x8, [], 0x0, 0xFFFFFFFF, 0x0⟩,
  ⟨0xC, [], 0x0, 0xFFFF, 0x0⟩,
  ⟨0x10, [], 0x0, 0xFFFFFFF0, 0x0⟩,
  ⟨0x14, [], 0x0, 0xFFFFFFF0, 0x0⟩,
  ⟨0x18, [], 0x0, 0xFFFFFFFF, 0x0⟩,
  ⟨0x1C, [], 0x0, 0x43FFFFFF, 0x0⟩,
  ⟨0x20, [], 0x0, 0xFFFFFFFF, 0x0⟩,
  ⟨0x24, [], 0x0, 0xFFFFFFFF, 0x0⟩]

/-- The rows of the LBP block. -/
def lbpRows : List RegRow := [
  ⟨0x0, [], 0x0, 0xFFFB, 0x0⟩,
  ⟨0x4, [], 0x0, 0x0, 0xFF00⟩,
  ⟨0x8, [], 0x10101, 0xFFFFFF, 0x0⟩,
  ⟨0xC, [], 0xFFFF, 0xFFFF, 0x0⟩,
  ⟨0x10, [], 0x0, 0xFFFFFFFF, 0x0⟩,
  ⟨0x14, [], 0x0, 0xFF, 0x0⟩,
  ⟨0x18, [], 0x0, 0xFF, 0x0⟩,
  ⟨0x1C, [], 0x0, 0x0, 0x0⟩,
  ⟨0x20, [], 0x0, 0xFFFFFF, 0x0⟩,
  ⟨0x24, [], 0x0, 0xFFFFFF, 0x0⟩,
  ⟨0x28, [], 0x0, 0x1FFFFFF, 0x0⟩,
  ⟨0x2C, [], 0x0, 0xFFFFFFFC, 0x0⟩,
  ⟨0x30, [], 0x0, 0xFFFFFFF0, 0x0⟩,
  ⟨0x34, [], 0x0, 0xFFFFFFFF, 0x0⟩,
  ⟨0x38, [], 0x0, 0xFFFFFFFF, 0x0⟩,
  ⟨0x3C, [], 0x0, 0xFFFFFFFF, 0x0⟩]

/-- The rows of the SIO block. -/
def sioRows : List RegRow := [
  ⟨0x0, [(4, 0x100)], 0x0, 0xFF3F, 0x0⟩,
  ⟨0x4, [(4, 0x100)], 0x0, 0x0, 0x1F00⟩,
  ⟨0x8, [(4, 0x100)], 0x1, 0xFFFF, 0x0⟩,
  ⟨0xC, [(4, 0x100)], 0x0, 0x0, 0x0⟩,
  ⟨0x400, [(4, 0x100)], 0x10000, 0xFFFFFF7D, 0x0⟩,
  ⟨0x404, [(4, 0x100)], 0x0, 0x0, 0x1F00⟩,
  ⟨0x408, [], 0x0, 0x80FFFFFF, 0x0⟩,
  ⟨0x40C, [], 0x0, 0x0, 0x0⟩,
  ⟨0x410, [], 0x0, 0x0, 0x0⟩,
  ⟨0x414, [(4, 0x100)], 0x7, 0x3F, 0x0⟩,
  ⟨0x418, [(4, 0x100)], 0x0, 0x0, 0x0⟩,
  ⟨0x800, [(2, 0x100)], 0x0, 0xFF33, 0x0⟩,
  ⟨0x804, [(2, 0x100)], 0x0, 0x0, 0xFF00⟩,
  ⟨0x808, [(2, 0x100)], 0x0, 0x7F, 0x0⟩,
  ⟨0x80C, [(2, 0x100)], 0x2710, 0xFFFFFFFF, 0x0⟩,
  ⟨0x810, [(2, 0x100)], 0x0, 0x0, 0x0⟩,
  ⟨0x814, [(2, 0x100)], 0x0, 0x0, 0x0⟩]

/-- The rows of the GPIO block. -/
def gpioRows : List RegRow := [
  ⟨0x0, [(4, 0x20)], 0x0, 0xFFFFFF, 0x0⟩,
  ⟨0x4, [(4, 0x20)], 0x0, 0xFFFFFF, 0x0⟩,
  ⟨0x8, [(4, 0x20)], 0x0, 0xFFFFFF, 0x0⟩,
  ⟨0xC, [(4, 0x20)], 0x0, 0x0, 0x0⟩,
  ⟨0x10, [(4, 0x20)], 0x0, 0xFFFFFF, 0x0⟩,
  ⟨0x14, [(4, 0x20)], 0x0, 0xFFFFFF, 0x0⟩,
  ⟨0x18, [(4, 0x20)], 0x0, 0x0, 0xFFFFFF⟩,
  ⟨0x1C, [(4, 0x20)], 0x0, 0xFFFFFF, 0x0⟩,
  ⟨0x100, [], 0x0, 0xFFFFFFFF, 0x0⟩,
  ⟨0x104, [], 0x0, 0xFFFFFFFF, 0x0⟩,
  ⟨0x108, [], 0x0, 0x0, 0x0⟩,
  ⟨0x10C, [], 0x0, 0x0, 0x0⟩,
  ⟨0x110, [], 0x0, 0x0, 0x0⟩,
  ⟨0x120, [], 0x0, 0x0, 0xFFFFFF⟩,
  ⟨0x124, [], 0x3E8, 0xFFFFFFFF, 0x0⟩,
  ⟨0x128, [], 0x0, 0x0, 0x0⟩]

/-- The rows of the PERF block. -/
def perfRows : List RegRow := [
  ⟨0x100, [(16, 0x100)], 0x0, 0xFF03, 0x0⟩,
  ⟨0x104, [(16, 0x100)], 0x0, 0x0, 0xFF⟩,
  ⟨0x108, [(16, 0x100)], 0x0, 0x0, 0x0⟩,
  ⟨0x10C, [(16, 0x100)], 0x0, 0x0, 0xC0000000⟩,
  ⟨0x110, [(16, 0x100), (8, 0xC)], 0x0, 0x3FF1FFF, 0x0⟩,
  ⟨0x114, [(16, 0x100), (8, 0xC)], 0x0, 0x0, 0x0⟩,
  ⟨0x118, [(16, 0x100), (8, 0xC)], 0x0, 0xFFFF, 0x0⟩]

/-- The rows of the TE block. -/
def teRows0 : List RegRow := [
  ⟨0x0, [], 0x0, 0x0, 0x0⟩,
  ⟨0x4, [], 0x1, 0x1, 0x0⟩,
  ⟨0x8, [], 0x0, 0x0, 0x7⟩,
  ⟨0xC, [], 0x0, 0xFFFFFFFF, 0x0⟩,
  ⟨0x10, [], 0x0, 0x0, 0x0⟩,
  ⟨0x14, [], 0x0, 0x0, 0x0⟩,
  ⟨0x18, [], 0x0, 0x0, 0x0⟩,
  ⟨0x1C, [], 0x0, 0xFFFFFFFF, 0x0⟩,
  ⟨0x20, [], 0x0, 0x1FF0000, 0x0⟩,
  ⟨0x24, [], 0x0, 0x0, 0xF⟩,
  ⟨0x30, [], 0x1, 0x3, 0x0⟩,
  ⟨0x34, [], 0x0, 0x0, 0x0⟩,
  ⟨0x38, [], 0x0, 0x0, 0x0⟩,
  ⟨0x3C, [], 0x0, 0x0, 0x0⟩,
  ⟨0x40, [], 0x0, 0x0, 0xC000⟩,
  ⟨0x44, [], 0x0, 0x0, 0x0⟩,
  ⟨0x50, [], 0x0, 0x701, 0x0⟩,
  ⟨0x54, [], 0x1, 0x7, 0x0⟩,
  ⟨0x58, [], 0x0, 0x0, 0x700⟩,
  ⟨0x5C, [], 0x0, 0x0, 0x0⟩,
  ⟨0x60, [], 0x0, 0x0, 0x0⟩,
  ⟨0x64, [], 0x0, 0x0, 0x0⟩,
  ⟨0x70, [], 0x0, 0xFFFFFFFF, 0x0⟩,
  ⟨0x74, [(6, 0x4)], 0x0, 0xFFFFFFFF, 0x0⟩]
/-- The rows of the TE block, continued. -/
def teRows1 : List RegRow := [
  ⟨0x90, [(4, 0x4)], 0x0, 0x0, 0x0⟩,
  ⟨0x100, [], 0x0, 0x0, 0x10000⟩,
  ⟨0x104, [], 0x0, 0xFFF0F1F, 0x0⟩,
  ⟨0x108, [], 0x0, 0x1F130F, 0x0⟩,
  ⟨0x10C, [], 0x0, 0x0, 0x0⟩,
  ⟨0x110, [], 0x0, 0x0, 0x0⟩,
  ⟨0x114, [], 0x0, 0xFFF, 0x0⟩,
  ⟨0x118, [], 0x0, 0xFFFFFFFF, 0x0⟩,
  ⟨0x11C, [], 0x0, 0xFFFFFF, 0x0⟩,
  ⟨0x120, [], 0x0, 0xFFFFFFF0, 0x0⟩,
  ⟨0x124, [], 0x0, 0x0, 0x0⟩,
  ⟨0x140, [(8, 0x4)], 0x0, 0xFFFFFFFF, 0x0⟩,
  ⟨0x160, [(8, 0x4)], 0x0, 0x0, 0x0⟩,
  ⟨0x180, [(2, 0x40)], 0x0, 0xF0F, 0x0⟩,
  ⟨0x184, [(2, 0x40)], 0x0, 0xFFF, 0x0⟩,
  ⟨0x188, [(2, 0x40)], 0x0, 0xFF, 0x0⟩,
  ⟨0x18C, [(2, 0x40)], 0x0, 0xFFF, 0x0⟩,
  ⟨0x190, [(2, 0x40)], 0x0, 0xFFFFFFFF, 0x0⟩,
  ⟨0x194, [(2, 0x40)], 0x0, 0xFFFFFFF0, 0x0⟩,
  ⟨0x1A0, [(2, 0x40), (8, 0x4)], 0x0, 0xFFF, 0x0⟩,
  ⟨0x200, [], 0x0, 0x10F, 0x0⟩,
  ⟨0x204, [], 0x0, 0x0, 0xF⟩,
  ⟨0x210, [(4, 0x8)], 0x0, 0x0, 0x0⟩,
  ⟨0x214, [(4, 0x8)], 0x0, 0xFFFFFFFF, 0x0⟩]
/-- The rows of the TE block, continued. -/
def teRows2 : List RegRow := [
  ⟨0x230, [], 0x0, 0xFFFFFFFF, 0x0⟩,
  ⟨0x234, [], 0x0, 0xFFFFFFFF, 0x0⟩,
  ⟨0x238, [], 0x0, 0x0, 0x0⟩,
  ⟨0x300, [], 0x0, 0xFF03, 0x0⟩,
  ⟨0x304, [], 0x1000000, 0xFFFFFFFF, 0x0⟩,
  ⟨0x308, [], 0x1000000, 0x0, 0x0⟩,
  ⟨0x30C, [], 0x0, 0x0, 0x0⟩,
  ⟨0x310, [], 0x0, 0x0, 0xC0000000⟩,
  ⟨0x314, [], 0x0, 0x0, 0x0⟩,
  ⟨0x800, [(128, 0x4)], 0x0, 0x870000FF, 0x0⟩,
  ⟨0x1000, [(4096, 0x4)], 0x0, 0x0, 0x0⟩]
/-- All rows of the TE block. -/
def teRows : List RegRow := teRows0 ++ teRows1 ++ teRows2

/-- The rows of block k, the block at 0x5000_0000 + k × 0x1_0000 (R286). -/
def blockRows : Nat → List RegRow
  | 0x00 => sysRows | 0x01 => pwrRows | 0x02 => clkRows | 0x03 => angRows | 0x04 => almRows | 0x05 => tmrRows
  | 0x06 => mtxRows | 0x07 => curRows | 0x08 => errRows | 0x09 => hlRows ++ hlcRows | 0x0A => hlRows | 0x0B => hlRows
  | 0x0C => hlRows | 0x0D => pcieRows | 0x0E => ethRows | 0x0F => ethRows | 0x10 => lbpRows | 0x11 => lbpRows
  | 0x12 => sioRows | 0x13 => gpioRows | 0x14 => perfRows | _ => []

/-- The row that covers system address `a`, if a register lies there (R286, R121). -/
def row (a : Nat) : Option RegRow :=
  if 0x5100_0000 ≤ a ∧ a < 0x5110_0000 then teRows.find? (fun x => x.covers (a % 0x1_0000))
  else if 0x5000_0000 ≤ a ∧ a < 0x5015_0000 then
    (blockRows ((a - 0x5000_0000) / 0x1_0000)).find? (fun x => x.covers (a % 0x1_0000))
  else none

/-- The reset value of the register at `a`; zero where no register lies (R8). -/
def resetValue (a : Nat) : Word :=
  match row a with
  | some x => x.reset
  | none => 0

/-- SYS_ID (R402). -/
abbrev sysId : Nat := 0x50000000
/-- SYS_CTL (R402). -/
abbrev sysCtl : Nat := 0x50000004
/-- SYS_BOOTCAUSE (R402). -/
abbrev sysBootcause : Nat := 0x50000008
/-- SYS_BOOTST (R402). -/
abbrev sysBootst : Nat := 0x5000000C
/-- SYS_BOOTOK (R402). -/
abbrev sysBootok : Nat := 0x50000010
/-- SYS_BOOTPREF (R402). -/
abbrev sysBootpref : Nat := 0x50000014
/-- SYS_RST (R402). -/
abbrev sysRst : Nat := 0x50000018
/-- SYS_BOOTMBX (R402). -/
abbrev sysBootmbx (i : Nat) : Nat := 0x50000020 + 0x4 * i
/-- SYS_BOOTMBX3 (R402). -/
abbrev sysBootmbx3 : Nat := 0x5000002C
/-- SYS_SWISET (R221). -/
abbrev sysSwiset : Nat := 0x50000040
/-- SYS_SWI (R221). -/
abbrev sysSwi : Nat := 0x50000044
/-- SYS_MSCLASS_LO (R301). -/
abbrev sysMsclassLo : Nat := 0x50000200
/-- SYS_MSCLASS_HI (R301). -/
abbrev sysMsclassHi : Nat := 0x50000204
/-- SYS_TSCLASS_LO (R301). -/
abbrev sysTsclassLo : Nat := 0x50000208
/-- SYS_TSCLASS_HI (R301). -/
abbrev sysTsclassHi : Nat := 0x5000020C
/-- SYS_CLRSTAT (R301). -/
abbrev sysClrstat : Nat := 0x50000210
/-- SYS_ECCCE (R301). -/
abbrev sysEccce : Nat := 0x50000220
/-- SYS_ECCUE (R301). -/
abbrev sysEccue : Nat := 0x50000224
/-- SYS_ECCADDR (R301). -/
abbrev sysEccaddr : Nat := 0x50000228
/-- SYS_INJ (R412). -/
abbrev sysInj : Nat := 0x50000230
/-- DMA_SRC (R383). -/
abbrev dmaSrc (i : Nat) : Nat := 0x50000400 + 0x20 * i
/-- DMA_DST (R383). -/
abbrev dmaDst (i : Nat) : Nat := 0x50000404 + 0x20 * i
/-- DMA_CNT (R383). -/
abbrev dmaCnt (i : Nat) : Nat := 0x50000408 + 0x20 * i
/-- DMA_NEXT (R383). -/
abbrev dmaNext (i : Nat) : Nat := 0x5000040C + 0x20 * i
/-- DMA_CTL (R383). -/
abbrev dmaCtl (i : Nat) : Nat := 0x50000410 + 0x20 * i
/-- DMA_STAT (R383). -/
abbrev dmaStat (i : Nat) : Nat := 0x50000414 + 0x20 * i
/-- DMA_ERRADDR (R383). -/
abbrev dmaErraddr (i : Nat) : Nat := 0x50000418 + 0x20 * i
/-- PWR_CTL (R20). -/
abbrev pwrCtl : Nat := 0x50010000
/-- PWR_STAT (R20). -/
abbrev pwrStat : Nat := 0x50010004
/-- PWR_WAKECFG (R20). -/
abbrev pwrWakecfg : Nat := 0x50010008
/-- PWR_ALARM_LO (R20). -/
abbrev pwrAlarmLo : Nat := 0x50010010
/-- PWR_ALARM_HI (R20). -/
abbrev pwrAlarmHi : Nat := 0x50010014
/-- PWR_HOLDSKIP (R20). -/
abbrev pwrHoldskip : Nat := 0x50010018
/-- PWR_INJ (R412). -/
abbrev pwrInj : Nat := 0x50010020
/-- PWR_BARCTL (R444). -/
abbrev pwrBarctl : Nat := 0x50010040
/-- PWR_BARSTAT (R444). -/
abbrev pwrBarstat : Nat := 0x50010044
/-- PWR_VIN (R444). -/
abbrev pwrVin : Nat := 0x50010048
/-- PWR_VINMIN (R444). -/
abbrev pwrVinmin : Nat := 0x5001004C
/-- PWR_TCTL (R444). -/
abbrev pwrTctl : Nat := 0x50010050
/-- PWR_TSTAT (R444). -/
abbrev pwrTstat : Nat := 0x50010054
/-- PWR_TEMP (R444). -/
abbrev pwrTemp : Nat := 0x50010058
/-- CLK_CTL (R445). -/
abbrev clkCtl : Nat := 0x50020000
/-- CLK_STAT (R445). -/
abbrev clkStat : Nat := 0x50020004
/-- ANG_INJ (R54). -/
abbrev angInj : Nat := 0x50030000
/-- ANG_SUM (R54). -/
abbrev angSum : Nat := 0x50030004
/-- AB_CTL (R54). -/
abbrev abCtl (i : Nat) : Nat := 0x50030100 + 0x80 * i
/-- AB_CFG (R54). -/
abbrev abCfg (i : Nat) : Nat := 0x50030104 + 0x80 * i
/-- AB_STAT (R54). -/
abbrev abStat (i : Nat) : Nat := 0x50030108 + 0x80 * i
/-- AB_CPT (R54). -/
abbrev abCpt (i : Nat) : Nat := 0x5003010C + 0x80 * i
/-- AB_PH_LO (R54). -/
abbrev abPhLo (i : Nat) : Nat := 0x50030110 + 0x80 * i
/-- AB_PH_HI (R54). -/
abbrev abPhHi (i : Nat) : Nat := 0x50030114 + 0x80 * i
/-- AB_VEL_LO (R54). -/
abbrev abVelLo (i : Nat) : Nat := 0x50030118 + 0x80 * i
/-- AB_VEL_HI (R54). -/
abbrev abVelHi (i : Nat) : Nat := 0x5003011C + 0x80 * i
/-- AB_EDGE_LO (R54). -/
abbrev abEdgeLo (i : Nat) : Nat := 0x50030120 + 0x80 * i
/-- AB_EDGE_HI (R54). -/
abbrev abEdgeHi (i : Nat) : Nat := 0x50030124 + 0x80 * i
/-- AB_PRE_LO (R54). -/
abbrev abPreLo (i : Nat) : Nat := 0x50030128 + 0x80 * i
/-- AB_PRE_HI (R54). -/
abbrev abPreHi (i : Nat) : Nat := 0x5003012C + 0x80 * i
/-- AB_AT_LO (R54). -/
abbrev abAtLo (i : Nat) : Nat := 0x50030130 + 0x80 * i
/-- AB_AT_HI (R54). -/
abbrev abAtHi (i : Nat) : Nat := 0x50030134 + 0x80 * i
/-- AB_SRC1 (R54). -/
abbrev abSrc1 (i : Nat) : Nat := 0x50030138 + 0x80 * i
/-- AB_SRC2 (R54). -/
abbrev abSrc2 (i : Nat) : Nat := 0x5003013C + 0x80 * i
/-- AB_VMACC (R54). -/
abbrev abVmacc (i : Nat) : Nat := 0x50030140 + 0x80 * i
/-- AB_SILT (R54). -/
abbrev abSilt (i : Nat) : Nat := 0x50030144 + 0x80 * i
/-- AB_BC (R54). -/
abbrev abBc (i : Nat) : Nat := 0x50030148 + 0x80 * i
/-- AB_LSDEST (R54). -/
abbrev abLsdest (i : Nat) : Nat := 0x5003014C + 0x80 * i
/-- AB_ILLCNT (R54). -/
abbrev abIllcnt (i : Nat) : Nat := 0x50030150 + 0x80 * i
/-- AB_ZDEV (R54). -/
abbrev abZdev (i : Nat) : Nat := 0x50030154 + 0x80 * i
/-- AB_COUNT (R54). -/
abbrev abCount (i : Nat) : Nat := 0x50030158 + 0x80 * i
/-- ALM_CTL (R91). -/
abbrev almCtl : Nat := 0x50040000
/-- ALM_STAT (R91). -/
abbrev almStat : Nat := 0x50040004
/-- ALM_INJ (R91). -/
abbrev almInj : Nat := 0x50040008
/-- ALM_LSDEST (R91). -/
abbrev almLsdest : Nat := 0x5004000C
/-- ALM_GRPST (R91). -/
abbrev almGrpst : Nat := 0x50040010
/-- ALM_LATECNT (R91). -/
abbrev almLatecnt : Nat := 0x50040020
/-- ALM_DROPCNT (R91). -/
abbrev almDropcnt : Nat := 0x50040024
/-- ALM_SKIPCNT (R91). -/
abbrev almSkipcnt : Nat := 0x50040028
/-- ALM_MISSCNT (R91). -/
abbrev almMisscnt : Nat := 0x5004002C
/-- ALM_GRP_LO (R91). -/
abbrev almGrpLo (i : Nat) : Nat := 0x50040040 + 0x8 * i
/-- ALM_GRP_HI (R91). -/
abbrev almGrpHi (i : Nat) : Nat := 0x50040044 + 0x8 * i
/-- ALM_RBCFG (R91). -/
abbrev almRbcfg : Nat := 0x50040080
/-- ALM_RBERR_LO (R91). -/
abbrev almRberrLo : Nat := 0x50040088
/-- ALM_RBERR_HI (R91). -/
abbrev almRberrHi : Nat := 0x5004008C
/-- ALM_RCTL (R91). -/
abbrev almRctl (i : Nat) : Nat := 0x50040100 + 0x20 * i
/-- ALM_RBASE (R91). -/
abbrev almRbase (i : Nat) : Nat := 0x50040104 + 0x20 * i
/-- ALM_RLEN (R91). -/
abbrev almRlen (i : Nat) : Nat := 0x50040108 + 0x20 * i
/-- ALM_RNEXT (R91). -/
abbrev almRnext (i : Nat) : Nat := 0x5004010C + 0x20 * i
/-- ALM_RTURN (R91). -/
abbrev almRturn (i : Nat) : Nat := 0x50040110 + 0x20 * i
/-- ALM_FST (R91). -/
abbrev almFst (i : Nat) : Nat := 0x50040400 + 0x10 * i
/-- ALM_FELAP (R91). -/
abbrev almFelap (i : Nat) : Nat := 0x50040404 + 0x10 * i
/-- ALM_FGUST (R91). -/
abbrev almFgust (i : Nat) : Nat := 0x50040408 + 0x10 * i
/-- ALM_FMISS (R91). -/
abbrev almFmiss (i : Nat) : Nat := 0x5004040C + 0x10 * i
/-- ALM_FD (R91). -/
abbrev almFd (i j : Nat) : Nat := 0x50048000 + 0x10 * i + 0x4 * j
/-- TMR_TBLO (R284). -/
abbrev tmrTblo : Nat := 0x50050000
/-- TMR_TBHI (R284). -/
abbrev tmrTbhi : Nat := 0x50050004
/-- TMR_TBSUB (R284). -/
abbrev tmrTbsub : Nat := 0x50050008
/-- TMR_TBCTL (R284). -/
abbrev tmrTbctl : Nat := 0x5005000C
/-- TMR_TBSTAT (R284). -/
abbrev tmrTbstat : Nat := 0x50050010
/-- TMR_TBSYNC (R284). -/
abbrev tmrTbsync : Nat := 0x50050014
/-- TMR_TBSYNCTO (R284). -/
abbrev tmrTbsyncto : Nat := 0x50050018
/-- TMR_TBERR (R284). -/
abbrev tmrTberr : Nat := 0x5005001C
/-- TMR_TBCMP_LO (R284). -/
abbrev tmrTbcmpLo : Nat := 0x50050020
/-- TMR_TBCMP_HI (R284). -/
abbrev tmrTbcmpHi : Nat := 0x50050024
/-- TMR_GSTART (R284). -/
abbrev tmrGstart : Nat := 0x50050030
/-- TMR_GSTOP (R284). -/
abbrev tmrGstop : Nat := 0x50050034
/-- TMR_GRESET (R284). -/
abbrev tmrGreset : Nat := 0x50050038
/-- WC_CTL (R284). -/
abbrev wcCtl (i : Nat) : Nat := 0x50050100 + 0x40 * i
/-- WC_CFG (R284). -/
abbrev wcCfg (i : Nat) : Nat := 0x50050104 + 0x40 * i
/-- WC_STAT (R284). -/
abbrev wcStat (i : Nat) : Nat := 0x50050108 + 0x40 * i
/-- WC_CNT (R284). -/
abbrev wcCnt (i : Nat) : Nat := 0x5005010C + 0x40 * i
/-- WC_SNAPHI (R284). -/
abbrev wcSnaphi (i : Nat) : Nat := 0x50050110 + 0x40 * i
/-- WC_PER (R284). -/
abbrev wcPer (i : Nat) : Nat := 0x50050114 + 0x40 * i
/-- WC_OFS (R284). -/
abbrev wcOfs (i : Nat) : Nat := 0x50050118 + 0x40 * i
/-- WC_LINK (R284). -/
abbrev wcLink (i : Nat) : Nat := 0x5005011C + 0x40 * i
/-- WC_CMP (R284). -/
abbrev wcCmp (i j : Nat) : Nat := 0x50050120 + 0x40 * i + 0x4 * j
/-- WC_OACT (R284). -/
abbrev wcOact (i : Nat) : Nat := 0x50050130 + 0x40 * i
/-- WC_CHCFG (R284). -/
abbrev wcChcfg (i : Nat) : Nat := 0x50050134 + 0x40 * i
/-- WC_AT_LO (R284). -/
abbrev wcAtLo (i : Nat) : Nat := 0x50050138 + 0x40 * i
/-- WC_AT_HI (R284). -/
abbrev wcAtHi (i : Nat) : Nat := 0x5005013C + 0x40 * i
/-- CAP_CFG (R284). -/
abbrev capCfg (i : Nat) : Nat := 0x50051000 + 0x20 * i
/-- CAP_STAT (R284). -/
abbrev capStat (i : Nat) : Nat := 0x50051004 + 0x20 * i
/-- CAP_RISE_LO (R284). -/
abbrev capRiseLo (i : Nat) : Nat := 0x50051008 + 0x20 * i
/-- CAP_RISE_HI (R284). -/
abbrev capRiseHi (i : Nat) : Nat := 0x5005100C + 0x20 * i
/-- CAP_FALL_LO (R284). -/
abbrev capFallLo (i : Nat) : Nat := 0x50051010 + 0x20 * i
/-- CAP_FALL_HI (R284). -/
abbrev capFallHi (i : Nat) : Nat := 0x50051014 + 0x20 * i
/-- CAP_WIDTH (R284). -/
abbrev capWidth (i : Nat) : Nat := 0x50051018 + 0x20 * i
/-- MTX_CTL (R315). -/
abbrev mtxCtl : Nat := 0x50060000
/-- MTX_STAT (R315). -/
abbrev mtxStat : Nat := 0x50060004
/-- MTX_ERRADDR (R315). -/
abbrev mtxErraddr : Nat := 0x50060010
/-- MTX_ERRINFO (R315). -/
abbrev mtxErrinfo : Nat := 0x50060014
/-- MTX_ERRCNT (R315). -/
abbrev mtxErrcnt : Nat := 0x50060018
/-- MTX_RSTADDR (R315). -/
abbrev mtxRstaddr : Nat := 0x50060020
/-- MTX_RSTINFO (R315). -/
abbrev mtxRstinfo : Nat := 0x50060024
/-- MTX_MRST (R315). -/
abbrev mtxMrst : Nat := 0x50060028
/-- MTX_INJ (R315). -/
abbrev mtxInj : Nat := 0x5006002C
/-- MTX_RSTCNT (R315). -/
abbrev mtxRstcnt : Nat := 0x50060030
/-- MTX_MSTAT (R315). -/
abbrev mtxMstat (i : Nat) : Nat := 0x50060100 + 0x4 * i
/-- MTX_TSTAT (R315). -/
abbrev mtxTstat (i : Nat) : Nat := 0x50060200 + 0x4 * i
/-- MTX_SLICE_LO (R315). -/
abbrev mtxSliceLo (i : Nat) : Nat := 0x50060400 + 0x8 * i
/-- MTX_SLICE_HI (R315). -/
abbrev mtxSliceHi (i : Nat) : Nat := 0x50060404 + 0x8 * i
/-- CUR_CTL (R409). -/
abbrev curCtl : Nat := 0x50070000
/-- CUR_STAT (R409). -/
abbrev curStat : Nat := 0x50070004
/-- CUR_BINT (R409). -/
abbrev curBint : Nat := 0x50070008
/-- CUR_SCRUBDIV (R409). -/
abbrev curScrubdiv : Nat := 0x5007000C
/-- CUR_VIT (R409). -/
abbrev curVit : Nat := 0x50070010
/-- CUR_FADDR (R409). -/
abbrev curFaddr : Nat := 0x50070014
/-- CUR_FINFO (R409). -/
abbrev curFinfo : Nat := 0x50070018
/-- CUR_PASSCNT (R409). -/
abbrev curPasscnt : Nat := 0x50070020
/-- CUR_ABORTCNT (R409). -/
abbrev curAbortcnt : Nat := 0x50070024
/-- CUR_MFAILCNT (R409). -/
abbrev curMfailcnt : Nat := 0x50070028
/-- CUR_INJ (R409). -/
abbrev curInj : Nat := 0x50070040
/-- CUR_NB (R409). -/
abbrev curNb (i : Nat) : Nat := 0x50071000 + 0x4 * i
/-- ERR_CTL (R417). -/
abbrev errCtl : Nat := 0x50080000
/-- ERR_STAT (R417). -/
abbrev errStat : Nat := 0x50080004
/-- ERR_LOST (R417). -/
abbrev errLost : Nat := 0x50080008
/-- ERR_POP (R417). -/
abbrev errPop : Nat := 0x5008000C
/-- ERR_OLD (R417). -/
abbrev errOld (i : Nat) : Nat := 0x50080010 + 0x4 * i
/-- ERR_ENT (R417). -/
abbrev errEnt (i j : Nat) : Nat := 0x50080100 + 0x10 * i + 0x4 * j
/-- HL_CTL (R345). -/
abbrev hlCtl (n : Nat) : Nat := 0x50090000 + 0x10000 * n
/-- HL_STAT (R345). -/
abbrev hlStat (n : Nat) : Nat := 0x50090004 + 0x10000 * n
/-- HL_TRINFO (R345). -/
abbrev hlTrinfo (n : Nat) : Nat := 0x50090008 + 0x10000 * n
/-- HL_PARTNER (R345). -/
abbrev hlPartner (n : Nat) : Nat := 0x5009000C + 0x10000 * n
/-- HL_CFG (R345). -/
abbrev hlCfg (n : Nat) : Nat := 0x50090010 + 0x10000 * n
/-- HL_QCFG (R345). -/
abbrev hlQcfg (n : Nat) : Nat := 0x50090014 + 0x10000 * n
/-- HL_BCFWD (R345). -/
abbrev hlBcfwd (n : Nat) : Nat := 0x50090018 + 0x10000 * n
/-- HL_CRCERR (R345). -/
abbrev hlCrcerr (n : Nat) : Nat := 0x50090020 + 0x10000 * n
/-- HL_SEQERR (R345). -/
abbrev hlSeqerr (n : Nat) : Nat := 0x50090024 + 0x10000 * n
/-- HL_UNKERR (R345). -/
abbrev hlUnkerr (n : Nat) : Nat := 0x50090028 + 0x10000 * n
/-- HL_NODEERR (R345). -/
abbrev hlNodeerr (n : Nat) : Nat := 0x5009002C + 0x10000 * n
/-- HL_REPLAY (R345). -/
abbrev hlReplay (n : Nat) : Nat := 0x50090030 + 0x10000 * n
/-- HL_VIOL (R345). -/
abbrev hlViol (n : Nat) : Nat := 0x50090034 + 0x10000 * n
/-- HL_INJ (R345). -/
abbrev hlInj (n : Nat) : Nat := 0x50090040 + 0x10000 * n
/-- HL_NODE (R347). -/
abbrev hlNode : Nat := 0x50091000
/-- HL_MSGENG (R347). -/
abbrev hlMsgeng : Nat := 0x50091004
/-- HL_TXTO (R347). -/
abbrev hlTxto : Nat := 0x50091008
/-- HL_TSCTL (R347). -/
abbrev hlTsctl : Nat := 0x5009100C
/-- HL_TSPER (R347). -/
abbrev hlTsper : Nat := 0x50091010
/-- HL_BUSYRT (R347). -/
abbrev hlBusyrt : Nat := 0x50091014
/-- HL_BCORIG (R347). -/
abbrev hlBcorig : Nat := 0x50091018
/-- HL_MSGDROP (R347). -/
abbrev hlMsgdrop : Nat := 0x5009101C
/-- HL_STALE (R347). -/
abbrev hlStale : Nat := 0x50091020
/-- HL_IMGBASE (R347). -/
abbrev hlImgbase : Nat := 0x50091024
/-- HL_IMGLEN (R347). -/
abbrev hlImglen : Nat := 0x50091028
/-- HL_ROUTE (R348). -/
abbrev hlRoute (i : Nat) : Nat := 0x50094000 + 0x4 * i
/-- PCIE_CTL (R379). -/
abbrev pcieCtl : Nat := 0x500D0000
/-- PCIE_STAT (R379). -/
abbrev pcieStat : Nat := 0x500D0004
/-- PCIE_CPLTO (R379). -/
abbrev pcieCplto : Nat := 0x500D0008
/-- PCIE_OBBASE_LO (R379). -/
abbrev pcieObbaseLo : Nat := 0x500D0010
/-- PCIE_OBBASE_HI (R379). -/
abbrev pcieObbaseHi : Nat := 0x500D0014
/-- PCIE_WIN (R379). -/
abbrev pcieWin (i : Nat) : Nat := 0x500D0020 + 0x4 * i
/-- PCIE_MSIRT (R379). -/
abbrev pcieMsirt (i : Nat) : Nat := 0x500D0100 + 0x4 * i
/-- ETH_CTL (R379). -/
abbrev ethCtl (n : Nat) : Nat := 0x500E0000 + 0x10000 * n
/-- ETH_STAT (R379). -/
abbrev ethStat (n : Nat) : Nat := 0x500E0004 + 0x10000 * n
/-- ETH_MAC_LO (R379). -/
abbrev ethMacLo (n : Nat) : Nat := 0x500E0008 + 0x10000 * n
/-- ETH_MAC_HI (R379). -/
abbrev ethMacHi (n : Nat) : Nat := 0x500E000C + 0x10000 * n
/-- ETH_TXRING (R379). -/
abbrev ethTxring (n : Nat) : Nat := 0x500E0010 + 0x10000 * n
/-- ETH_RXRING (R379). -/
abbrev ethRxring (n : Nat) : Nat := 0x500E0014 + 0x10000 * n
/-- ETH_TSOFS (R379). -/
abbrev ethTsofs (n : Nat) : Nat := 0x500E0018 + 0x10000 * n
/-- ETH_MDIO (R379). -/
abbrev ethMdio (n : Nat) : Nat := 0x500E001C + 0x10000 * n
/-- ETH_RXERR (R379). -/
abbrev ethRxerr (n : Nat) : Nat := 0x500E0020 + 0x10000 * n
/-- ETH_RXNODESC (R379). -/
abbrev ethRxnodesc (n : Nat) : Nat := 0x500E0024 + 0x10000 * n
/-- LBP_CFG (R382). -/
abbrev lbpCfg (n : Nat) : Nat := 0x50100000 + 0x10000 * n
/-- LBP_STAT (R382). -/
abbrev lbpStat (n : Nat) : Nat := 0x50100004 + 0x10000 * n
/-- LBP_TIM (R382). -/
abbrev lbpTim (n : Nat) : Nat := 0x50100008 + 0x10000 * n
/-- LBP_MAXW (R382). -/
abbrev lbpMaxw (n : Nat) : Nat := 0x5010000C + 0x10000 * n
/-- LBP_HSROLE (R382). -/
abbrev lbpHsrole (n : Nat) : Nat := 0x50100010 + 0x10000 * n
/-- LBP_HSPOL (R382). -/
abbrev lbpHspol (n : Nat) : Nat := 0x50100014 + 0x10000 * n
/-- LBP_HSOUT (R382). -/
abbrev lbpHsout (n : Nat) : Nat := 0x50100018 + 0x10000 * n
/-- LBP_HSIN (R382). -/
abbrev lbpHsin (n : Nat) : Nat := 0x5010001C + 0x10000 * n
/-- LBP_WINBASE (R382). -/
abbrev lbpWinbase (n : Nat) : Nat := 0x50100020 + 0x10000 * n
/-- LBP_SBASE (R382). -/
abbrev lbpSbase (n : Nat) : Nat := 0x50100024 + 0x10000 * n
/-- LBP_SLEN (R382). -/
abbrev lbpSlen (n : Nat) : Nat := 0x50100028 + 0x10000 * n
/-- LBP_SMEM (R382). -/
abbrev lbpSmem (n : Nat) : Nat := 0x5010002C + 0x10000 * n
/-- LBP_RXRING (R382). -/
abbrev lbpRxring (n : Nat) : Nat := 0x50100030 + 0x10000 * n
/-- LBP_GAPT (R382). -/
abbrev lbpGapt (n : Nat) : Nat := 0x50100034 + 0x10000 * n
/-- LBP_RXDROP (R382). -/
abbrev lbpRxdrop (n : Nat) : Nat := 0x50100038 + 0x10000 * n
/-- LBP_ORPHCNT (R382). -/
abbrev lbpOrphcnt (n : Nat) : Nat := 0x5010003C + 0x10000 * n
/-- UART_CTL (R379). -/
abbrev uartCtl (i : Nat) : Nat := 0x50120000 + 0x100 * i
/-- UART_STAT (R379). -/
abbrev uartStat (i : Nat) : Nat := 0x50120004 + 0x100 * i
/-- UART_DIV (R379). -/
abbrev uartDiv (i : Nat) : Nat := 0x50120008 + 0x100 * i
/-- UART_DATA (R379). -/
abbrev uartData (i : Nat) : Nat := 0x5012000C + 0x100 * i
/-- SPI_CTL (R380). -/
abbrev spiCtl (i : Nat) : Nat := 0x50120400 + 0x100 * i
/-- SPI_STAT (R380). -/
abbrev spiStat (i : Nat) : Nat := 0x50120404 + 0x100 * i
/-- QSPI_CFG (R379). -/
abbrev qspiCfg : Nat := 0x50120408
/-- QSPI_STAT (R379). -/
abbrev qspiStat : Nat := 0x5012040C
/-- QSPI_CMD (R379). -/
abbrev qspiCmd : Nat := 0x50120410
/-- SPI_FMT (R380). -/
abbrev spiFmt (i : Nat) : Nat := 0x50120414 + 0x100 * i
/-- SPI_DATA (R380). -/
abbrev spiData (i : Nat) : Nat := 0x50120418 + 0x100 * i
/-- I2C_CTL (R381). -/
abbrev i2cCtl (i : Nat) : Nat := 0x50120800 + 0x100 * i
/-- I2C_STAT (R381). -/
abbrev i2cStat (i : Nat) : Nat := 0x50120804 + 0x100 * i
/-- I2C_ADDR (R379). -/
abbrev i2cAddr (i : Nat) : Nat := 0x50120808 + 0x100 * i
/-- I2C_TO (R379). -/
abbrev i2cTo (i : Nat) : Nat := 0x5012080C + 0x100 * i
/-- I2C_CMD (R381). -/
abbrev i2cCmd (i : Nat) : Nat := 0x50120810 + 0x100 * i
/-- I2C_DATA (R381). -/
abbrev i2cData (i : Nat) : Nat := 0x50120814 + 0x100 * i
/-- GPIO_DIR (R379). -/
abbrev gpioDir (i : Nat) : Nat := 0x50130000 + 0x20 * i
/-- GPIO_OD (R379). -/
abbrev gpioOd (i : Nat) : Nat := 0x50130004 + 0x20 * i
/-- GPIO_OUT (R379). -/
abbrev gpioOut (i : Nat) : Nat := 0x50130008 + 0x20 * i
/-- GPIO_IN (R379). -/
abbrev gpioIn (i : Nat) : Nat := 0x5013000C + 0x20 * i
/-- GPIO_IMODE (R379). -/
abbrev gpioImode (i : Nat) : Nat := 0x50130010 + 0x20 * i
/-- GPIO_IMODE_B (R379). -/
abbrev gpioImodeB (i : Nat) : Nat := 0x50130014 + 0x20 * i
/-- GPIO_IFLG (R379). -/
abbrev gpioIflg (i : Nat) : Nat := 0x50130018 + 0x20 * i
/-- GPIO_IEN (R379). -/
abbrev gpioIen (i : Nat) : Nat := 0x5013001C + 0x20 * i
/-- GPIO_EVOUT_LO (R379). -/
abbrev gpioEvoutLo : Nat := 0x50130100
/-- GPIO_EVOUT_HI (R379). -/
abbrev gpioEvoutHi : Nat := 0x50130104
/-- GPIO_EVIN_LO (R379). -/
abbrev gpioEvinLo : Nat := 0x50130108
/-- GPIO_EVIN_HI (R379). -/
abbrev gpioEvinHi : Nat := 0x5013010C
/-- GPIO_CAPIN (R379). -/
abbrev gpioCapin : Nat := 0x50130110
/-- ENC_BRK (R379). -/
abbrev encBrk : Nat := 0x50130120
/-- ENC_BRKT (R379). -/
abbrev encBrkt : Nat := 0x50130124
/-- GPIO_INJ (R412). -/
abbrev gpioInj : Nat := 0x50130128
/-- PERF_CTL (R427). -/
abbrev perfCtl (i : Nat) : Nat := 0x50140100 + 0x100 * i
/-- PERF_OVF (R427). -/
abbrev perfOvf (i : Nat) : Nat := 0x50140104 + 0x100 * i
/-- PERF_SPC (R427). -/
abbrev perfSpc (i : Nat) : Nat := 0x50140108 + 0x100 * i
/-- PERF_SINFO (R427). -/
abbrev perfSinfo (i : Nat) : Nat := 0x5014010C + 0x100 * i
/-- PERF_SEL (R427). -/
abbrev perfSel (i j : Nat) : Nat := 0x50140110 + 0x100 * i + 0xC * j
/-- PERF_CNT_LO (R427). -/
abbrev perfCntLo (i j : Nat) : Nat := 0x50140114 + 0x100 * i + 0xC * j
/-- PERF_CNT_HI (R427). -/
abbrev perfCntHi (i j : Nat) : Nat := 0x50140118 + 0x100 * i + 0xC * j
/-- TE_CFG (R121). -/
abbrev teCfg (n : Nat) : Nat := 0x51000000 + 0x10000 * n
/-- TE_CTL (R121). -/
abbrev teCtl (n : Nat) : Nat := 0x51000004 + 0x10000 * n
/-- TE_STAT (R121). -/
abbrev teStat (n : Nat) : Nat := 0x51000008 + 0x10000 * n
/-- TE_UNDEF (R121). -/
abbrev teUndef (n : Nat) : Nat := 0x5100000C + 0x10000 * n
/-- TE_UNDEFPC (R121). -/
abbrev teUndefpc (n : Nat) : Nat := 0x51000010 + 0x10000 * n
/-- TE_UNDEFINFO (R121). -/
abbrev teUndefinfo (n : Nat) : Nat := 0x51000014 + 0x10000 * n
/-- TE_XIODEPTH (R121). -/
abbrev teXiodepth (n : Nat) : Nat := 0x51000018 + 0x10000 * n
/-- TE_XIODROP (R121). -/
abbrev teXiodrop (n : Nat) : Nat := 0x5100001C + 0x10000 * n
/-- TE_IFT (R151). -/
abbrev teIft (n : Nat) : Nat := 0x51000020 + 0x10000 * n
/-- TE_CUSTAT (R173). -/
abbrev teCustat (n : Nat) : Nat := 0x51000024 + 0x10000 * n
/-- TE_MEMCTL (R200). -/
abbrev teMemctl (n : Nat) : Nat := 0x51000030 + 0x10000 * n
/-- TE_MFADDR (R200). -/
abbrev teMfaddr (n : Nat) : Nat := 0x51000034 + 0x10000 * n
/-- TE_MFINFO (R200). -/
abbrev teMfinfo (n : Nat) : Nat := 0x51000038 + 0x10000 * n
/-- TE_DFADDR (R200). -/
abbrev teDfaddr (n : Nat) : Nat := 0x5100003C + 0x10000 * n
/-- TE_DFINFO (R200). -/
abbrev teDfinfo (n : Nat) : Nat := 0x51000040 + 0x10000 * n
/-- TE_LSUSTAT (R200). -/
abbrev teLsustat (n : Nat) : Nat := 0x51000044 + 0x10000 * n
/-- TE_INTCTL (R220). -/
abbrev teIntctl (n : Nat) : Nat := 0x51000050 + 0x10000 * n
/-- TE_EXCCTL (R220). -/
abbrev teExcctl (n : Nat) : Nat := 0x51000054 + 0x10000 * n
/-- TE_EXCSTAT (R220). -/
abbrev teExcstat (n : Nat) : Nat := 0x51000058 + 0x10000 * n
/-- TE_NESTPC (R220). -/
abbrev teNestpc (n : Nat) : Nat := 0x5100005C + 0x10000 * n
/-- TE_NESTCAUSE (R220). -/
abbrev teNestcause (n : Nat) : Nat := 0x51000060 + 0x10000 * n
/-- TE_APEND (R220). -/
abbrev teApend (n : Nat) : Nat := 0x51000064 + 0x10000 * n
/-- TE_SHRPTC (R220). -/
abbrev teShrptc (n : Nat) : Nat := 0x51000070 + 0x10000 * n
/-- TE_SHLP (R220). -/
abbrev teShlp (n i : Nat) : Nat := 0x51000074 + 0x10000 * n + 0x4 * i
/-- TE_INTPEND (R220). -/
abbrev teIntpend (n i : Nat) : Nat := 0x51000090 + 0x10000 * n + 0x4 * i
/-- TE_EMUSTAT (R245). -/
abbrev teEmustat (n : Nat) : Nat := 0x51000100 + 0x10000 * n
/-- TE_EMUDEC (R245). -/
abbrev teEmudec (n : Nat) : Nat := 0x51000104 + 0x10000 * n
/-- TE_EMUCFG (R245). -/
abbrev teEmucfg (n : Nat) : Nat := 0x51000108 + 0x10000 * n
/-- TE_EMUFAULT (R245). -/
abbrev teEmufault (n : Nat) : Nat := 0x5100010C + 0x10000 * n
/-- TE_EMUMIR (R245). -/
abbrev teEmumir (n : Nat) : Nat := 0x51000110 + 0x10000 * n
/-- TE_EMUMCNT (R245). -/
abbrev teEmumcnt (n : Nat) : Nat := 0x51000114 + 0x10000 * n
/-- TE_EMUSLIP (R245). -/
abbrev teEmuslip (n : Nat) : Nat := 0x51000118 + 0x10000 * n
/-- TE_EMUACSEL (R245). -/
abbrev teEmuacsel (n : Nat) : Nat := 0x5100011C + 0x10000 * n
/-- TE_LINK (R245). -/
abbrev teLink (n : Nat) : Nat := 0x51000120 + 0x10000 * n
/-- TE_EMUINJ (R246). -/
abbrev teEmuinj (n : Nat) : Nat := 0x51000124 + 0x10000 * n
/-- TE_EMUACMP (R245). -/
abbrev teEmuacmp (n i : Nat) : Nat := 0x51000140 + 0x10000 * n + 0x4 * i
/-- TE_EMUSTK (R245). -/
abbrev teEmustk (n i : Nat) : Nat := 0x51000160 + 0x10000 * n + 0x4 * i
/-- TE_ESH_STATE (R245). -/
abbrev teEshState (n i : Nat) : Nat := 0x51000180 + 0x10000 * n + 0x40 * i
/-- TE_ESH_UPC (R245). -/
abbrev teEshUpc (n i : Nat) : Nat := 0x51000184 + 0x10000 * n + 0x40 * i
/-- TE_ESH_LFLG (R245). -/
abbrev teEshLflg (n i : Nat) : Nat := 0x51000188 + 0x10000 * n + 0x40 * i
/-- TE_ESH_MCNT (R245). -/
abbrev teEshMcnt (n i : Nat) : Nat := 0x5100018C + 0x10000 * n + 0x40 * i
/-- TE_ESH_MIR (R245). -/
abbrev teEshMir (n i : Nat) : Nat := 0x51000190 + 0x10000 * n + 0x40 * i
/-- TE_ESH_LINK (R245). -/
abbrev teEshLink (n i : Nat) : Nat := 0x51000194 + 0x10000 * n + 0x40 * i
/-- TE_ESH_STK (R245). -/
abbrev teEshStk (n i j : Nat) : Nat := 0x510001A0 + 0x10000 * n + 0x40 * i + 0x4 * j
/-- TE_COLLCTL (R300). -/
abbrev teCollctl (n : Nat) : Nat := 0x51000200 + 0x10000 * n
/-- TE_COLLSTAT (R300). -/
abbrev teCollstat (n : Nat) : Nat := 0x51000204 + 0x10000 * n
/-- TE_COLL_ADDR (R300). -/
abbrev teCollAddr (n i : Nat) : Nat := 0x51000210 + 0x10000 * n + 0x8 * i
/-- TE_COLL_CNT (R300). -/
abbrev teCollCnt (n i : Nat) : Nat := 0x51000214 + 0x10000 * n + 0x8 * i
/-- TE_ECCCE (R300). -/
abbrev teEccce (n : Nat) : Nat := 0x51000230 + 0x10000 * n
/-- TE_ECCUE (R300). -/
abbrev teEccue (n : Nat) : Nat := 0x51000234 + 0x10000 * n
/-- TE_ECCADDR (R300). -/
abbrev teEccaddr (n : Nat) : Nat := 0x51000238 + 0x10000 * n
/-- TE_WDCTL (R414). -/
abbrev teWdctl (n : Nat) : Nat := 0x51000300 + 0x10000 * n
/-- TE_WDLOAD (R414). -/
abbrev teWdload (n : Nat) : Nat := 0x51000304 + 0x10000 * n
/-- TE_WDCNT (R414). -/
abbrev teWdcnt (n : Nat) : Nat := 0x51000308 + 0x10000 * n
/-- TE_WDKICK (R414). -/
abbrev teWdkick (n : Nat) : Nat := 0x5100030C + 0x10000 * n
/-- TE_PARINFO (R414). -/
abbrev teParinfo (n : Nat) : Nat := 0x51000310 + 0x10000 * n
/-- TE_INJ (R412). -/
abbrev teInj (n : Nat) : Nat := 0x51000314 + 0x10000 * n
/-- TE_INTRT (R220). -/
abbrev teIntrt (n i : Nat) : Nat := 0x51000800 + 0x10000 * n + 0x4 * i
/-- TE_CONN (R121). -/
abbrev teConn (n i : Nat) : Nat := 0x51001000 + 0x10000 * n + 0x4 * i

end Reg

end Sys2Proof.Machine
end

