-- ==== Sys2Proof/Machine/State.lean ====
section
/-! DEFINITION. The state of the ZT96 as plain data, the reasons a step can stop, and the state after reset. Every register of
the spec's register tables lives in `csr` under its system address; everything else that the rules give a block is a field. -/

namespace Sys2Proof.Machine

/-- The power states of R15; `stopped` stands for the spans in which the device is held by RESET#, by the Barometer or has no
supply (R430, R435, R452). -/
inductive PowerState where
  | run | hold | retain | off | stopped
  deriving DecidableEq, Repr

/-- A waiting power-state request (R20). -/
inductive PowerRequest where
  | hold | retain | off
  deriving DecidableEq, Repr

/-- An event of a source: its phase and its timestamp (R28). -/
structure Ev where
  p : DWord
  t : Stamp
  deriving DecidableEq, Repr

/-- An angle snapshot (R44): Time Base value in fc, phase, velocity, clamp limit, DIR and VALID. -/
structure Snap where
  t     : DWord
  phase : DWord
  vel   : DWord
  limit : DWord
  dir   : Bool
  valid : Bool
  deriving DecidableEq, Repr

/-- An accepted change of an input on its way to the phase (R27): of a quadrature input, a rising T0 edge with the level of T1, a rising
T1 edge, or a mains crossing. -/
inductive BaseEdge where
  | quad (ev : QuadEdge) | t0 (t : Stamp) (t1 : Bool) | t1 | mains (rising : Bool) (t : Stamp)
  deriving DecidableEq, Repr

/-- What an Angle Base holds beside its registers (R24–R51). -/
structure Base where
  /-- The velocity window, newest first (R28). -/
  win    : List Ev
  /-- `p[e]` and `t[e]`. -/
  ref    : Ev
  /-- The timestamp of the last event, or `none` since the enable (R31, R54 AB_EDGE). -/
  last   : Option Stamp
  /-- The interval between the last two events, 0 while there are not two (R30). -/
  ivl    : Stamp
  /-- The Time Base fc of the enable (R31). -/
  since  : DWord
  /-- The velocity in use. -/
  v      : DWord
  /-- Velocities computed and not yet in effect, oldest first, each with the fc in which it takes effect (R27). -/
  vq     : List (DWord × DWord)
  /-- The clamp limit (R29). -/
  limit  : DWord
  /-- The phase held since a silence timeout (R31). -/
  still  : Option DWord
  /-- The turn count of a counting source (R34). -/
  turn   : Word
  /-- The filtered levels of A, B and Z. -/
  a      : Bool
  b      : Bool
  z      : Bool
  /-- The index event of the present Z or T1 period is still to come (R35, R37). -/
  idx    : Bool
  /-- A first index event has been handled (R35). -/
  homed  : Bool
  /-- A phase that the report does not fall behind after a late SSI sample (R41). -/
  floor  : Option DWord
  /-- The last accepted SSI word, as a binary number (R40). -/
  ssi    : Option (BitVec 40)
  /-- An SSI frame is running (R38). -/
  ssiRun : Bool
  /-- Consecutive accepted and rejected mains crossings (R43). -/
  good   : Nat
  bad    : Nat
  /-- The time of the last accepted crossing and of the last accepted or rejected one (R42). -/
  cross  : Option Stamp
  expect : Stamp
  /-- Held snapshots, newest first (R45). -/
  snaps  : List Snap
  /-- The virtual master's accumulator, target velocity and acceleration in force (R47). -/
  acc    : BitVec 96
  vt     : DWord
  va     : Word
  /-- The lockstep checker has reported and is silent until the next enable (R51). -/
  lsOff  : Bool
  /-- Injections that wait (R55). -/
  injRej : Bool
  injIll : Bool
  injLs  : Bool
  /-- The base refused its configuration at its enable (R33, R39). -/
  refused : Bool
  /-- The offset added to every SSI sample, as last loaded (R48). -/
  offs   : DWord
  /-- The Time Base fc of the last broadcast snapshot (R44). -/
  bcAt   : Option DWord
  /-- Accepted input changes, oldest first, each with the fc in which the phase shows it (R27). -/
  edges  : List (DWord × BaseEdge)
  /-- The model fc in which the last SSI frame started since the enable (R38). -/
  frameAt : Option Nat
  /-- The model fc of the last APPLY (R48). -/
  armAt  : Nat
  /-- The model fc of the virtual master's last accumulation, or load in its place, and the velocity before it (R47, R48). -/
  vmAt   : Option Nat
  vmV    : DWord
  deriving DecidableEq, Repr

/-- A base with nothing in it. -/
def Base.zero : Base :=
  { win := [], ref := ⟨0, 0⟩, last := none, ivl := 0, since := 0, v := 0, vq := [], limit := 0, still := none, turn := 0,
    a := false, b := false, z := false, idx := false, homed := false, floor := none, ssi := none, ssiRun := false,
    good := 0, bad := 0, cross := none, expect := 0, snaps := [], acc := 0, vt := 0, va := 0,
    lsOff := false, injRej := false, injIll := false, injLs := false,
    refused := false, offs := 0, bcAt := none, edges := [], frameAt := none, armAt := 0, vmAt := none, vmV := 0 }

/-- A slot in a ring's lookahead (R61): its number and turn, the four words of the entry (R62), whether it breaks the ring order
(R60), whether its read failed (R312), whether it is late once that has been judged (R61), its predicted time, and whether it has
become due (R65). -/
structure Look where
  slot  : Nat
  turn  : Word
  frac  : Word
  ctl   : Word
  lo    : Word
  hi    : Word
  order : Bool
  failed : Bool
  late  : Option Bool
  tp    : Option Stamp
  due   : Bool
  deriving DecidableEq, Repr

/-- What a ring's walker holds beside ALM_RNEXT and ALM_RTURN: the lookahead, the fc of its last action, and the phase up to
which a step passes entries with the slots left of one pass (R73). -/
structure Ring where
  look    : List Look
  actAt   : Option Nat
  stepTo  : Option DWord
  stepN   : Option Nat
  deriving DecidableEq, Repr

/-- A pending edge of a placement unit: its time, the level it gives and its place in commit order (R68). -/
structure PEdge where
  t   : Stamp
  lvl : Bool
  n   : Nat
  deriving DecidableEq, Repr

/-- An event pin: owner and safe level from the image (R12, R418), the level its owner or a safe state gave it last, the
pending edges, how many have been committed, the time of the last edge, its own readback cause (R86), the Retain or Off cause (R418), the injection that
waits or runs (R91), and the model fc from which its comparator compares (R86). -/
structure Pin where
  owner : PinOwner
  safe  : PinLevel
  lvl   : PinLevel
  q     : List PEdge
  commits : Nat
  lastT : Option Stamp
  rbOwn : Bool
  down  : Bool
  injRb : Bool
  invRb : Bool
  cmpAt : Nat
  deriving DecidableEq, Repr

/-- A frame request (R75) with the Deadline Monitor's counts for it (R79), the model fc of its frame start, and whether an
Elastic frame has delayed this Strict one during a warning (R81). -/
structure FReq where
  desc   : Nat
  entry  : Word
  budget : Word
  dloff  : Word
  policy : Word
  arg    : Word
  phase  : DWord
  time   : Stamp
  fire   : Nat
  base   : BaseId
  gust   : Nat
  missed : Bool
  gover  : Bool
  start  : Nat
  late   : Bool
  deriving DecidableEq, Repr

/-- What the Almanac and an engine's XIO hold for frames (R75–R84): requests on their way, waiting, running; descriptors
whose next request is skipped; the injections of R91. -/
structure Frames where
  transit : List FReq
  q       : List FReq
  run     : Option FReq
  skip    : List Nat
  injG    : Bool
  injD    : Bool
  deriving DecidableEq, Repr

/-- A capture write of the Almanac on its way (R64): its matrix request, and the ring, slot and CTL word of its entry. -/
structure CapWrite where
  id   : Nat
  ring : Nat
  slot : Nat
  ctl  : Word
  deriving DecidableEq, Repr

/-- The Almanac: rings, frames, the ring served last, the fc of the last walker read and of the first of the consecutive fc of reads
that it ends, the fc in which another master last took the table port (R61), capture writes on their way, its lockstep state and injection (R87,
R91), and whether its safe cause holds its pins. -/
structure Almanac where
  rings  : Vector Ring 8
  frames : Vector Frames 16
  last   : BaseId
  walkAt : Option Nat
  walkFrom : Nat
  portAt : Option Nat
  caps   : List CapWrite
  lsOff  : Bool
  lsSafe : Bool
  injLs  : Bool
  deriving DecidableEq, Repr

/-- The action codes of WC_LINK (R284). -/
inductive WcAct where
  | start | stop | reset
  deriving DecidableEq, Repr

/-- What a counter's registers held before the register writes of an fc, and whether one of them was a period (R278). -/
structure WcHeld where
  fc   : Nat
  ofs  : Word
  cfg  : Word
  per  : Word
  cmp  : Vector Word 4
  newP : Bool
  deriving DecidableEq, Repr

/-- What a Waveform Counter holds beside its registers (R270–R278): the model fc from which the prescaler counts, period and compares in force, the output
levels of its channels, whether it has been started since the start-up sequence or its last reset and since the start-up
sequence, link target actions on their way to other counters with the model fc of their event, and the model fc of its last TOP, BOT or
wrap event. -/
structure Counter where
  psc     : Nat
  per     : Word
  cmp     : Vector Word 4
  outs    : Vector Bool 4
  fresh   : Bool
  started : Bool
  links   : List (Nat × WcId × WcAct)
  /-- The actions of events and of register writes that take effect at the end of the present fc (R275, R278). -/
  acts    : List WcAct
  actW    : List WcAct
  held    : Option WcHeld
  /-- The model fc of the last ARM (R275). -/
  armAt   : Nat
  evAt    : Option Nat
  /-- The model fc of the last change of the count, and the count before it (R278). -/
  chAt    : Option Nat
  chOld   : Word
  /-- The model fc of its last changes, newest first, each with count and direction before it (R280). -/
  hist    : List (Nat × Word × Bool)
  deriving DecidableEq, Repr

/-- What a capture pair holds beside its registers (R280, R281): the owning counter, the captures as taken, whether each has
been read, and whether a rising capture waits for its falling one. -/
structure Capture where
  owner : Option WcId
  rise  : DWord
  fall  : DWord
  riseUnread : Bool
  fallUnread : Bool
  half  : Bool
  /-- The model fc of the last captures and the captures before them: what a read in that fc returns (R281). -/
  riseAt  : Option Nat
  riseOld : DWord
  fallAt  : Option Nat
  fallOld : DWord
  deriving DecidableEq, Repr

/-- The Time Base's correction state (R265, R267–R269): a step by which the Time Base goes forward as the next fc begins, slew outstanding
in steps, fc since the last slew fc, fc since the last accepted frame, and whether the compare is armed. -/
structure TimeCtl where
  jump    : DWord
  slew    : DWord
  since   : Nat
  quiet   : Nat
  cmpArm  : Bool
  deriving DecidableEq, Repr

/-- An entry of the Error Log on its way (R415): the Time Base of its event, W2 and W3. -/
structure LogEntry where
  t  : DWord
  w2 : Word
  w3 : Word
  deriving DecidableEq, Repr

/-- One operation's result words on their way to a unit's result ports (R106): the model fc of completion, whether it has
completed, the two words, the unread mark of each port, and the TE_CUSTAT flags it sets when it completes (R174). -/
structure Res where
  due  : Nat
  done : Bool
  q    : Word
  q1   : Word
  uq   : Bool
  uq1  : Bool
  flag : Word
  ift  : Bool
  deriving DecidableEq, Repr

/-- The result side of a unit: `last` of each port (R106), the results not yet read or discarded, oldest first, and the model
fc from which the unit accepts a trigger (R153). -/
structure UnitRes where
  last  : Word
  last1 : Word
  ops   : List Res
  free  : Nat
  deriving DecidableEq, Repr

/-- A local load or atomic whose delay runs (R107, R135): when it elapses, the value, whether it met an uncorrectable unit, the address
that a fault records with its SPLIT, HALF1 and HALF2 bits of TE_DFINFO, and whether it is an atomic. -/
structure PendLoad where
  due  : Nat
  val  : Word
  bad  : Bool
  addr : Word
  info : Nat
  atom : Bool
  deriving DecidableEq, Repr

/-- An entry of a store buffer (R186): its place in issue order, whether it is a far store, the system address of its first
byte, and the bytes. -/
structure StoreEnt where
  seq   : Nat
  far   : Bool
  addr  : Nat
  bytes : List Byte
  /-- The model fc of its issue; a local store drains in a later one (R148). -/
  since : Nat
  /-- The frame that it belongs to, by the model fc of the frame's start (R81). -/
  frame : Option Nat
  deriving DecidableEq, Repr

/-- The response codes of the matrix (R311) and the loss of a Hatorlink transaction (R337). -/
inductive Resp where
  | okay | decErr | refuse | eccErr | link
  deriving DecidableEq, Repr

/-- An access that a port of a Tile Store bank served (R290): the model fc, the port, whether it wrote or was an atomic, its
doubleword as a memory key divided by 8, the bytes of that doubleword at the start of the fc, and the keys of bytes it wrote. -/
structure PortUse where
  fc   : Nat
  near : Bool
  wr   : Bool
  atom : Bool
  dw   : Nat
  old  : List Byte
  keys : List Nat
  deriving DecidableEq, Repr

/-- A local load that waits on stores (R187): its LSU, code and operand, and the store entries it waits for. -/
structure LoadWait where
  lsu  : PairId
  code : Nat
  t    : Word
  seqs : List Nat
  deriving DecidableEq, Repr

/-- One half of a far access: the matrix request that carries it and its answer. -/
structure FarHalf where
  id   : Nat
  addr : Word
  resp : Option Resp
  data : List Byte
  deriving DecidableEq, Repr

/-- An operation of a load-store unit (R182), or the memory access of a microword: its unit, whether it is far, what it does, its
size, sign extension, program address and data, and the micro temporary that a microword's far load is for. -/
structure MemOp where
  lsu    : PairId
  far    : Bool
  kind   : ReqKind
  size   : Nat
  signed : Bool
  a      : Word
  data   : Word
  micro  : Option (Fin 16)
  deriving DecidableEq, Repr

/-- A local load or atomic whose group has issued and that has not taken the near port yet, because it comes in the group's second fc
(R130, R132) or waits for a store of that group (R458): the operation, the store entries that must have drained, its result where that is
free (R199), and the model fc before which it does not take the port. -/
structure LateOp where
  op   : MemOp
  seqs : List Nat
  res  : Option Word
  at'  : Nat
  deriving DecidableEq, Repr

/-- A far operation of an LSU whose result or completion is owed (R189, R192): its place in issue order, what it is, its size,
whether the loaded value is sign-extended, its system address and node, its halves as far as they have been issued and their number, the
model fc from which its latency counts, the micro temporary it is for, the frame it belongs to, and its result where that is free
(R199). -/
structure FarOp where
  seq    : Nat
  lsu    : PairId
  kind   : ReqKind
  size   : Nat
  signed : Bool
  addr   : Word
  node   : NodeId
  halves : List FarHalf
  parts  : Nat
  issued : Nat
  micro  : Option (Fin 16)
  frame  : Option Nat
  wild   : Option Word
  deriving DecidableEq, Repr

/-- A request of a far operation that has not left the far port yet (R130, R184, R458): the operation's place in issue order, the
request, the model fc of its issue, and the local store that holds it until it has drained. -/
structure FarSlot where
  seq   : Nat
  spec  : ReqSpec
  at'   : Nat
  store : Option Nat
  deriving DecidableEq, Repr

/-- What is fetched for one part of a line (R123, R459): the matrix request that carries it (none for the near port), the byte
offset in the line, its length, the near-port fc that it still needs (R131), the model fc from which it is available once it has its
bytes or failed, the bytes once there, the exception it raises if it failed, whether it has arrived, and the request that is still to be
issued for it, with the model fc of its issue. -/
structure LinePart where
  id   : Option Nat
  req  : Option (Nat × ReqSpec)
  off  : Nat
  len  : Nat
  left : Nat
  due  : Nat
  data : Option (List Byte)
  exc  : Option (Nat × Word)
  here : Bool
  deriving DecidableEq, Repr

/-- A line of the prefetch queue: its program address and its parts. -/
structure Line where
  addr  : Word
  parts : List LinePart
  deriving DecidableEq, Repr

/-- An element or block of the BMU in hand (R194–R197): its length in bytes, its source and destination program addresses, the bytes
read at the source, what the access to the destination gave, the far requests of its present access as issued and those that are still
to be issued with the model fc of their issue (R184), and the address and TE_DFINFO bits of the fault that it met. -/
structure BmuElem where
  n    : Nat
  src  : Word
  dst  : Word
  data : Option (List Byte)
  res  : Option (List Byte)
  reqs : List FarHalf
  rest : List (Nat × ReqSpec)
  bad  : Option (Nat × Nat)
  deriving DecidableEq, Repr

/-- The running operation of the BMU (R194–R198): code, element size, whether it runs descending, whether its two ranges share a byte,
whether its results are undefined (R199), BANK, the descriptors and the compare mask as they stood at the trigger, the first fc of its
next access, whether a stop has been accepted, the elements in hand, oldest first, the status word once it is decided with the first fc
in which it can be read, and the frame it belongs to. -/
structure BmuOp where
  code : Nat
  size : Nat
  desc : Bool
  meets : Bool
  wild : Bool
  bank : Word
  segs : List Word
  mask : Word
  next : Nat
  stop : Bool
  elems : List BmuElem
  fin  : Option Word
  due  : Nat
  frame : Option Nat
  deriving DecidableEq, Repr

/-- An APU wait in flight (R112): on a phase or on the time, its target, base and the model fc of trigger and bound. -/
structure ApuWait where
  phase  : Bool
  target : Word
  base   : BaseId
  trig   : Nat
  bound  : Nat
  met    : Option (Nat × Word)
  deriving DecidableEq, Repr

/-- An inbound message with the model fc of its arrival (R113). -/
structure InMsg where
  hdr : Word
  lo  : Word
  hi  : Word
  at' : Nat
  deriving DecidableEq, Repr

/-- An outbound entry (R115, R116): a message with its destination, or a CTL word for an Almanac slot; and the fc of its
trigger and the place in store order behind which it stands. -/
structure OutMsg where
  alw  : Bool
  dst  : Word
  lo   : Word
  hi   : Word
  trig : Nat
  seq  : Nat
  deriving DecidableEq, Repr

/-- What holds the next group: a SYNC (R147), the second sync-class write of R146, or a return that waits on stores (R217). -/
inductive Hold where
  | sync | second | eret
  deriving DecidableEq, Repr

/-- An entry that arbitration has chosen: an asynchronous exception or an interrupt input (R212). -/
inductive Chosen where
  | async (n : Nat) | input (i : Nat)
  deriving DecidableEq, Repr

/-- What a frame start saves (R77): issue point, delay groups left with their target, repetition, RPTC and the loop registers
LPS0, LPE0, LPC0, LPS1, LPE1, LPC1, whether it was taken from emulation or call mode (R242), and a SYNC in progress. -/
structure FrameShadow where
  pc    : Word
  tgt   : Word
  dly   : Nat
  rep   : Nat
  owe   : Option Bool
  regs  : List Word
  emu   : Bool
  hold  : Option Hold
  deriving DecidableEq, Repr

/-- A synchronous exception of the group at the issue point, or of a microword or dispatch (R203, R240): the exception and
NUM of ECAUSE, and the first model fc in which it can be taken. -/
structure SyncExc where
  vec : Nat
  num : Nat
  due : Nat
  deriving DecidableEq, Repr

/-- What a microword that can meet a stack fault takes back if it does (R232, R240): the ports, MCNT, MIR, TE_EMUSLIP and TE_EMUSTAT.SLIP,
the units, the in-flight count and the BMU as they stood before its operation, its first place in store order, the messages that it
queued, and the message that it popped. -/
structure MicroUndo where
  ports : List (Nat × Word)
  mcnt  : Word
  mir   : Word
  slips : Word
  slip  : Bool
  units : Vector UnitRes 16
  ift   : Nat
  noBmu : Bool
  seq   : Nat
  outN  : Nat
  inq   : List InMsg
  deriving DecidableEq, Repr

/-- A microword that has begun and whose next address is still to be decided (R230): the microword, its Microstore address, the fc in
which it ends once that is known, whether it is a WAITC (R237), and what a stack fault takes back where the microword can meet one. -/
structure MicroFin where
  w    : Word
  a    : Nat
  at'  : Option Nat
  wait : Bool
  undo : Option MicroUndo
  deriving DecidableEq, Repr

/-- The sequencer of emulation mode beside TE_EMUSTAT, UPC and LFLG (R222–R244): whether a microroutine or dispatch runs and
whether a dispatch comes next, the model fc at which the next microword or dispatch starts, microwords since the last
interruptible point and whether the sequencer stands at one, a loop test owed (R223), a store of this engine written without a
SYNC (R226) and a dispatch that ran so, and the injections of R246. -/
structure Useq where
  run    : Bool
  disp   : Bool
  start  : Nat
  count  : Nat
  intPt  : Bool
  /-- The sequencer has come back from a frame or a handler and not begun again: a frame that waits starts at once (R76, R252). -/
  back   : Bool
  lpend  : Bool
  dirty  : Bool
  /-- What bytes of the stores held before writes that no SYNC has followed: the sequencer does not use those writes (R226). -/
  old    : List (Nat × Byte)
  wild   : Bool
  fin    : Option MicroFin
  /-- The model fc from which the dispatch that runs, or ran last, slips (R230). -/
  slipAt : Nat
  injM   : Bool
  injI   : Bool
  deriving DecidableEq, Repr

/-- A Transport Engine beside its CSR block. `ports` holds V0–V63, the special registers, operand ports and unit registers under
their socket numbers (R99, R109, R110), and further words under the keys of Machine/Ops.lean. -/
structure Engine where
  /-- The engine is mapped, clocked and released (R14, R396). -/
  clocked : Bool
  ports   : List (Nat × Word)
  /-- The connectivity masks as loaded: destination mask above source mask, by socket (R101). -/
  conn    : List (Nat × Half)
  units   : Vector UnitRes 16
  /-- The issue point (R123). -/
  pc      : Word
  /-- A pending branch: its target and the delay groups still to issue (R139); 0: none. -/
  tgt     : Word
  dly     : Nat
  /-- 0: none; 1: the next group is to be repeated; 2: the group at the issue point is being repeated (R141). -/
  rep     : Nat
  /-- The loop test decision that a return brought (R208). -/
  owe     : Option Bool
  /-- The pending control write (R146): socket and value. -/
  pend    : Option (Nat × Word)
  hold    : Option Hold
  /-- The fc from which a group may issue (R128, R130, R132, R147). -/
  free    : Nat
  /-- The address of the group being issued or last issued (R143), and of the word after it. -/
  grp     : Word
  nxt     : Word
  lines   : List Line
  /-- The loop line buffers of R145. -/
  lbuf    : Vector (Option Line) 2
  /-- Words among the next eight that were written after their fetch could have begun (R127), by program address. -/
  stale   : List Word
  lq      : Vector (List PendLoad) 2
  sbuf    : Vector (List StoreEnt) 2
  /-- Port accesses of its Tile Store in the present fc (R290). -/
  uses    : List PortUse
  lwait   : List LoadWait
  seq     : Nat
  far     : List FarOp
  /-- Far requests that have not left the far port yet, in trigger order (R130, R184, R458). -/
  farq    : List FarSlot
  /-- The local load or atomic of the group issued last that has not taken the near port yet (R130, R132, R458). -/
  late    : Option LateOp
  /-- Triggers of xio.t:pop (false) and bmu.t:stop (true) that start in a later fc of their group, with that model fc (R130). -/
  trigB   : List (Nat × Bool)
  fq      : Vector (List Word) 2
  bmu     : Option BmuOp
  apu     : Option ApuWait
  /-- APU reads in flight that are still to be evaluated: the fc of the evaluation, the code and the base (R25, R111). -/
  apuR    : List (Nat × Nat × BaseId)
  inq     : List InMsg
  outq    : List OutMsg
  /-- The fc in which the last outbound entry left (R115). -/
  outAt   : Option Nat
  shadow  : Option FrameShadow
  sync    : Option SyncExc
  /-- TRAP to be taken after its group or microword, with the first model fc in which it can be (R209, R236). -/
  trap    : Option (Nat × Nat)
  /-- Waiting asynchronous exceptions with the fc from which a boundary takes them (R192, R213). -/
  apend   : List (Nat × Nat)
  /-- Asserted inputs with the fc of assertion, and the entry chosen at arbitration (R211, R212). -/
  inputs  : List (Nat × Nat)
  chosen  : Option Chosen
  /-- A vector word read in advance, with the model fc in which it has arrived (R219). -/
  ahead   : Option (Nat × Word × Nat)
  /-- The vector of an entry whose word is still to be read, and the model fc of that read (R213). -/
  vecRd   : Option (Nat × Nat)
  mcall   : Option Nat
  useq    : Useq
  /-- The present context is a frame's, when no handler runs (R76). -/
  inFrame : Bool
  /-- Injections of TE_INJ that wait (R412): SPAR, and BPAR with its bus; and the first model fc in which the watchdog is to expire,
  because its count has reached 0 or an injection asks for it (R412, R413). -/
  injSpar : Bool
  injBpar : Option (Fin 8)
  wdgDue  : Option Nat
  /-- Intrusions in progress that are charged to the running frame (R81): a far transaction past its latency, a handler above
  THR, a Curator stall, an Elastic frame in the way. -/
  charge  : Bool
  chargeI : Bool
  /-- The performance counters (R420–R426), which of them have wrapped without PERF_OVERFLOW yet, their values at the start of the fc,
  values written in it, and the high halves that writes of PERF_CNTk_HI hold. -/
  perf    : Vector (BitVec 48) 8
  wrapped : BitVec 8
  perf0   : Vector (BitVec 48) 8
  perfW   : List (Fin 8 × BitVec 48)
  perfHi  : Vector Half 8
  /-- The model fc of the last issue, with the context and the descriptor to which that fc belongs (R422). -/
  perfAt  : Option (Nat × Nat × Nat)
  /-- The trigger moves that start in the second fc of a split pair, with that model fc (R423). -/
  trigN   : Option (Nat × Nat)
  /-- The stall event of a nanoword that waits, with the model fc (R421). -/
  wev     : Option (Nat × Nat)
  /-- The model fc of the last issue or nanoword (R420), and the last fc that its group takes (R130, R132). -/
  issued  : Option Nat
  last    : Nat
  /-- The next group is the first of a handler or of reset entry (R216). -/
  first   : Bool
  /-- A vector word on its way through the far port: request, vector, and whether an entry waits for it (R213, R219). -/
  vreq    : Option (Nat × Nat × Bool)
  /-- The model fc from which the next line may be requested (R140, R147, R213, R217). -/
  fetchAt : Nat
  /-- The model fc, from the present one on, in which the near port serves an access (R131). -/
  nearAt  : List Nat
  /-- The line of a pending branch target has been requested (R140). -/
  tfetch  : Bool
  /-- A SYNC was held where the running handler was entered: the return performs it (R207). -/
  syncOwed : Bool
  /-- The pending delay groups are those that a return restored (R217). -/
  retDly  : Bool
  /-- The last return made by ctl.t:ret, as recorded for the debug access: its group and its target (R138). -/
  ret     : Option (Word × Word)
  /-- The flags of TE_CUSTAT that a completion has set, with the model fc (R174). -/
  custAt  : Option (Nat × Word)
  deriving DecidableEq, Repr

/-- A unit with zero results (R109). -/
def UnitRes.zero : UnitRes := { last := 0, last1 := 0, ops := [], free := 0 }

/-- A sequencer that stands still. -/
def Useq.zero : Useq :=
  { run := false, disp := false, start := 0, count := 0, intPt := false, back := false, lpend := false, dirty := false, old := [],
    wild := false, fin := none, slipAt := 0, injM := false, injI := false }

/-- An engine with everything zero and no clock (R109, R14). -/
def Engine.zero : Engine :=
  { clocked := false, ports := [], conn := [], units := Vector.replicate 16 UnitRes.zero, pc := 0, tgt := 0, dly := 0, rep := 0,
    owe := none, pend := none, hold := none, free := 0, grp := 0, nxt := 0, lines := [], lbuf := Vector.replicate 2 none,
    stale := [], lq := Vector.replicate 2 [], sbuf := Vector.replicate 2 [], uses := [], lwait := [], seq := 0, far := [],
    farq := [], late := none, trigB := [], fq := Vector.replicate 2 [], bmu := none, apu := none, apuR := [], inq := [], outq := [], outAt := none, shadow := none, sync := none,
    trap := none, apend := [], inputs := [], chosen := none, ahead := none, vecRd := none, mcall := none, useq := Useq.zero,
    inFrame := false, injSpar := false, injBpar := none, wdgDue := none,
    charge := false, chargeI := false, perf := Vector.replicate 8 0, wrapped := 0, perf0 := Vector.replicate 8 0, perfW := [], perfHi := Vector.replicate 8 0, perfAt := none, trigN := none, wev := none, issued := none, last := 0, first := false,
    vreq := none, fetchAt := 0, nearAt := [], tfetch := false, syncOwed := false, retDly := false, ret := none, custAt := none }

/-- Where a matrix request stands (R305–R308): held at its master as ordered, waiting for its target, accepted, carried out, or
answered. `queued` waits in an engine's far port beyond its 32 outstanding (R137); `passed` waits for the far side of a bridge; `dropped`
has met a reset of its master and gives back its place at the master, and at its target where it holds one, with the next fc (R313). -/
inductive ReqStage where
  | queued | held | waiting | accepted | passed | done
  | dropped (place : Bool)
  deriving DecidableEq, Repr

/-- A matrix request (R304) with its answer once there is one; `remap` is SYS_CTL.REMAP as its decode found it (R288), and `orig` the
address in the remote window of a request that its routing has given back to this part (R336). -/
structure Req where
  id      : Nat
  m       : Nat
  addr    : Word
  kind    : ReqKind
  len     : Nat
  data    : List Byte
  ordered : Bool
  node    : NodeId
  orig    : Option Word
  tgt     : Option Nat
  remap   : Bool
  stage   : ReqStage
  beats   : Nat
  accSeq  : Nat
  resp    : Resp
  rdata   : List Byte
  issued  : Nat
  deriving DecidableEq, Repr

/-- The bus matrix beside its registers: requests in order of issue, the next request's number, the master each target chose
last with the model fc of that choice (R306), the model fc of its last beat (R303), the Main Store banks that are busy with the first
model fc in which they are free (R293), and the injections that wait (R315). -/
structure Matrix where
  reqs : List Req
  next : Nat
  last : Vector Nat 30
  accAt : Vector (Option Nat) 30
  beatAt : Vector (Option Nat) 30
  busy : List (Nat × Nat)
  inj  : List (Nat × Resp)
  deriving DecidableEq, Repr

/-- The ECC state of the stores (R296, R297): units that read as uncorrectable, corrected units not yet written back with the model fc of
the correction, and the stores, by the UNIT number of R416, whose injections wait (R412). -/
structure Ecc where
  bad    : List Nat
  wb     : List (Nat × Nat)
  injCe  : List Nat
  injUe  : List Nat
  deriving DecidableEq, Repr

/-- A borrow in progress (R404–R406): the Vitrine's index, the model fc of its start, what its march test finds, and the model fc
at which an access has made the Curator begin the restore early. -/
structure Borrow where
  idx   : Nat
  start : Nat
  found : MarchResult
  cut   : Option Nat
  deriving DecidableEq, Repr

/-- The Curator beside its registers (R403–R409): the Vitrine after the last one visited, the borrow in progress, the model fc
at which the last one ended, the address after the row scrubbed last with the model fc of that read, and the injection that waits
(R412). -/
structure Curator where
  pos    : Nat
  borrow : Option Borrow
  endAt  : Nat
  scrub  : Nat
  scrubAt : Nat
  injM   : Bool
  deriving DecidableEq, Repr
/-- A frame that waits at a Hatorlink port (R326): the time at which its SOF would leave on an idle port, whether it is a TSYNC
frame that originates here and takes its timestamp as it leaves (R332), and the port in whose receive buffer it stands, for a relayed frame
(R328). -/
structure HlItem where
  f    : HlFrame
  due  : Stamp
  orig : Bool
  inp  : Option PortId
  deriving DecidableEq, Repr

/-- A sequenced frame in a replay buffer (R327): how often it has been sent, when last, and whether it is to be sent again. -/
structure HlSent where
  f     : HlFrame
  tries : Nat
  since : Nat
  again : Bool
  deriving DecidableEq, Repr

/-- A Hatorlink port beside its registers (R317–R345): frames that wait, the replay buffer, the next sequence numbers sent and
expected, the partner's free buffers, the fc from which the line is free, when a failed training starts again, the last link
control set (ACK or NAK with its LSEQ and CRED) and frame sent, whether that frame ended with EOB (R327), the window whose violations
HL_VIOL counts (R341), and the injections that wait. -/
structure HlPort where
  txq     : List HlItem
  sent    : List HlSent
  txSeq   : Byte
  rxSeq   : Byte
  cred    : Nat
  busy    : Nat
  retryAt : Option Nat
  lcs     : Option (Bool × Byte × Byte)
  out     : Option HlFrame
  eob     : Bool
  win     : Nat
  injAck  : Bool
  injNode : Bool
  injUnk  : Bool
  injSeq  : Bool
  injCrc  : Bool
  deriving DecidableEq, Repr

/-- A message on its way to a node (R335): its tag, the engine that sent it (none for an Almanac post), node and payload, how often
it has been sent, when last while its answer is out, and the fc from which it may be sent again after a BUSY. -/
structure HlMsg where
  tag   : Byte
  src   : Option EngId
  node  : NodeId
  lo    : Word
  hi    : Word
  tries : Nat
  sent  : Option Nat
  wait  : Nat
  deriving DecidableEq, Repr

/-- A remote transaction of this part (R336): its tag, the matrix request that it carries, node, port and the fc it left. -/
structure HlTxn where
  tag  : Byte
  id   : Nat
  node : NodeId
  port : PortId
  since : Nat
  deriving DecidableEq, Repr

/-- A request of another node in hand (R336, R339): the matrix requests that serve it, each with its answer once there is one, and what
its response repeats. -/
structure HlIn where
  parts : List (Nat × Option (Resp × List Byte))
  port : PortId
  src  : NodeId
  tag  : Byte
  typ  : Nibble
  x    : Word
  w3   : Word
  size : Nat
  deriving DecidableEq, Repr

/-- The Hatorlink beside its registers: ports, messages, transactions of this part and of others, the fc of the last TSYNC frame
originated, those used, by node and origin timestamp, the snapshots used, by node, base and time (R331), local snapshots on their way to
received bases (R45), and messages to this part itself with the fc of their delivery (R335). -/
structure Hl where
  ports  : Vector HlPort 4
  msgs   : List HlMsg
  txns   : List HlTxn
  inb    : List HlIn
  tsAt   : Nat
  tsSeen : List (NodeId × Stamp)
  anSeen : List (NodeId × Nat × DWord)
  loop   : List (Nat × BaseId × Snap)
  own    : List (Nat × Byte)
  deriving DecidableEq, Repr

/-- An inbound host request in hand (R353): whether it writes, and its parts: matrix request, then response and bytes. -/
structure PcieIn where
  write : Bool
  parts : List (Nat × Option (Resp × List Byte))
  deriving DecidableEq, Repr

/-- The PCIe endpoint beside its registers (R351–R356): inbound requests, outbound reads that wait for the host with the fc they
left, configuration space by byte offset, MSI vectors pending, the level of each vector's source as last seen, and the last MSI
vector and inbound completion (status of R353 and bytes) sent. -/
structure Pcie where
  inb  : List PcieIn
  out  : List (Nat × Nat)
  tlp  : Option (Bool × DWord × Nat × List Byte)
  cfg  : List (Nat × Word)
  pend : Word
  seen : Word
  msi  : Option Nat
  cpl  : Option (CplStatus × List Byte)
  deriving DecidableEq, Repr

/-- How far a MAC has come with a descriptor (R358): its read, the reads or writes of its buffer, a frame that is read and waits to be
sent, and its write-back. -/
inductive EthStep where
  | desc | data | ready | back
  deriving DecidableEq, Repr

/-- A descriptor that a MAC has in hand (R358): its step, address and word +0x4, the matrix requests of the step with their answers, and
the frame's bytes, timestamp and length. -/
structure EthJob where
  step  : EthStep
  at'   : Nat
  w1    : Word
  parts : List (Nat × Option (Resp × List Byte))
  bytes : List Byte
  ts    : Stamp
  deriving DecidableEq, Repr

/-- An Ethernet MAC beside its registers (R358): the ring positions in bytes from the ring bases, the transmit and the receive
descriptor in hand, received frames that wait for a descriptor, the fc until which a PAUSE frame stops transmission (R357), that the
in-band status last reported the link down (R360) with the speed that it last reported (R357), the last frame sent with its FCS, and the
MDIO access in progress: the fc in which it ends and the word that ETH_MDIO then holds (R379). -/
structure Eth where
  tx  : Nat
  rx  : Nat
  txJob : Option EthJob
  rxJob : Option EthJob
  rxq : List EthFrame
  pause : Nat
  down : Bool
  speed : Option (BitVec 2)
  out : List Byte
  mdio : Option (Nat × Word)
  deriving DecidableEq, Repr

/-- An open burst descriptor (R365–R367): its address, buffer, capacity, WRAP, beats so far, ORPHAN, the first beat's timestamp and
the fc of the last beat. -/
structure LbpBurst where
  desc   : Nat
  buf    : Word
  cap    : Nat
  wrap   : Bool
  count  : Nat
  orphan : Bool
  ts     : Stamp
  since  : Nat
  deriving DecidableEq, Repr

/-- A cycle in progress (R362, R364): its window offset or slave address, its direction, the word read, the fc of its start, of the
strobe's assertion and of its release, none while READY has not been seen, the hold after the release, the matrix request that asked for it or
serves it, and whether that has been answered. -/
structure LbpCycle where
  off   : Nat
  write : Bool
  data  : Word
  start : Nat
  stb   : Nat
  rel   : Option Nat
  hold  : Nat
  req   : Option Nat
  done  : Bool
  deriving DecidableEq, Repr

/-- An event of a burst at a port (R365, R366, R368, R382): a beat with its word and its timestamp, an END, a START, the gap timer, or the
port's stop. -/
inductive LbpEvent where
  | beat (data : Word) (ts : Stamp) | done | start | gap | stop
  deriving DecidableEq, Repr

/-- A Legacy Bus Port beside its registers (R361–R368): the burst, the matrix request that reads the next descriptor with whether it
opens as an orphan, events with the fc in which they reached the port that have not taken their turn, the address of the next descriptor, whether a burst goes on after a full descriptor, the cycle in progress, what the port drives on A and D, whether it asserts READY, descriptor
write-backs under way, the fc in which its last cycle ended (R362), and the levels of the strobe/handshake lines in the two fc before the
present one (R234). -/
structure Lbp where
  burst : Option LbpBurst
  opens : Option (Nat × Bool)
  evq   : List (Nat × LbpEvent)
  pos   : Nat
  cont  : Bool
  cyc   : Option LbpCycle
  a     : Option LbpAddr
  d     : Option Word
  ready : Bool
  backs : List Nat
  idle  : Option Nat
  hs1   : Byte
  hs2   : Byte
  deriving DecidableEq, Repr

/-- A UART beside its registers (R371): received bytes with their marks in bits [10:8], bytes to send, whether the head is being
shifted, the CTS input, and the last byte sent. -/
structure Uart where
  rx    : List Half
  tx    : List Byte
  shift : Bool
  cts   : Bool
  out   : Option Byte
  deriving DecidableEq, Repr

/-- An SPI port beside its registers (R380): its FIFOs, the word that is shifted out, its chip select, writes of SPI_CTL and SPI_FMT
that wait for the end of that word, and the last word sent. -/
structure Spi where
  rx  : List Word
  tx  : List Word
  sh  : Option Word
  cs  : Bool
  ctl : Option Word
  fmt : Option Word
  out : Option Word
  deriving DecidableEq, Repr

/-- A controller write that waits for bytes (R381): bytes left, how many the target acknowledges, and whether STOP follows. -/
structure I2cRun where
  left : Nat
  acks : Nat
  stop : Bool
  deriving DecidableEq, Repr

/-- An I²C port beside its registers (R381): its FIFOs, the command that runs, whether it holds the bus, the last byte sent, the last
address sent with its RD bit, and the fc until which a controller addresses it as target. -/
structure I2c where
  rx   : List Byte
  tx   : List Byte
  run  : Option I2cRun
  held : Bool
  out  : Option Byte
  addr : Option (BitVec 7 × Bool)
  tgt  : Nat
  deriving DecidableEq, Repr

/-- What a DMA channel's outstanding request does (R375). -/
inductive DmaStep where
  | read | write | chain
  deriving DecidableEq, Repr

/-- A DMA channel beside its registers (R375): its outstanding request with what it does and its length, and bytes that have been read and
are not yet asked to be written (R377). -/
structure Dma where
  op   : Option (Nat × DmaStep × Nat)
  buf  : List Byte
  deriving DecidableEq, Repr

/-- An access of the monitor on its way (R401): the matrix requests that carry it with their answers, and whether it writes. -/
structure MonJob where
  parts : List (Nat × Option (Resp × List Byte))
  write : Bool
  deriving DecidableEq, Repr

/-- An image that comes from a Hatorlink neighbour (R390): the port, its length once the header has given it, the offset up to which it
has been asked for, the requests that are out as offset and length with their bytes once answered, the bytes as far as they are there in
order, the content of the sections that have no layout, and the model fc of the last answer. -/
structure HlImage where
  port : PortId
  len  : Option Nat
  pos  : Nat
  out  : List (Nat × Nat × Option (List Byte))
  got  : List Byte
  body : Option ImgBody
  since : Nat
  deriving DecidableEq, Repr

/-- A slot that has been verified, on its way to the release (R398): the image in the holding registers of R393, its source and slot, the
TE_MEMCTL.SEGCHK that its records leave TE0, and the model fc in which the step in progress ends. -/
structure Verified where
  img  : Image
  src  : Nat
  slot : Nat
  chk  : Bool
  till : Nat
  deriving DecidableEq, Repr

/-- A line of the monitor that waits for the command that carries what it acts on (R401). -/
inductive MonWait where
  | check | program (slotB : Bool) | boot
  deriving DecidableEq, Repr

/-- The start-up sequence (R390–R401): the straps as sampled, the source that is waited for (1 PCIe host, 2 Hatorlink neighbour) with
the model fc from which it is, the model fc at which the confirmation window ends, the length of the image that the monitor has
received, the origin of a sequence that RESET# or TESTEN holds back, RESET# held low, and a start that has not been confirmed. -/
structure Boot where
  straps : BitVec 2
  wait   : Option (Nat × Nat)
  window : Option Nat
  recv   : Option Nat
  due    : Option Nat
  low    : Bool
  unconf : Bool
  /-- The Boot ROM runs in PHASE 0x1 and has not looked at its sources yet (R398). -/
  seek   : Bool
  /-- SYS_BOOTMBX3.GO has been written while the host was waited for (R390). -/
  go     : Bool
  /-- The verified image, from PHASE 0x3 up to the release. -/
  hold   : Option Verified
  /-- The model fc from which RESET# has been low, while the filter of R452 has not passed it on. -/
  fall   : Option Nat
  /-- The sequence that begins 10 µs after RESET# rose (R452): the model fc, its origin, and what its sources hold. -/
  later  : Option (Nat × Nat × BootOffer)
  /-- The image that a Hatorlink neighbour is sending (R390). -/
  fetch  : Option HlImage
  /-- The monitor's access in progress, the line that it is receiving through UART0, the raw bytes of L still to come, its answer text
  that waits for UART0, and a whole line that waits for its command (R401). -/
  mon    : Option MonJob
  inp    : List Byte
  raw    : Option Nat
  out    : List Byte
  line   : Option MonWait
  deriving DecidableEq, Repr

/-- No start and nothing that waits. -/
def Boot.zero : Boot :=
  { straps := 0, wait := none, window := none, recv := none, due := none, low := false, unconf := false, seek := false, go := false,
    hold := none, fall := none, later := none, fetch := none, mon := none, inp := [], raw := none, out := [], line := none }

/-- Supply, temperature and reference (R433–R440): the fc of the warning sample and of the first sample of a recovery run,
consecutive readings at or above the stop level, a thermal stop in force, the fc at which XIN was lost, and the cause of a wake
that came during an entry (R18). -/
structure Supply where
  warnAt  : Nat
  run     : Option Nat
  hot     : Nat
  stopped : Bool
  xinAt   : Option Nat
  wakeDue : Option Nat
  deriving DecidableEq, Repr

/-- The test access port (R454): its instruction, none after Test-Logic-Reset, and the boundary-scan cells. -/
structure Tap where
  ir  : Option Byte
  bsr : Cells
  deriving DecidableEq, Repr


/-- Reasons for a fault. No rule of the spec stops the block, so no meaning raises one. -/
inductive Fault where
  /-- Raised by no command; it stands for an access that no rule describes. Safe: nothing reaches it. -/
  | undescribed
  deriving DecidableEq, Repr

/-- Reasons for a refusal. -/
inductive Refusal where
  /-- Raised only by an arm of `exec` whose command has no meaning yet. Safe: a gap of the model, never a claim. -/
  | notModelled (mnemonic : String)
  deriving DecidableEq, Repr

/-- What a byte of memory that nothing has written since its last clear reads as: zero (R299), but 0xFF in the Catalogues that an image
has filled (R224), which `cat` names by engine. -/
def memDefault (cat : Half) (a : Nat) : Byte :=
  if 0x5100_0000 ≤ a ∧ a < 0x5110_0000 ∧ 0x6000 ≤ a % 0x1_0000 ∧ a % 0x1_0000 < 0x8000 ∧ cat.getLsbD (a / 0x1_0000 % 16) then 0xFF else 0

/-- The state of the ZT96. -/
structure State where
  /-- Fabric cycles the model has counted. -/
  now     : Nat
  /-- The Time Base in 125 ps steps (R265). -/
  tb      : BitVec 67
  /-- The stores, by system address; a Tile Store byte stands under the lower of its two window addresses (R183). -/
  mem     : List (Nat × Byte)
  /-- The engines whose Catalogue words that the image does not give hold 0xFFFF (R224). -/
  cat     : Half
  /-- The registers, by system address. -/
  csr     : List (Nat × Word)
  ecc     : Ecc
  power   : PowerState
  /-- The model fc in which Hold was entered last (R377). -/
  holdAt  : Nat
  request : Option PowerRequest
  bases   : Vector Base 8
  alm     : Almanac
  pins    : Vector Pin 64
  wcs     : Vector Counter 32
  caps    : Vector Capture 32
  time    : TimeCtl
  engines : Vector Engine 16
  mtx     : Matrix
  logq    : List LogEntry
  /-- The Error Log entries raised in the present fc, in the order in which they will enter the buffer (R415). -/
  logn    : List LogEntry
  /-- The model fc in which the Error Log last took an entry of its input buffer (R415). -/
  logAt   : Option Nat
  cur     : Curator
  hl      : Hl
  pcie    : Pcie
  eth     : Vector Eth 2
  lbp     : Vector Lbp 2
  uart    : Vector Uart 4
  spi     : Vector Spi 3
  i2c     : Vector I2c 2
  /-- The model fc until which a line break lasts, by receiver (R369, R412). -/
  brk     : Vector Nat 24
  dma     : Vector Dma 8
  boot    : Boot
  supply  : Supply
  tap     : Tap
  /-- The structural voltages of the I/O banks: bit `n` is 1 where IOBn is at 5 V (R350). -/
  volts   : Byte
  /-- The software sources set in the model fc beside them (R221). -/
  swiAt   : Option (Nat × Word)
  /-- Flash bytes that this model has programmed or erased, by offset (R372). -/
  flash   : List (Nat × Option Byte)
  /-- The model fc until which the flash runs a command of QSPI_CMD (R372). -/
  qspi    : Nat
  /-- SYS_ID.ENGMASK: which physical engines are present (R3). -/
  engmask : Half
  /-- The logical to physical engine map (R396), by logical engine. -/
  map     : Vector (Option EngId) 16
  /-- The reset-entry values of the addressing section, by logical engine (R22). -/
  image   : Option Image
  /-- Release has come since the last origin of R384 (R398). -/
  released : Bool
  /-- What the last read of a register or memory word answered. -/
  rdata   : List Word
  /-- How many free values have been drawn. -/
  free    : Nat
  /-- The commands that wait, first in, first out. -/
  pending : List Instr
  deriving DecidableEq, Repr

/-- A ring that has not walked. -/
def Ring.zero : Ring := { look := [], actAt := none, stepTo := none, stepN := none }
/-- A pin in its reset state (R450). -/
def Pin.zero : Pin :=
  { owner := .none, safe := .z, lvl := .z, q := [], commits := 0, lastT := none, rbOwn := false, down := false, injRb := false,
    invRb := false, cmpAt := 0 }
/-- No frames. -/
def Frames.zero : Frames := { transit := [], q := [], run := none, skip := [], injG := false, injD := false }
/-- A stopped counter (R282). -/
def Counter.zero : Counter :=
  { psc := 0, per := 0, cmp := Vector.replicate 4 0, outs := Vector.replicate 4 false, fresh := true, started := false,
    links := [], acts := [], actW := [], held := none, armAt := 0, evAt := none, chAt := none, chOld := 0, hist := [] }
/-- A capture pair without an owner. -/
def Capture.zero : Capture :=
  { owner := none, rise := 0, fall := 0, riseUnread := false, fallUnread := false, half := false,
    riseAt := none, riseOld := 0, fallAt := none, fallOld := 0 }

/-- A port that is down, with an empty replay buffer and LSEQ 0 (R343). -/
def HlPort.zero : HlPort :=
  { txq := [], sent := [], txSeq := 0, rxSeq := 0, cred := 16, busy := 0, retryAt := none, lcs := none, out := none, eob := false, win := 0,
    injAck := false, injNode := false, injUnk := false, injSeq := false, injCrc := false }
/-- No traffic. -/
def Hl.zero : Hl :=
  { ports := Vector.replicate 4 HlPort.zero, msgs := [], txns := [], inb := [], tsAt := 0, tsSeen := [], anSeen := [], loop := [], own := [] }
/-- An endpoint without a link. -/
def Pcie.zero : Pcie := { inb := [], out := [], tlp := none, cfg := [], pend := 0, seen := 0, msi := none, cpl := none }
/-- A port that is off. -/
def Lbp.zero : Lbp := { burst := none, opens := none, evq := [], pos := 0, cont := false, cyc := none, a := none, d := none, ready := false, backs := [], idle := none, hs1 := 0, hs2 := 0 }
/-- The machine right after reset: every register at its reset value, no structure applied, nothing in any queue. -/
def State.reset : State :=
  { now := 0, tb := 0, mem := [], cat := 0, csr := [], ecc := ⟨[], [], [], []⟩, power := .run, holdAt := 0, request := none,
    bases := Vector.replicate 8 Base.zero,
    alm := { rings := Vector.replicate 8 Ring.zero, frames := Vector.replicate 16 Frames.zero, last := 7, walkAt := none, walkFrom := 0, portAt := none, caps := [], lsOff := false,
             lsSafe := false, injLs := false },
    pins := Vector.replicate 64 Pin.zero, wcs := Vector.replicate 32 Counter.zero,
    caps := Vector.replicate 32 Capture.zero, time := ⟨0, 0, 0, 0, false⟩, engines := Vector.replicate 16 Engine.zero,
    mtx := ⟨[], 0, Vector.replicate 30 0, Vector.replicate 30 none, Vector.replicate 30 none, [], []⟩, logq := [], logn := [], logAt := none,
    cur := ⟨0, none, 0, 0, 0, false⟩,
    hl := Hl.zero, pcie := Pcie.zero, eth := Vector.replicate 2 ⟨0, 0, none, none, [], 0, false, none, [], none⟩,
    lbp := Vector.replicate 2 Lbp.zero, uart := Vector.replicate 4 ⟨[], [], false, true, none⟩,
    spi := Vector.replicate 3 ⟨[], [], none, false, none, none, none⟩, i2c := Vector.replicate 2 ⟨[], [], none, false, none, none, 0⟩,
    brk := Vector.replicate 24 0, dma := Vector.replicate 8 ⟨none, []⟩, boot := Boot.zero,
    supply := ⟨0, none, 0, false, none, none⟩, tap := ⟨none, 0⟩, volts := 0, swiAt := none, flash := [], qspi := 0,
    engmask := 0xFFFF, map := Vector.replicate 16 none,
    image := none, released := false, rdata := [], free := 0, pending := [] }

end Sys2Proof.Machine
end

