-- ==== Sys2Proof/Machine/Ops.lean ====
section
/-! DEFINITION. The named operations over registers, memory, engines and logs that every meaning is written with. -/

namespace Sys2Proof.Machine

/-! Fields of a word -/

/-- Bit `i` of a word. -/
def bitOf (w : Word) (i : Nat) : Bool := w.getLsbD i

/-- The field of `n` bits that starts at bit `lo`. -/
def fldOf (w : Word) (lo n : Nat) : Nat := w.toNat / 2 ^ lo % 2 ^ n

/-- The word with the field of `n` bits at `lo` replaced by `v`. -/
def putFld (w : Word) (lo n v : Nat) : Word :=
  (w &&& ~~~(BitVec.ofNat 32 ((2 ^ n - 1) * 2 ^ lo))) ||| BitVec.ofNat 32 (v % 2 ^ n * 2 ^ lo)

/-- A word with one bit set. -/
def bitW (i : Nat) : Word := BitVec.ofNat 32 (2 ^ i)

/-- 1 or 0. -/
def boolW (b : Bool) : Word := if b then 1 else 0

/-- A boolean as a number, for packing fields. -/
def b2n (b : Bool) : Nat := if b then 1 else 0

/-- The low and the high word of a doubleword. -/
def loW (d : DWord) : Word := d.truncate 32
def hiW (d : DWord) : Word := (d >>> 32).truncate 32
/-- A doubleword from its high and low words. -/
def dword (hi lo : Word) : DWord := hi ++ lo

/-- One more, saturating at 2^32 − 1. -/
def satSucc (w : Word) : Word := if w = 0xFFFF_FFFF then w else w + 1

/-- A word plus a number, saturating at 2^32 − 1. -/
def satAdd (w : Word) (n : Nat) : Word := BitVec.ofNat 32 (min (w.toNat + n) 0xFFFF_FFFF)

/-! Bytes (R6: little-endian) -/

/-- The `n` bytes of a number, lowest first. -/
def bytesOf : Nat → Nat → List Byte
  | 0, _ => []
  | n + 1, v => BitVec.ofNat 8 (v % 256) :: bytesOf n (v / 256)

/-- The number that bytes spell, lowest first. -/
def ofBytes : List Byte → Nat
  | [] => 0
  | b :: bs => b.toNat + 256 * ofBytes bs

/-- The word that bytes spell. -/
def wordOf (bs : List Byte) : Word := BitVec.ofNat 32 (ofBytes bs)

/-! Free values and time -/

/-- A free word, and the state in which it is spent. -/
def State.drawWord (s : State) : Word × State := (Config.freeWord s.free, { s with free := s.free + 1 })

/-- The state in which `n` more free values are spent. -/
def State.drawn (s : State) (n : Nat) : State := { s with free := s.free + n }

/-- The Time Base in whole fc (R265). -/
def State.fc (s : State) : DWord := (s.tb >>> 3).truncate 64

/-- The Time Base as a timestamp (R26). -/
def State.stamp (s : State) : Stamp := s.tb.truncate 64

/-- A number of fc as a timestamp. -/
def stampOf (fc : DWord) : Stamp := fc <<< 3

/-! Registers -/

/-- The stored value of the register at address `a`. -/
def State.reg (s : State) (a : Nat) : Word := mapGet Reg.resetValue s.csr a

/-- The state with the register at `a` holding `v`. -/
def State.setReg (s : State) (a : Nat) (v : Word) : State := { s with csr := mapSet Reg.resetValue s.csr a v }

/-- The register at `a` with the bits of `m` set. -/
def State.orReg (s : State) (a : Nat) (m : Word) : State := s.setReg a (s.reg a ||| m)

/-- The register at `a` with the bits of `m` cleared. -/
def State.clrReg (s : State) (a : Nat) (m : Word) : State := s.setReg a (s.reg a &&& ~~~m)

/-- The register at `a` with bit `i` set or cleared. -/
def State.putBit (s : State) (a i : Nat) (v : Bool) : State :=
  if v then s.orReg a (bitW i) else s.clrReg a (bitW i)

/-- Bit `i` of the register at `a`. -/
def State.rbit (s : State) (a i : Nat) : Bool := bitOf (s.reg a) i

/-- A field of the register at `a`. -/
def State.rfld (s : State) (a lo n : Nat) : Nat := fldOf (s.reg a) lo n

/-- The register at `a` with a field replaced. -/
def State.setFld (s : State) (a lo n v : Nat) : State := s.setReg a (putFld (s.reg a) lo n v)

/-- The counter at `a` increased by one, saturating. -/
def State.incReg (s : State) (a : Nat) : State := s.setReg a (satSucc (s.reg a))

/-- Registers back at their reset values: those that `p` picks. -/
def State.resetRegs (s : State) (p : Nat → Bool) : State := { s with csr := mapDrop p s.csr }

/-! Parts of the state -/

def State.eng (s : State) (e : EngId) : Engine := s.engines[e]
def State.setEng (s : State) (e : EngId) (x : Engine) : State := { s with engines := s.engines.set e.val x e.isLt }
def State.modEng (s : State) (e : EngId) (f : Engine → Engine) : State := s.setEng e (f (s.eng e))
def State.base (s : State) (b : BaseId) : Base := s.bases[b]
def State.setBase (s : State) (b : BaseId) (x : Base) : State := { s with bases := s.bases.set b.val x b.isLt }
def State.modBase (s : State) (b : BaseId) (f : Base → Base) : State := s.setBase b (f (s.base b))
def State.pin (s : State) (p : PinId) : Pin := s.pins[p]
def State.setPin (s : State) (p : PinId) (x : Pin) : State := { s with pins := s.pins.set p.val x p.isLt }
def State.modPin (s : State) (p : PinId) (f : Pin → Pin) : State := s.setPin p (f (s.pin p))
def State.wc (s : State) (m : WcId) : Counter := s.wcs[m]
def State.setWc (s : State) (m : WcId) (x : Counter) : State := { s with wcs := s.wcs.set m.val x m.isLt }
def State.modWc (s : State) (m : WcId) (f : Counter → Counter) : State := s.setWc m (f (s.wc m))
def State.ring (s : State) (r : BaseId) : Ring := s.alm.rings[r]
def State.setRing (s : State) (r : BaseId) (x : Ring) : State :=
  { s with alm := { s.alm with rings := s.alm.rings.set r.val x r.isLt } }
def State.frames (s : State) (e : EngId) : Frames := s.alm.frames[e]
def State.setFrames (s : State) (e : EngId) (x : Frames) : State :=
  { s with alm := { s.alm with frames := s.alm.frames.set e.val x e.isLt } }

/-- A physical engine is present (R3). -/
def State.present (s : State) (e : EngId) : Bool := s.engmask.getLsbD e.val

/-- Folds an action over all members of a finite index type in ascending order. -/
def forAll {n : Nat} (f : Fin n → State → State) (s : State) : State :=
  (List.finRange n).foldl (fun s i => f i s) s

/-! Engine words. Beside the socket numbers, `ports` uses these keys. -/

/-- The handler bank of V56–V63 (R109). -/
def keyBank (v : Nat) : Nat := 0x1000 + v
/-- Word `w` of segment descriptor `d` (R177). -/
def keySeg (d w : Nat) : Nat := 0x1100 + 4 * d + w
/-- The low and high words of the accumulator of MAC `u` (R160). -/
def keyAcc (u h : Nat) : Nat := 0x1200 + 2 * u + h
/-- The current value of LSUn.q (R107). -/
def keyLq (n : Nat) : Nat := 0x1300 + n

def Engine.get (x : Engine) (k : Nat) : Word := mapGet (fun _ => 0) x.ports k
def Engine.put (x : Engine) (k : Nat) (v : Word) : Engine := { x with ports := mapSet (fun _ => 0) x.ports k v }

def State.port (s : State) (e : EngId) (k : Nat) : Word := (s.eng e).get k
def State.setPort (s : State) (e : EngId) (k : Nat) (v : Word) : State := s.modEng e (·.put k v)

/-- Sockets of the special registers (R109). -/
abbrev sRPTC : Nat := 0x040
abbrev sLPS (k : Nat) : Nat := 0x041 + 3 * k
abbrev sLPE (k : Nat) : Nat := 0x042 + 3 * k
abbrev sLPC (k : Nat) : Nat := 0x043 + 3 * k
abbrev sEPC : Nat := 0x048
abbrev sESTAT : Nat := 0x049
abbrev sETGT : Nat := 0x04A
abbrev sEAUX : Nat := 0x04B
abbrev sECAUSE : Nat := 0x04C
abbrev sVBASE : Nat := 0x04D
abbrev sBANK : Nat := 0x050
abbrev sSEGSEL : Nat := 0x051
abbrev sMPC : Nat := 0x058
abbrev sUPC : Nat := 0x059
abbrev sLFLG : Nat := 0x05A
abbrev sEMUBASE : Nat := 0x05B
abbrev sTEID : Nat := 0x060

/-- A handler runs on the engine (R214). -/
def State.hnd (s : State) (e : EngId) : Bool := s.rbit (Reg.teExcstat e) 0
/-- The engine is halted (R216). -/
def State.halted (s : State) (e : EngId) : Bool := s.rbit (Reg.teExcstat e) 2
/-- The engine is in emulation mode (R222). -/
def State.emu (s : State) (e : EngId) : Bool := s.rbit (Reg.teEmustat e) 0
/-- A call-mode microroutine runs (R222). -/
def State.call (s : State) (e : EngId) : Bool := s.rbit (Reg.teEmustat e) 1

/-- The key under which general register `v` is held: V56–V63 are banked while a handler runs (R109, R214). -/
def State.vKey (s : State) (e : EngId) (v : Nat) : Nat := if s.hnd e && decide (56 ≤ v) then keyBank v else v

/-- A general register as a move reads it. V0 reads zero (R109). -/
def State.vreg (s : State) (e : EngId) (v : Nat) : Word := if v = 0 then 0 else s.port e (s.vKey e v)

/-- A write of a general register. V0 discards writes (R109). -/
def State.setVreg (s : State) (e : EngId) (v : Nat) (w : Word) : State :=
  if v = 0 then s else s.setPort e (s.vKey e v) w

/-- The engine's clock runs: it is present, mapped and released, and the device is in Run (R14, R15). -/
def State.live (s : State) (e : EngId) : Bool := (s.eng e).clocked && decide (s.power = .run)

/-- A request for Retain or Off is being carried out: the Almanac and the engines have stopped, and tables complete (R18). -/
def State.leaving (s : State) : Bool := s.request == some .retain || s.request == some .off

/-- The engine runs code: its clock runs, it is not halted (R216), and no entry to Retain or Off has stopped it (R18). What TE0 runs
before a release is the Boot ROM's, whose groups are no commands (R392, R400). -/
def State.runs (s : State) (e : EngId) : Bool := s.live e && !s.halted e && !s.leaving && s.released

/-- The engine's logical number as TE_CFG gives it (R121). -/
def State.logical (s : State) (e : EngId) : Nat := s.rfld (Reg.teCfg e) 0 4

/-! The Error Log's input (R415) -/

/-- Whether entry `a` enters the input buffer before entry `b`: earlier fc first, then CODE, UNIT, DETAIL and W3. -/
def LogEntry.before (a b : LogEntry) : Bool :=
  if a.t = b.t then (if a.w2 = b.w2 then a.w3.ule b.w3 else a.w2.ult b.w2) else true

/-- The buffer with an entry in its place. -/
def logInsert : List LogEntry → LogEntry → List LogEntry
  | [], x => [x]
  | y :: ys, x => if y.before x then y :: logInsert ys x else x :: y :: ys

/-- One lost entry (R415): ERR_LOST counts it and ERR_STAT.LOST is set. -/
def State.logLost (s : State) : State := (s.incReg Reg.errLost).orReg Reg.errStat (bitW 10)

/-- An event raises an Error Log entry: it takes its place among those of its fc (R415). -/
def State.log (s : State) (code unit detail : Nat) (w3 : Word) : State :=
  let x : LogEntry := ⟨s.fc, BitVec.ofNat 32 (code % 256 * 2 ^ 24 + unit % 256 * 2 ^ 16 + detail % 65536), w3⟩
  { s with logn := logInsert s.logn x }

/-- The entries of the fc that ends enter the input buffer of 16 places, after the fc's acceptance; one that finds no place is lost
(R415). -/
def State.logEnter (s : State) : State :=
  let k := 16 - s.logq.length
  (s.logn.drop k).foldl (fun s _ => s.logLost) { s with logq := s.logq ++ s.logn.take k, logn := [] }

/-! Asynchronous exceptions (R203) -/

/-- Asynchronous exception `n` is raised at engine `e`, to be taken at a boundary from model fc `t` on; one that already waits is taken
once, at the earlier of the two (R192, R203). -/
def State.raiseAt (s : State) (e : EngId) (n t : Nat) : State :=
  if s.present e && (s.eng e).clocked then
    let s := s.orReg (Reg.teApend e) (bitW n)
    s.modEng e fun x =>
      { x with apend := if x.apend.any (·.1 == n) then x.apend.map fun p => if p.1 == n then (n, min p.2 t) else p else x.apend ++ [(n, t)] }
  else s

/-- Asynchronous exception `n` is raised at engine `e`: it is synchronised, and a boundary takes it 4 fc later (R203, R213). -/
def State.raise (s : State) (e : EngId) (n : Nat) : State := s.raiseAt e n (s.now + 4)

/-- Exception `n` raised at every present engine whose bit is set in a destination register. -/
def State.raiseAll (s : State) (mask : Word) (n : Nat) : State :=
  forAll (fun (e : EngId) s => if bitOf mask e.val then s.raise e n else s) s

/-- The engine halts (R216): no further group issues. -/
def State.halt (s : State) (e : EngId) : State :=
  if s.halted e then s else (s.orReg (Reg.teExcstat e) (bitW 2)).log 0x1A e.val 0 0

/-! The system map (R285, R303) -/

/-- What an address reaches. -/
inductive Region where
  | rom | main | tile (n : EngId) | table | qspi | dev | te (n : EngId) | remote | pcie | none
  deriving DecidableEq, Repr

/-- The region that serves address `a` (R285); the windows of absent engines are told apart later (R4). -/
def State.region (s : State) (a : Nat) : Region :=
  if a < 0x10_0000 then
    (if s.rbit Reg.sysCtl 0 then .main else if a < 0x4_0000 then .rom else .none)
  else if 0x1000_0000 ≤ a ∧ a < 0x1100_0000 then .main
  else if 0x2000_0000 ≤ a ∧ a < 0x2100_0000 then .tile (Fin.ofNat 16 (a / 0x10_0000))
  else if 0x3000_0000 ≤ a ∧ a < 0x3004_0000 then .rom
  else if 0x3800_0000 ≤ a ∧ a < 0x3804_0000 then .table
  else if 0x4000_0000 ≤ a ∧ a < 0x4800_0000 then .qspi
  else if 0x5000_0000 ≤ a ∧ a < 0x5015_0000 then .dev
  else if 0x5100_0000 ≤ a ∧ a < 0x5110_0000 then .te (Fin.ofNat 16 (a / 0x1_0000))
  else if 0x6000_0000 ≤ a ∧ a < 0x7000_0000 then .remote
  else if 0x7000_0000 ≤ a ∧ a < 0x8000_0000 then .pcie
  else .none

/-- The region as the map tells regions apart for R185: each Tile Store window is its own, the low range its own, and the CSR blocks
of the engines are one (R285). -/
def State.regionKey (s : State) (a : Nat) : Region × Bool :=
  (match s.region a with | .te _ => .te 0 | r => r, decide (a < 0x10_0000))

/-- The target that serves an address (R303); none for a range no target serves and for an absent engine (R4, R311). -/
def State.target (s : State) (a : Nat) : Option Nat :=
  match s.region a with
  | .rom => some 24
  | .main => some (a / 0x4_0000 % 8)
  | .tile n => if s.present n then some (8 + n.val) else none
  | .table => some 25
  | .qspi => some 26
  | .dev => some 27
  | .te n => if s.present n then some 27 else none
  | .remote => some 28
  | .pcie => some 29
  | .none => none

/-- The beat width of a target (R303). -/
def beatWidth (t : Nat) : Nat :=
  if t < 8 then 16 else if t = 25 then 16 else if t = 26 ∨ t = 27 then 4 else 8

/-! Stores -/

/-- The key under which the stores hold the byte at system address `a`: the low range under REMAP and the mirrored half of a
Tile Store window name bytes that have another address too (R183, R285, R288). -/
def memKey (a : Nat) : Nat :=
  if a < 0x10_0000 then 0x1000_0000 + a
  else if 0x2000_0000 ≤ a ∧ a < 0x2100_0000 then a / 0x10_0000 * 0x10_0000 + a % 0x8_0000
  else a

/-- One stored byte. -/
def State.memByte (s : State) (a : Nat) : Byte := mapGet (memDefault s.cat) s.mem (memKey a)

/-- The state with one byte stored. -/
def State.setMemByte (s : State) (a : Nat) (b : Byte) : State := { s with mem := mapSet (memDefault s.cat) s.mem (memKey a) b }

/-- One byte of the flash: as this model has erased or programmed it, else as it came (R372). -/
def State.flashAt (s : State) (o : Nat) : Byte :=
  match mapGet (fun _ => none) s.flash o with
  | some b => b
  | none => Config.flashByte o

/-- `n` bytes as a read finds them: stores, the Boot ROM and the flash behind the QSPI window. -/
def State.readByte (s : State) (a : Nat) : Byte :=
  match s.region a with
  | .rom => Config.bootRom (a % 0x4_0000)
  | .qspi => s.flashAt (a % 0x800_0000)
  | _ => s.memByte a

def State.readBytes (s : State) (a : Nat) : Nat → List Byte
  | 0 => []
  | n + 1 => s.readByte a :: s.readBytes (a + 1) n

/-- Bytes stored from address `a` on. -/
def State.writeBytes (s : State) (a : Nat) : List Byte → State
  | [] => s
  | b :: bs => (s.setMemByte a b).writeBytes (a + 1) bs

/-- A stored word. -/
def State.memWord (s : State) (a : Nat) : Word := wordOf (s.readBytes a 4)

/-- A word stored. -/
def State.setMemWord (s : State) (a : Nat) (v : Word) : State := s.writeBytes a (bytesOf 4 v.toNat)

/-- The system address of a Tile Store offset of engine `e`. -/
def tileAddr (e : EngId) (o : Nat) : Nat := 0x2000_0000 + e.val * 0x10_0000 + o

/-- The system address of word `w` of Almanac slot `i` (R57, R62). -/
def slotAddr (i w : Nat) : Nat := 0x3800_0000 + i * 16 + 4 * w

/-- The stores cleared where `p` picks the key (R299). -/
def State.clearMem (s : State) (p : Nat → Bool) : State := { s with mem := mapDrop p s.mem }

/-- The key of a byte of a Catalogue. -/
def inCatalogue (k : Nat) : Bool :=
  decide (0x5100_0000 ≤ k) && decide (k < 0x5110_0000) && decide (0x6000 ≤ k % 0x1_0000) && decide (k % 0x1_0000 < 0x8000)

/-- Every Catalogue emptied: with the engines of `cat`, whose words read 0xFFFF, and the others, whose words read zero (R224, R299). -/
def State.setCatalogues (s : State) (cat : Half) : State := { s with mem := mapDrop inCatalogue s.mem, cat := cat }

/-! Line breaks (R369) -/

/-- The receiver that the image routes to an input reports a line break: it holds its last level. -/
def State.broken (s : State) (r : RcvRoute) : Bool :=
  match s.image with
  | some g => g.rcvs.any fun x => x.route == r && decide (s.now < s.brk[x.rcv])
  | none => false

end Sys2Proof.Machine
end

