-- ==== Sys2Proof/Machine/Pins.lean ====
section
/-! DEFINITION. The event pins EV0–EV63: placement units (R67, R68), output groups (R84, R85), readback comparators (R86) and safe
states (R418). -/

namespace Sys2Proof.Machine

/-- Pin `p` belongs to output group `g` (R85). -/
def State.inGroup (s : State) (g : Nat) (p : PinId) : Bool :=
  if p.val < 32 then s.rbit (Reg.almGrpLo g) p.val else s.rbit (Reg.almGrpHi g) (p.val - 32)

/-- Group `g` is safe, or held (R84). -/
def State.groupSafeBit (s : State) (g : Nat) : Bool := s.rbit Reg.almGrpst (8 + g)
def State.groupHeldBit (s : State) (g : Nat) : Bool := s.rbit Reg.almGrpst g

/-- A cause holds the pin in its safe state (R418). Before release every pin is in its reset state (R450). -/
def State.pinSafe (s : State) (p : PinId) : Bool :=
  let x := s.pin p
  !s.released || x.down || x.rbOwn || (s.alm.lsSafe && x.owner == .almanac) ||
  (match x.owner with | .counter m _ => !(s.wc m).started | _ => false) ||
  (List.range 8).any fun g => s.groupSafeBit g && s.inGroup g p

/-- The pin's actions are discarded: it is safe or a group that holds it is held (R84, R85). -/
def State.pinBlocked (s : State) (p : PinId) : Bool :=
  s.pinSafe p || (List.range 8).any fun g => s.groupHeldBit g && s.inGroup g p

/-- The pin takes its safe level; its pending edges are discarded (R84, R418). -/
def State.makeSafe (s : State) (p : PinId) : State := s.modPin p fun x => { x with q := [], lvl := x.safe }

/-- Group `g` takes its safe state (R84, R418). -/
def State.groupSafe (s : State) (g : Nat) : State :=
  let s := s.orReg Reg.almGrpst (bitW (8 + g))
  forAll (fun (p : PinId) s => if s.inGroup g p then s.makeSafe p else s) s

/-- Group `g` is held: its pins keep their levels and lose their pending edges (R84). -/
def State.groupHold (s : State) (g : Nat) : State :=
  let s := s.orReg Reg.almGrpst (bitW g)
  forAll (fun (p : PinId) s => if s.inGroup g p then s.modPin p fun x => { x with q := [] } else s) s

/-- The output groups of an eight-bit mask take their safe state. -/
def State.groupsSafe (s : State) (mask : Nat) : State :=
  (List.range 8).foldl (fun s g => if mask.testBit g then s.groupSafe g else s) s

/-- A group mask has been written: a pin that joins a safe or held group is safe or held from then on (R84, R85). -/
def State.groupJoin (s : State) (g : Nat) : State :=
  forAll (fun (p : PinId) s =>
    if !s.inGroup g p then s
    else if s.groupSafeBit g then s.makeSafe p
    else if s.groupHeldBit g then s.modPin p fun x => { x with q := [] } else s) s

/-- The pin is driven to a level at time `t`; its comparator compares from 4 fc later (R86), and a waiting readback injection
starts with an edge that drives a level (R91). -/
def State.drivePin (s : State) (p : PinId) (lvl : Bool) (t : Stamp) : State :=
  s.modPin p fun x =>
    { x with lvl := if lvl then .high else .low, lastT := some t, cmpAt := s.now + 4,
             invRb := x.invRb || x.injRb, injRb := false }

/-- An edge put in its place in time order, and in commit order among those of its step (R68). -/
def insertEdge (e : PEdge) : List PEdge → List PEdge
  | [] => [e]
  | x :: xs => if e.t.toNat < x.t.toNat ∨ (e.t = x.t ∧ e.n < x.n) then e :: x :: xs else x :: insertEdge e xs

/-- Edges less than 8 steps after another are moved to 8 steps after it, where they fall in commit order; edges of one step stay together.
Answers whether any were moved (R68). Each edge moves at most once, and `fuel` counts these visits. -/
def spaceEdges : Nat → Option Stamp → List PEdge → List PEdge × Bool
  | 0, _, es => (es, false)
  | _ + 1, _, [] => ([], false)
  | n + 1, none, e :: es =>
    let r := spaceEdges n (some e.t) es
    (e :: r.1, r.2)
  | n + 1, some b, e :: es =>
    let d := (e.t - b).toInt
    if 0 < d ∧ d < 8 then ((spaceEdges n (some b) (insertEdge { e with t := b + 8 } es)).1, true)
    else
      let t := if d ≤ 0 then b else e.t
      let r := spaceEdges n (some t) es
      ({ e with t := t } :: r.1, r.2)

/-- Two edges of one step, one of them with a commit number from `n` on (R68). -/
def sharesStep (n : Nat) (l : List PEdge) : Bool := l.any fun e => decide (n ≤ e.n) && l.any fun x => x.t == e.t && x.n != e.n

/-- The placement unit of a pin gets an edge action at time `t`: kind 0 rise, 1 fall, 2 toggle, 3 pulse of `width` steps (R63, R64,
R67, R68). DESIGN CHOICE (log 101): where the rule of close edges moves the rise of a pulse, its fall keeps its place `width` steps after
the time committed. -/
def State.placeEdge (s : State) (p : PinId) (t : Stamp) (kind width : Nat) : State :=
  let x := s.pin p
  if s.pinBlocked p then s
  else if 4 < x.q.length + (if kind = 3 then 2 else 1) then
    (s.orReg Reg.almStat (bitW 12)).log 0x12 p.val 0 (loW t)
  else
    let final := match x.q.getLast? with | some e => e.lvl | none => x.lvl == .high
    let items : List PEdge :=
      match kind with
      | 0 => [⟨t, true, x.commits⟩]
      | 1 => [⟨t, false, x.commits⟩]
      | 2 => [⟨t, !final, x.commits⟩]
      | _ => [⟨t, true, x.commits⟩, ⟨t + BitVec.ofNat 64 (max width 8), false, x.commits + 1⟩]
    let r := spaceEdges 16 x.lastT (items.foldl (fun q e => insertEdge e q) x.q)
    let s := s.setPin p { x with q := r.1, commits := x.commits + items.length }
    if r.2 || sharesStep x.commits r.1 || r.1.any (fun e => decide (x.commits ≤ e.n) && x.lastT == some e.t) then
      s.orReg Reg.almStat (bitW 11)
    else s

/-- The first pending edges of one step are due: the pin changes to the final level of that step (R68). -/
def State.edgePlace (s : State) (p : PinId) : State :=
  let x := s.pin p
  match x.q with
  | [] => s
  | e :: _ =>
    if s.tb.toNat + 8 ≤ e.t.toNat then s
    else
      let same := x.q.takeWhile (·.t == e.t)
      let s := s.setPin p { x with q := x.q.dropWhile (·.t == e.t) }
      if s.pinBlocked p then s
      else s.drivePin p (match same.getLast? with | some l => l.lvl | none => e.lvl) e.t

/-- A readback mismatch of a pin (R86): its error bit, the flag, a log entry when the bit was clear, and with RBSAFE the safe state
of the pin and of every group that holds it. -/
def State.rbError (s : State) (p : PinId) : State :=
  let a := if p.val < 32 then Reg.almRberrLo else Reg.almRberrHi
  let s := if s.rbit a (p.val % 32) then s else s.log 0x13 p.val 0 0
  let s := (s.orReg a (bitW (p.val % 32))).orReg Reg.almStat (bitW 13)
  if s.rbit Reg.almRbcfg 8 then
    let s := (s.modPin p fun x => { x with rbOwn := true }).makeSafe p
    (List.range 8).foldl (fun s g => if s.inGroup g p then s.groupSafe g else s) s
  else s

/-- The comparator of a pin compares: the pin drives a level, and 4 fc have passed since its last edge (R86). -/
def State.comparing (s : State) (p : PinId) : Bool := (s.pin p).lvl != .z && decide ((s.pin p).cmpAt ≤ s.now)

/-- Pins with readback error bits written 1 release their own cause (R86). -/
def State.rbRelease (s : State) (hi : Bool) (mask : Word) : State :=
  let s := s.clrReg (if hi then Reg.almRberrHi else Reg.almRberrLo) mask
  forAll (fun (p : PinId) s =>
    if (p.val / 32 == 1) == hi && bitOf mask (p.val % 32) then s.modPin p fun x => { x with rbOwn := false } else s) s

/-- The window of ALM_RBCFG.WIN; 0 acts as 1 (R91). -/
def State.rbWin (s : State) : Nat := max 1 (s.rfld Reg.almRbcfg 0 8)

/-! The meanings -/

/-- EDGE_PLACE (R68): the placement unit applies a pending edge at its time. -/
def execEdgePlace (p : PinId) (s : State) : Host.Outcome State Fault Refusal := .next (s.edgePlace p)
/-- GROUP_SAFE_RELEASE (R85). -/
def execGroupSafeRelease (g : GroupId) (s : State) : Host.Outcome State Fault Refusal :=
  .next (s.clrReg Reg.almGrpst (bitW (8 + g.val)))
/-- GROUP_HOLD_RELEASE (R85). -/
def execGroupHoldRelease (g : GroupId) (s : State) : Host.Outcome State Fault Refusal :=
  .next (s.clrReg Reg.almGrpst (bitW g.val))
/-- READBACK_MISMATCH (R86): the pad of the pin has differed from its driven level for `held` consecutive fc up to this one, of which the
comparator counts those in which it compares. -/
def execReadbackMismatch (found : PinMismatch) (s : State) : Host.Outcome State Fault Refusal :=
  .next (if s.comparing found.pin && decide (s.rbWin ≤ min found.held (s.now + 1 - (s.pin found.pin).cmpAt)) then s.rbError found.pin else s)
/-- READBACK_RELEASE (R86). -/
def execReadbackRelease (p : PinId) (s : State) : Host.Outcome State Fault Refusal :=
  .next (s.rbRelease (p.val / 32 == 1) (bitW (p.val % 32)))
/-- ALM_INJ_RB (R91). -/
def execAlmInjRb (p : PinId) (s : State) : Host.Outcome State Fault Refusal :=
  .next (s.modPin p fun x => { x with injRb := true })

end Sys2Proof.Machine
end

