-- ==== Sys2Proof/Machine/Timers.lean ====
section
/-! DEFINITION. The Time Base compare and its synchronisation timeout (R265–R269), the Waveform Counters (R270–R279) and the
capture pairs (R280, R281). -/

namespace Sys2Proof.Machine

/-! The Time Base -/

/-- A read of TMR_TBLO: the low word, with the snapshots of the high word and the fraction (R266). -/
def State.tbRead (s : State) : Word × State :=
  (loW s.fc, (s.setReg Reg.tmrTbhi (hiW s.fc)).setReg Reg.tmrTbsub (BitVec.ofNat 32 (s.tb.toNat % 8)))

/-- The part is a follower (R267). -/
def State.follower (s : State) : Bool := s.rfld Reg.tmrTbctl 0 2 == 1

/-- TMR_TBSTAT.SYNCD: 1 in every role but that of a follower (R268). -/
def State.syncd (s : State) : Bool := !s.follower || s.rbit Reg.tmrTbstat 0

/-- TMR_TBCMP. -/
def State.tbCmp (s : State) : DWord := dword (s.reg Reg.tmrTbcmpHi) (s.reg Reg.tmrTbcmpLo)

/-! Counters -/

/-- WCm runs; counts up or down; is cascaded (R277). -/
def State.wcRun (s : State) (m : WcId) : Bool := s.rbit (Reg.wcStat m) 0
def State.wcDown (s : State) (m : WcId) : Bool := s.rbit (Reg.wcStat m) 1
def State.wcCasc (s : State) (m : WcId) : Bool := m.val % 2 == 1 && s.rbit (Reg.wcCfg m) 16
/-- WC_CFG.PSC + 1. -/
def State.wcPsc (s : State) (m : WcId) : Nat := s.rfld (Reg.wcCfg m) 24 8 + 1

/-- Count and direction are about to change; what they were at the start of the fc is kept for the longest filter (R27, R280). -/
def State.wcNote (s : State) (m : WcId) : State :=
  match (s.wc m).hist with
  | (f, _) :: _ =>
    if f = s.now then s
    else s.modWc m fun x => { x with hist := ((s.now, s.reg (Reg.wcCnt m), s.wcDown m) :: x.hist).take 20 }
  | [] => s.modWc m fun x => { x with hist := [(s.now, s.reg (Reg.wcCnt m), s.wcDown m)] }

/-- Count and direction at the start of model fc `n`. -/
def State.wcPast (s : State) (m : WcId) (n : Nat) : Word × Bool :=
  match ((s.wc m).hist.takeWhile fun p => decide (n ≤ p.1)).getLast? with
  | some p => p.2
  | none => (s.reg (Reg.wcCnt m), s.wcDown m)

/-- The count changes; what a read in this fc returns is kept (R278). -/
def State.wcSetCnt (s : State) (m : WcId) (v : Word) : State :=
  let x := s.wc m
  let s := if x.chAt = some s.now then s
           else s.setWc m { x with chAt := some s.now, chOld := s.reg (Reg.wcCnt m) }
  s.setReg (Reg.wcCnt m) v

/-- The pins that follow channel `k` of WCm take the channel's level at time `t`, unless they are safe or held (R274). -/
def State.wcPins (s : State) (m : WcId) (k : ChId) (lvl : Bool) (t : Stamp) : State :=
  forAll (fun (p : PinId) s =>
    if (s.pin p).owner = .counter m k ∧ s.pinBlocked p = false then s.drivePin p lvl t else s) s

/-- Channel `k` takes a level, and its pins with it. -/
def State.wcOut (s : State) (m : WcId) (k : ChId) (lvl : Bool) (t : Stamp) : State :=
  (s.modWc m fun x => { x with outs := x.outs.set k.val lvl k.isLt }).wcPins m k lvl t

/-- An output action: 1 set, 2 clear, 3 toggle (R274). -/
def State.wcAction (s : State) (m : WcId) (k : ChId) (act : Nat) (t : Stamp) : State :=
  match act with
  | 1 => s.wcOut m k true t
  | 2 => s.wcOut m k false t
  | 3 => s.wcOut m k (!(s.wc m).outs[k]) t
  | _ => s

/-- Every output takes its level of INIT in the WC_CFG value `cfg` (R275). -/
def State.wcInit (s : State) (m : WcId) (cfg : Word) : State :=
  forAll (fun (k : ChId) s => s.wcOut m k (bitOf cfg k.val) (s.stamp + 8)) s

/-- The compare shadows are put in force (R273). -/
def State.wcLoadCmp (s : State) (m : WcId) : State :=
  s.modWc m fun x => { x with cmp := Vector.ofFn fun k => s.reg (Reg.wcCmp m k.val) }

/-- A pending period is put in force (R272). -/
def State.wcLoadPer (s : State) (m : WcId) : State :=
  (s.modWc m fun x => { x with per := s.reg (Reg.wcPer m) }).clrReg (Reg.wcStat m) (bitW 4)

/-- The values that an action uses: those of the registers. -/
def State.wcVals (s : State) (m : WcId) : WcHeld :=
  { fc := s.now, ofs := s.reg (Reg.wcOfs m), cfg := s.reg (Reg.wcCfg m), per := s.reg (Reg.wcPer m),
    cmp := Vector.ofFn fun k => s.reg (Reg.wcCmp m k.val), newP := false }

/-- The values before the register writes of the fc, which the actions of events use (R278). -/
def State.wcBefore (s : State) (m : WcId) : WcHeld :=
  match (s.wc m).held with | some h => if h.fc = s.now then h else s.wcVals m | none => s.wcVals m

/-- A register of the counter is about to be written (R278). -/
def State.wcKeep (s : State) (m : WcId) (period : Bool) : State :=
  let h := s.wcBefore m
  s.modWc m fun x => { x with held := some { h with newP := h.newP || period } }

/-- The reset action of a counter (R275). -/
def State.wcResetAct (s : State) (m : WcId) (h : WcHeld) : State :=
  let s := (s.wcNote m).wcSetCnt m h.ofs
  let s := (s.putBit (Reg.wcStat m) 1 (bitOf h.cfg 17 && !(m.val % 2 == 1 && bitOf h.cfg 16))).clrReg (Reg.wcStat m) (bitW 4)
  (s.modWc m fun x => { x with per := h.per, cmp := h.cmp, fresh := true, psc := s.now }).wcInit m h.cfg

/-- The start action: nothing where RUN = 1; else RUN, the prescaler, and at the first start the outputs (R270, R275, R282). A pin
that stayed safe since Retain or Off until its owner restarts is released (R19, R418). -/
def State.wcStartAct (s : State) (m : WcId) (h : WcHeld) : State :=
  if s.wcRun m then s
  else
    let fresh := (s.wc m).fresh
    let s := (s.orReg (Reg.wcStat m) (bitW 0)).modWc m fun x => { x with psc := s.now, started := true, fresh := false }
    let s := forAll (fun (p : PinId) s => s.modPin p fun x =>
      match x.owner with | .counter n _ => if n = m then { x with down := false } else x | _ => x) s
    if fresh then s.wcInit m h.cfg else s

/-- The stop action: RUN clears (R275). -/
def State.wcStopAct (s : State) (m : WcId) : State := s.clrReg (Reg.wcStat m) (bitW 0)

/-- Actions that reach a counter at the end of one fc: reset first, then stop if any arrived, otherwise start (R275). -/
def State.wcApply (s : State) (m : WcId) (h : WcHeld) (acts : List WcAct) : State :=
  let s := if acts.contains .reset then s.wcResetAct m h else s
  if acts.contains .stop then s.wcStopAct m else if acts.contains .start then s.wcStartAct m h else s

/-- Actions of events; they take effect at the end of the fc, combined (R275). -/
def State.wcByEvent (s : State) (m : WcId) (acts : List WcAct) : State := s.modWc m fun x => { x with acts := x.acts ++ acts }

/-- Actions of register writes; they take effect at the end of the fc, combined, after every action from events (R275, R278). -/
def State.wcByWrite (s : State) (m : WcId) (acts : List WcAct) : State := s.modWc m fun x => { x with actW := x.actW ++ acts }

/-- A period that has been written is pending, or in force at once where the counter counts up at or above it (R272). -/
def State.wcPeriodDo (s : State) (m : WcId) : State :=
  let v := s.reg (Reg.wcPer m)
  if !s.wcDown m && !s.wcCasc m && decide ((if v = 0 then 1 else v) ≤ s.reg (Reg.wcCnt m)) then s.wcLoadPer m
  else s.orReg (Reg.wcStat m) (bitW 4)

/-- What was written in an fc in which an event reset the counter applies after the reset (R278): a period, and under LDMODE 0b00 and 0b11
the compare values. -/
def State.wcRewrite (s : State) (m : WcId) (h : WcHeld) : State :=
  let ld := s.rfld (Reg.wcCfg m) 12 2
  let s := if ld == 0 || ld == 3 then
      let put (x : Counter) (k : ChId) : Word := if s.reg (Reg.wcCmp m k.val) = h.cmp[k] then x.cmp[k] else s.reg (Reg.wcCmp m k.val)
      s.modWc m fun x => { x with cmp := Vector.ofFn (put x) }
    else s
  if h.newP then s.wcPeriodDo m else s

/-- The fc ends for a counter: the actions of events with the values held before the writes, then those of writes (R275, R278). -/
def State.wcEnd (s : State) (m : WcId) : State :=
  let x := s.wc m
  if x.acts.isEmpty && x.actW.isEmpty then s
  else
    let h := s.wcBefore m
    let s := (s.modWc m fun x => { x with acts := [], actW := [] }).wcApply m h x.acts
    let s := if x.acts.contains .reset then s.wcRewrite m h else s
    s.wcApply m (s.wcVals m) x.actW

/-- ARM: a start at WC_AT is armed (R275). -/
def State.wcArmDo (s : State) (m : WcId) : State := (s.orReg (Reg.wcStat m) (bitW 5)).modWc m fun x => { x with armAt := s.now }

/-- The action of a WC_LINK code (R284). -/
def wcActOf (code : Nat) : Option WcAct :=
  match code with | 1 => some .start | 2 => some .stop | 3 => some .reset | _ => none

/-- Link events of a counter: the self actions of the events at once, the target actions one fc later (R275). -/
def State.wcLinks (s : State) (m : WcId) (evs : List Nat) : State :=
  let link := s.reg (Reg.wcLink m)
  let tgt : WcId := Fin.ofNat 32 (fldOf link 24 5)
  let later := (evs.filterMap fun j => wcActOf (fldOf link (4 * j + 2) 2)).map fun a => (s.now, tgt, a)
  let s := s.modWc m fun x => { x with links := x.links ++ later }
  s.wcByEvent m (evs.filterMap fun j => wcActOf (fldOf link (4 * j) 2))

/-- The channels that a tick to count `c` matches in a direction (R273). -/
def State.wcMatches (s : State) (m : WcId) (c : Word) (down : Bool) : List ChId :=
  (List.finRange 4).filter fun k =>
    (s.wc m).cmp[k] == c && s.rbit (Reg.wcChcfg m) (8 * k.val + b2n down)

/-- What a tick brings about: flags, output actions with the match actions last, period and compares put in force, and links
(R271–R275, R277). -/
def State.wcEvents (s : State) (m : WcId) (top bot asym wrap : Bool) (ms : List ChId) (down : Bool) : State :=
  let bits := (ms.map fun k => 2 ^ (8 + k.val)).sum
    + b2n top * 2 ^ 12 + b2n bot * 2 ^ 13 + b2n wrap * 2 ^ 14 + b2n asym * 2 ^ 15
  let s := s.orReg (Reg.wcStat m) (BitVec.ofNat 32 bits)
  let oact := s.reg (Reg.wcOact m)
  let s := forAll (fun (k : ChId) s =>
    let s := if top then s.wcAction m k (fldOf oact (8 * k.val + 4) 2) s.stamp else s
    if bot then s.wcAction m k (fldOf oact (8 * k.val + 6) 2) s.stamp else s) s
  let s := ms.foldl (fun s k =>
    s.wcAction m k (fldOf oact (8 * k.val + 2 * b2n down) 2)
      (s.stamp + BitVec.ofNat 64 (s.rfld (Reg.wcChcfg m) (8 * k.val + 2) 3))) s
  let s := if top || bot then
      let s := s.modWc m fun x => { x with evAt := some s.now }
      let s := if s.rbit (Reg.wcStat m) 4 && !wrap then s.wcLoadPer m else s
      let ld := s.rfld (Reg.wcCfg m) 12 2
      if ld == 2 || (ld == 1 && bot) then s.wcLoadCmp m else s
    else s
  s.wcLinks m (ms.map (·.val) ++ (if top then [4] else []) ++ (if bot then [5] else []))

/-- A tick of a cascaded counter: up only, with its wrap as TOP (R277). -/
def State.wcCascade (s : State) (m : WcId) : State :=
  let c := s.reg (Reg.wcCnt m) + 1
  ((s.wcNote m).wcSetCnt m c).wcEvents m (c == 0) false false (c == 0) (s.wcMatches m c false) false

/-- One tick of a counter that is not cascaded (R271), and of its cascaded partner at its BOT event (R277). -/
def State.wcTick (s : State) (m : WcId) : State :=
  let p := if (s.wc m).per = 0 then 1 else (s.wc m).per
  let c := s.reg (Reg.wcCnt m)
  let setDir (s : State) (d : Bool) : State := s.putBit (Reg.wcStat m) 1 d
  let s := (s.wcNote m).modWc m fun x => { x with psc := x.psc + s.wcPsc m }
  let r : Bool × State :=
    if s.wcDown m then
      (if c = 0 then (true, (setDir s false).wcEvents m false true true false [] false)
       else
        let c := c - 1
        let s' := s.wcSetCnt m c
        let bot := c == 0
        (bot, (if bot then setDir s' false else s').wcEvents m false bot false false (s.wcMatches m c true) true))
    else
      (if p ≤ c then (false, (setDir s true).wcEvents m true false true false [] false)
       else
        let c := c + 1
        let s' := s.wcSetCnt m c
        let top := c == p
        (false, (if top then setDir s' true else s').wcEvents m top false false false (s.wcMatches m c false) false))
  let o : WcId := Fin.ofNat 32 (m.val + 1)
  if r.1 && m.val % 2 == 0 && r.2.wcCasc o && r.2.wcRun o then r.2.wcCascade o else r.2

/-- A write of WC_PER: pending, or in force at once where the counter counts up at or above the new value (R272). -/
def State.wcPeriod (s : State) (m : WcId) (v : Word) : State :=
  ((s.wcKeep m true).setReg (Reg.wcPer m) v).wcPeriodDo m

/-- A write of WC_CMPk: to the shadow, and in force at once under LDMODE 0b00 and 0b11 (R273). -/
def State.wcCompare (s : State) (m : WcId) (k : ChId) (v : Word) : State :=
  let s := (s.wcKeep m false).setReg (Reg.wcCmp m k.val) v
  let ld := s.rfld (Reg.wcCfg m) 12 2
  if ld == 0 || ld == 3 then s.modWc m fun x => { x with cmp := x.cmp.set k.val v k.isLt } else s

/-- A counter whose results are undefined (R279): count, direction, run state, flags, outputs, period, compares and prescaler become
free, and whether its next start is a first one. -/
def State.wcWild (s : State) (m : WcId) : State :=
  let d := s.drawWord
  let e := d.2.drawWord
  let f := e.2.drawWord
  let s := f.2.setReg (Reg.wcStat m) (e.1 &&& 0x1FF33)
  let s := s.wcSetCnt m d.1
  let s := s.modWc m fun x =>
    { x with per := f.1, cmp := Vector.ofFn fun k => Config.freeWord (s.free + k.val),
             psc := s.now - (Config.freeWord (s.free + 4)).toNat % s.wcPsc m, fresh := bitOf (Config.freeWord (s.free + 5)) 4 }
  let n := s.free + 5
  forAll (fun (k : ChId) s => s.wcOut m k (bitOf (Config.freeWord n) k.val) s.stamp) { s with free := s.free + 6 }

/-- A write of WC_LINK. A change of TGT while the counter runs leaves this counter, its old target and its new one undefined
(R279). -/
def State.wcLinkWrite (s : State) (m : WcId) (v : Word) : State :=
  let old := s.rfld (Reg.wcLink m) 24 5
  let new := fldOf v 24 5
  let s' := s.setReg (Reg.wcLink m) (v &&& 0x1FFF_FFFF)
  if s.wcRun m && decide (old ≠ new) then
    ((s'.wcWild m).wcWild (Fin.ofNat 32 old)).wcWild (Fin.ofNat 32 new)
  else s'

/-- The count that a read returns: that at the start of the fc (R278). -/
def State.wcCount (s : State) (m : WcId) : Word :=
  if (s.wc m).chAt = some s.now then (s.wc m).chOld else s.reg (Reg.wcCnt m)

/-- A read of WC_CNT (R277, R278). -/
def State.wcRead (s : State) (m : WcId) : Word × State :=
  let even := m.val % 2 == 0
  let o : WcId := Fin.ofNat 32 (m.val + 1)
  let dev := (s.wc m).evAt == some s.now || (even && (s.wc o).evAt == some s.now)
  let s' := if even then s.setReg (Reg.wcSnaphi m) (s.wcCount o) else s
  (s.wcCount m, if dev then s'.orReg (Reg.wcStat m) (bitW 16) else s')

/-- A bit mask of counters gets one action (R275). -/
def State.wcMask (s : State) (mask : Word) (a : WcAct) : State :=
  forAll (fun (m : WcId) s => if bitOf mask m.val then s.wcByWrite m [a] else s) s

/-- The Time Base of an armed start. -/
def State.wcAt (s : State) (m : WcId) : DWord := dword (s.reg (Reg.wcAtHi m)) (s.reg (Reg.wcAtLo m))

/-- The clock of the counters runs in Run and Hold (R15). -/
def State.tmrOn (s : State) : Bool := s.power == .run || s.power == .hold

/-! Capture pairs -/

/-- The model fc of a timestamp that is not later than now. -/
def State.fcOf (s : State) (t : Stamp) : Nat := s.now - (s.fc - (t >>> 3)).toNat

/-- A capture pair sees an accepted transition (R280, R281). DEDUCED (log 103): with SRC = 1 the count in the fc of the raw transition is
the one that a read in that fc returns (R278). -/
def State.capEdge (s : State) (n : WcId) (rising : Bool) (ts : Stamp) : State :=
  let x := s.caps[n]
  let s := s.putBit (Reg.capStat n) 0 rising
  match x.owner with
  | none => s
  | some m =>
    if !s.rbit (Reg.capCfg n) 0 then s
    else
      let src := s.rbit (Reg.capCfg n) 1
      let past := s.wcPast m (s.fcOf ts)
      let v : DWord := if src then dword (boolW past.2) past.1 else ts
      let unread := if rising then x.riseUnread else x.fallUnread
      let s := if unread then s.orReg (Reg.capStat n) (bitW 10) else s
      let s := s.orReg (Reg.capStat n) (bitW (if rising then 8 else 9))
      let s := if !rising && x.half && !src then
          s.setReg (Reg.capWidth n) (BitVec.ofNat 32 (min (v - x.rise).toNat 0xFFFF_FFFF)) else s
      let x := if rising then { x with rise := v, riseUnread := true, half := true, riseAt := some s.now, riseOld := x.rise }
               else { x with fall := v, fallUnread := true, half := false, fallAt := some s.now, fallOld := x.fall }
      { s with caps := s.caps.set n.val x n.isLt }

/-- A read of CAP_RISE_LO or CAP_FALL_LO (R281). -/
def State.capRead (s : State) (n : WcId) (falling : Bool) : Word × State :=
  let x := s.caps[n]
  let fresh := (if falling then x.fallAt else x.riseAt) == some s.now
  let v := if falling then (if fresh then x.fallOld else x.fall) else (if fresh then x.riseOld else x.rise)
  let s := s.setReg (if falling then Reg.capFallHi n else Reg.capRiseHi n) (hiW v)
  let x := if fresh then x else if falling then { x with fallUnread := false } else { x with riseUnread := false }
  (loW v, { s with caps := s.caps.set n.val x n.isLt })

/-! The meanings -/

/-- TIME_BASE_READ (R266). -/
def execTimeBaseRead (s : State) : Host.Outcome State Fault Refusal :=
  .next { s.tbRead.2 with rdata := [s.tbRead.1] }
/-- TB_COMPARE_ARM (R269). -/
def execTbCompareArm (hi : Word) (s : State) : Host.Outcome State Fault Refusal :=
  .next { s.setReg Reg.tmrTbcmpHi hi with time := { s.time with cmpArm := true } }
/-- TB_COMPARE (R269): once per arming, with CMPEN = 1, when the Time Base is at or above TMR_TBCMP. -/
def execTbCompare (s : State) : Host.Outcome State Fault Refusal :=
  .next (if s.time.cmpArm && s.rbit Reg.tmrTbctl 4 && decide (s.tbCmp ≤ s.fc) then
      { s.orReg Reg.tmrTbstat (bitW 8) with time := { s.time with cmpArm := false } } else s)
/-- WC_TICK (R271): the prescaler of a running counter that is not cascaded expires. -/
def execWcTick (m : WcId) (s : State) : Host.Outcome State Fault Refusal :=
  .next (if s.tmrOn && s.wcRun m && !s.wcCasc m && decide ((s.wc m).psc + s.wcPsc m ≤ s.now) then s.wcTick m else s)
/-- LINK_TARGET_ACTION (R275): the target actions of the events of WCm in earlier fc. -/
def execLinkTargetAction (m : WcId) (s : State) : Host.Outcome State Fault Refusal :=
  .next (let ls := (s.wc m).links.filter fun p => decide (p.1 < s.now)
    let s := s.modWc m fun x => { x with links := x.links.filter fun p => !decide (p.1 < s.now) }
    forAll (fun (n : WcId) s => s.wcByEvent n ((ls.filter (·.2.1 == n)).map (·.2.2))) s)
/-- WC_START (R275). -/
def execWcStart (m : WcId) (s : State) : Host.Outcome State Fault Refusal := .next (s.wcByWrite m [.start])
/-- WC_STOP (R275). -/
def execWcStop (m : WcId) (s : State) : Host.Outcome State Fault Refusal := .next (s.wcByWrite m [.stop])
/-- WC_RESET (R275). -/
def execWcReset (m : WcId) (s : State) : Host.Outcome State Fault Refusal := .next (s.wcByWrite m [.reset])
/-- WC_ARM (R275). -/
def execWcArm (m : WcId) (s : State) : Host.Outcome State Fault Refusal := .next (s.wcArmDo m)
/-- WC_CANCEL (R284). -/
def execWcCancel (m : WcId) (s : State) : Host.Outcome State Fault Refusal := .next (s.clrReg (Reg.wcStat m) (bitW 5))
/-- TMR_GSTART (R275). -/
def execTmrGstart (mask : Word) (s : State) : Host.Outcome State Fault Refusal := .next (s.wcMask mask .start)
/-- TMR_GSTOP (R275). -/
def execTmrGstop (mask : Word) (s : State) : Host.Outcome State Fault Refusal := .next (s.wcMask mask .stop)
/-- TMR_GRESET (R275). -/
def execTmrGreset (mask : Word) (s : State) : Host.Outcome State Fault Refusal := .next (s.wcMask mask .reset)
/-- ARMED_START (R275): the Time Base is at or above WC_AT of an armed counter. -/
def execArmedStart (m : WcId) (s : State) : Host.Outcome State Fault Refusal :=
  .next (if s.tmrOn && s.rbit (Reg.wcStat m) 5 && decide (s.wcAt m ≤ s.fc) && decide ((s.wc m).armAt < s.now)
    then (s.clrReg (Reg.wcStat m) (bitW 5)).wcByEvent m [.start] else s)
/-- PERIOD_WRITE (R272). -/
def execPeriodWrite (m : WcId) (value : Word) (s : State) : Host.Outcome State Fault Refusal := .next (s.wcPeriod m value)
/-- COMPARE_WRITE (R273). -/
def execCompareWrite (m : WcId) (k : ChId) (value : Word) (s : State) : Host.Outcome State Fault Refusal :=
  .next (s.wcCompare m k value)
/-- LINK_TARGET_WRITE (R279). -/
def execLinkTargetWrite (m : WcId) (value : Word) (s : State) : Host.Outcome State Fault Refusal :=
  .next (s.wcLinkWrite m value)
/-- WC_COUNT_READ (R277, R278). -/
def execWcCountRead (m : WcId) (s : State) : Host.Outcome State Fault Refusal :=
  .next { (s.wcRead m).2 with rdata := [(s.wcRead m).1] }
/-- CAPTURE_EDGE (R27, R280, R281): a level that does not hold for CAP_CFG.FILT + 1 samples is discarded. -/
def execCaptureEdge (n : WcId) (rising : Bool) (edge : RawEdge) (s : State) : Host.Outcome State Fault Refusal :=
  .next (if s.tmrOn && !s.broken (.capture n) && decide (s.rfld (Reg.capCfg n) 16 4 < edge.held) then s.capEdge n rising edge.ts else s)
/-- CAPTURE_READ (R281). -/
def execCaptureRead (n : WcId) (falling : Bool) (s : State) : Host.Outcome State Fault Refusal :=
  .next { (s.capRead n falling).2 with rdata := [(s.capRead n falling).1] }

end Sys2Proof.Machine
end

