-- ==== Sys2Proof/Machine/Phase.lean ====
section
/-! DEFINITION. What an Angle Base reports: phase, velocity, direction, validity and clamp (R24–R31, R44–R47), and the prediction of
the time at which it reaches a phase (R65). -/

namespace Sys2Proof.Machine

/-- The sources of AB_CFG.SRC; values 7–15 act as off (R54). -/
def State.abSrc (s : State) (b : BaseId) : Nat :=
  let v := s.rfld (Reg.abCfg b) 0 4
  if v ≤ 6 then v else 0

/-- AB_CTL.EN. -/
def State.abEn (s : State) (b : BaseId) : Bool := s.rbit (Reg.abCtl b) 0
/-- AB_STAT.VALID and DIR, and whether the base refused its configuration (R33, R39). -/
def State.abStored (s : State) (b : BaseId) : Bool := s.rbit (Reg.abStat b) 0
def State.abRev (s : State) (b : BaseId) : Bool := s.rbit (Reg.abStat b) 1
def State.abBad (s : State) (b : BaseId) : Bool := (s.base b).refused

/-- The delay D of a received base (R55). -/
def State.abDelay (s : State) (b : BaseId) : DWord := (s.reg (Reg.abSrc2 b)).setWidth 64

/-- The held snapshot that a received base uses at Time Base `t` fc: the newest taken at or before t − D, else the oldest held
(R45). Its flag says whether one qualified. -/
def State.abSnap (s : State) (b : BaseId) (t : DWord) : Option (Snap × Bool) :=
  let d := t.toNat - (s.abDelay b).toNat
  match (s.base b).snaps.find? (fun x => decide (x.t.toNat ≤ d)) with
  | some x => some (x, true)
  | none => (s.base b).snaps.getLast?.map fun x => (x, false)

/-- The extrapolated advance from a point at time `t0`, in fraction units, `dt` steps later (R29). -/
def advance (v : DWord) (dt : Int) : Int := Int.fdiv (v.toInt * dt) (2 ^ 35)

/-- The advance held at a clamp limit in the direction of motion, and whether it has reached it (R29). -/
def clampTo (rev : Bool) (adv lim : Int) : Int × Bool :=
  if rev then (max adv lim, decide (adv ≤ lim)) else (min adv lim, decide (lim ≤ adv))

/-- Phase and CLAMP of base `b` at a time in 125 ps steps (R29, R31, R41, R45, R47). A disabled or refused base reports 0 (R50). -/
def State.phaseAt (s : State) (b : BaseId) (t : Stamp) : DWord × Bool :=
  let x := s.base b
  if !s.abEn b || s.abBad b then (0, false)
  else
    match s.abSrc b with
    | 0 => (0, false)
    | 6 =>
      let n : Int := ((t >>> 3).toNat : Int) - s.fc.toNat
      (((x.acc + BitVec.ofInt 96 (n * x.v.toInt)) >>> 32).truncate 64, false)
    | 5 =>
      match x.still with
      | some p => (p, false)
      | none =>
        match s.abSnap b (t >>> 3) with
        | none => (0, false)
        | some (n, false) => (n.phase, false)
        | some (n, true) =>
          let dt : Int := ((t >>> 3).toNat : Int) - (s.abDelay b).toNat - n.t.toNat
          let c := clampTo n.dir (advance n.vel (dt * 8)) (n.limit - n.phase).toInt
          (n.phase + BitVec.ofInt 64 c.1, c.2)
    | _ =>
      match x.still with
      | some p => (p, false)
      | none =>
        let rev := s.abRev b
        let c := clampTo rev (advance x.v (t - x.ref.t).toInt) (x.limit - x.ref.p).toInt
        let p := x.ref.p + BitVec.ofInt 64 c.1
        match x.floor with
        | none => (p, c.2)
        | some f => (if (if rev then decide (0 < (p - f).toInt) else decide ((p - f).toInt < 0)) then f else p, c.2)

/-- The phase now (R25). DESIGN CHOICE (log 101): R29 counts dt to a whole fc, and after a slew the Time Base stands between two; phase
and velocity are evaluated at the Time Base with its 3-bit sub-cycle fraction. -/
def State.phase (s : State) (b : BaseId) : DWord := (s.phaseAt b s.stamp).1

/-- A velocity bounded by the span to the next unreported point over the `dt` steps since the last event, once these exceed the interval
between the last two events; 0 stands for no interval (R30). -/
def overdue (v : DWord) (ivl dt : Int) (span : Nat) : DWord :=
  if ivl = 0 ∨ dt ≤ ivl then v
  else
    let r : Int := Int.fdiv ((span : Int) * 2 ^ 35) dt
    if v.toInt.natAbs ≤ r.natAbs then v
    else if v.toInt < 0 then BitVec.ofInt 64 (-r) else BitVec.ofInt 64 r

/-- The interval from the held snapshot before `n` to `n`, in steps; 0 where none is held (R30). -/
def snapIvl (l : List Snap) (n : Snap) : Int :=
  match l.find? (fun x => decide (x.t.toNat < n.t.toNat)) with
  | some x => 8 * ((n.t.toNat : Int) - x.t.toNat)
  | none => 0

/-- The distance from a phase to the next unreported point, one unit beyond the clamp limit. -/
def spanTo (limit p : DWord) : Nat := (limit - p).toInt.natAbs + 1

/-- The reported velocity at a time (R30): an overdue event bounds it by the span to the next unreported point. The events of a received
base are its snapshots. DESIGN CHOICE (log 101): a received base reports velocity 0 while no held snapshot qualifies; R45 gives the phase
of that case only. -/
def State.velAt (s : State) (b : BaseId) (t : Stamp) : DWord :=
  let x := s.base b
  if !s.abEn b || s.abBad b then 0
  else
    match s.abSrc b with
    | 0 => 0
    | 6 => x.v
    | 5 =>
      if x.still.isSome then 0
      else
        match s.abSnap b (t >>> 3) with
        | some (n, true) =>
          overdue n.vel (snapIvl x.snaps n) (8 * (((t >>> 3).toNat : Int) - (s.abDelay b).toNat - n.t.toNat)) (spanTo n.limit n.phase)
        | _ => 0
    | _ => if x.still.isSome then 0 else overdue x.v x.ivl.toInt (t - x.ref.t).toInt (spanTo x.limit x.ref.p)

/-- DIR of a base (R34, R45); a virtual master moves as its velocity does. -/
def State.abReverse (s : State) (b : BaseId) : Bool :=
  match s.abSrc b with
  | 5 => match s.abSnap b s.fc with | some (n, _) => n.dir | none => false
  | 6 => (s.base b).v.msb
  | _ => s.abRev b

/-- VALID of a base: stored, and for a received base that of the snapshot while the Time Base is synchronised (R45). -/
def State.abValid (s : State) (b : BaseId) : Bool :=
  s.abEn b &&
  (match s.abSrc b with
   | 5 => s.syncd && s.abStored b &&
       (match s.abSnap b s.fc with | some (n, _) => n.valid | none => false)
   | _ => s.abStored b)

/-- LOCK of a base (R31, R43, R54). -/
def State.abLock (s : State) (b : BaseId) : Bool :=
  (s.abSrc b == 4 || s.abSrc b == 5) && s.rbit (Reg.abStat b) 3

/-- Ceiling division by a positive number. -/
def ceilDiv (a b : Int) : Int := -(Int.fdiv (-a) b)

/-- The time at which base `b` reaches phase `p` (R65): due now, predicted from the last event, or none. -/
def State.predict (s : State) (b : BaseId) (p : DWord) : Option Stamp :=
  let v := (s.velAt b s.stamp).toInt
  if s.abReverse b || !s.abValid b || v ≤ 0 then none
  else if (p - s.phase b).toInt ≤ 0 then some s.stamp
  else
    let x := s.base b
    match s.abSrc b with
    | 6 =>
      let d : Int := (p - s.phase b).toInt * 2 ^ 32 - (x.acc.toNat % 2 ^ 32 : Nat)
      some (stampOf s.fc + BitVec.ofInt 64 (ceilDiv (d * 8) v))
    | 5 =>
      match s.abSnap b s.fc with
      | some (n, true) =>
        if 1 < (p - n.limit).toInt then none
        else some (((n.t + s.abDelay b) <<< 3) + BitVec.ofInt 64 (ceilDiv ((p - n.phase).toInt * 2 ^ 35) v))
      | _ => none
    | _ =>
      if 1 < (p - x.limit).toInt then none
      else some (x.ref.t + BitVec.ofInt 64 (ceilDiv ((p - x.ref.p).toInt * 2 ^ 35) v))

end Sys2Proof.Machine
end

