-- ==== Sys2Proof/Machine/Angle.lean ====
section
/-! DEFINITION. The Angle Bases: events of their sources, index events, illegal transitions, silence, staged changes, enable,
lockstep (R24–R51, R55, R56), and what a change of validity or a step of the phase means for the ring of the base (R59, R72, R73). -/

namespace Sys2Proof.Machine

/-! The ring of the base -/

/-- The first slot from `slot` on, among `n`, whose FRAC lies above a fraction. -/
def State.firstAbove (s : State) (frac : Word) (slot : Nat) : Nat → Option Nat
  | 0 => none
  | n + 1 => if frac < s.memWord (slotAddr slot 0) then some slot else s.firstAbove frac (slot + 1) n

/-- The walker of ring `r` takes the resync position (R59). -/
def State.resync (s : State) (r : BaseId) : State :=
  let p := s.phase r
  let base := s.rfld (Reg.almRbase r) 0 14
  let pos := match s.firstAbove (loW p) base (s.rfld (Reg.almRlen r) 0 15) with
    | some k => (k, hiW p)
    | none => (base, hiW p + 1)
  let s := s.setRing r { s.ring r with look := [], stepTo := none, stepN := none }
  ((s.setReg (Reg.almRnext r) (BitVec.ofNat 32 pos.1)).setReg (Reg.almRturn r) pos.2).orReg Reg.almStat (bitW 15)

/-- The Almanac and ring `r` are enabled. -/
def State.ringOn (s : State) (r : BaseId) : Bool := s.rbit Reg.almCtl 0 && s.rbit (Reg.almRctl r) 0 && !s.leaving

/-- Loss of VALID puts the ring's output group in its safe state where INVSAFE asks for it (R72). -/
def State.invSafe (s : State) (r : BaseId) : State :=
  if s.ringOn r && s.rbit (Reg.almRctl r) 2 && !s.abValid r then s.groupSafe (s.rfld (Reg.almRctl r) 8 3) else s

/-- A step of the phase by `d` units as the ring sees it (R73): forward, the entries up to the new phase are passed; by more than a
turn, one pass of the ring and then a resync. -/
def State.ringStep (s : State) (r : BaseId) (d : Int) : State :=
  if s.ringOn r = false then s
  else if d ≤ 0 then s.setRing r { s.ring r with stepTo := none, stepN := none }
  else s.setRing r { s.ring r with
    stepTo := some (s.phase r), stepN := if 2 ^ 32 < d then some (s.rfld (Reg.almRlen r) 0 15) else none }

/-- What the Almanac sees of a change of base `b` from state `old`: loss of VALID, its return, or a step (R72, R73). -/
def State.almSees (s old : State) (b : BaseId) (step : Bool) : State :=
  if old.abValid b && !s.abValid b then s.invSafe b
  else if !old.abValid b && s.abValid b then (if s.ringOn b then s.resync b else s)
  else if s.abValid b && step then s.ringStep b (s.phase b - old.phase b).toInt
  else s

/-- What the Almanac sees of every base where the Time Base or its synchronisation has changed (R45, R59, R72). -/
def State.almSeesAll (s old : State) : State := forAll (fun (b : BaseId) s => s.almSees old b false) s

/-! Events (R28) -/

/-- The velocity of a window, newest event first; none while it holds fewer than two events (R28). -/
def windowVel (w : List Ev) : Option DWord :=
  match w, w.getLast? with
  | e :: _ :: _, some o =>
    let dt := (e.t - o.t).toInt
    if dt ≤ 0 then none
    else some (BitVec.ofInt 64 (max (-2 ^ 63) (min (Int.tdiv ((e.p - o.p).toInt * 2 ^ 35) dt) (2 ^ 63 - 1))))
  | _, _ => none

/-- The events of the window of AB_CFG.WIN (R28). -/
def State.abWin (s : State) (b : BaseId) : Nat := let w := s.rfld (Reg.abCfg b) 8 3; if w = 7 then 64 else 2 ^ w

/-- An event of base `b` with phase `p` at time `t` and a new clamp limit. `empty`: a change of direction, which empties the
window; `due`: the fc in which the velocity updates, or at once (R27–R31). -/
def State.baseEvent (s : State) (b : BaseId) (p limit : DWord) (t : Stamp) (empty : Bool) (due : Option DWord) : State :=
  let x := s.base b
  let resume := x.still.isSome
  let clear := empty || resume
  let win := ((⟨p, t⟩ : Ev) :: (if clear then [] else x.win)).take (s.abWin b + 1)
  let x' := { x with
    win := win, ref := ⟨p, t⟩, last := some t, limit := limit, still := none, floor := none
    ivl := match x.last with | some l => t - l | none => 0
    v := if clear then 0 else match due, windowVel win with | none, some v => v | _, _ => x.v
    vq := if clear then [] else match due, windowVel win with | some c, some v => x.vq ++ [(c, v)] | _, _ => x.vq }
  let s := s.setBase b x'
  if resume then s.orReg (Reg.abStat b) (bitW 11) else s

/-- The fc of the sample that first sees a transition at time `t` (R27). -/
def sampleFc (t : Stamp) : DWord := (t + 7) >>> 3

/-- AB_CFG.FILT (R27). -/
def State.abFilt (s : State) (b : BaseId) : Nat := s.rfld (Reg.abCfg b) 16 4

/-- The fc in which the velocity, and the one in which the phase, shows an edge (R27). -/
def State.velDue (s : State) (b : BaseId) (t : Stamp) : DWord := sampleFc t + BitVec.ofNat 64 (s.abFilt b + 28)
def State.edgeDue (s : State) (b : BaseId) (t : Stamp) : DWord := sampleFc t + BitVec.ofNat 64 (s.abFilt b + 4)

/-! Counting sources (R33–R37) -/

/-- AB_CPT. -/
def State.cpt (s : State) (b : BaseId) : Nat := s.rfld (Reg.abCpt b) 0 28

/-- The position of count `c` within a turn, as a phase in turn `turn`; count CPT is the start of the next turn (R33). -/
def fracOf (cpt c : Nat) (turn : Word) : DWord := dword turn 0 + BitVec.ofNat 64 (c * 2 ^ 32 / cpt)

/-- The phase of a transition into count `c`, and the clamp limit after it (R34). -/
def countPhase (cpt c : Nat) (turn : Word) (rev : Bool) : DWord := fracOf cpt (if rev then c + 1 else c) turn
def countLimit (cpt c : Nat) (turn : Word) (rev : Bool) : DWord :=
  if rev then fracOf cpt c turn + 1 else fracOf cpt (c + 1) turn - 1

/-- The index mode in force: pulse and direction has none (R35, R37). -/
def State.zmode (s : State) (b : BaseId) : Nat :=
  if s.abSrc b = 3 ∧ s.rfld (Reg.abCfg b) 4 2 = 1 then 0 else s.rfld (Reg.abCfg b) 6 2

/-- An illegal transition (R36). -/
def State.illegal (s : State) (b : BaseId) : State :=
  let n := min (s.rfld (Reg.abIllcnt b) 0 16 + 1) 0xFFFF
  let old := s
  let s := s.setReg (Reg.abIllcnt b) (BitVec.ofNat 32 n)
  let s := if s.rbit (Reg.abStat b) 8 then s else s.log 0x08 b.val n (s.reg (Reg.abCount b))
  let s := s.orReg (Reg.abStat b) (bitW 8)
  if s.rbit (Reg.abCfg b) 11 then
    ((s.clrReg (Reg.abStat b) (bitW 0)).modBase b fun x => { x with homed := false }).almSees old b false
  else s

/-- A counted transition of a quadrature or timed base (R34, R35). -/
def State.countEvent (s : State) (b : BaseId) (fwd : Bool) (t : Stamp) : State :=
  let old := s
  let x := s.base b
  let cpt := s.cpt b
  let c := s.rfld (Reg.abCount b) 0 28
  let nat : Nat × Word :=
    if fwd then (if c + 1 = cpt then (0, x.turn + 1) else (c + 1, x.turn))
    else (if c = 0 then (cpt - 1, x.turn - 1) else (c - 1, x.turn))
  let zm := s.zmode b
  let index := x.idx && zm != 0
  let first := (zm == 1 || zm == 2) && !x.homed
  let d : Int := if 2 * nat.1 < cpt then nat.1 else (nat.1 : Int) - cpt
  let realign := index && (zm == 2 || first)
  let s := if index && decide (d ≠ 0) then
      (s.orReg (Reg.abStat b) (bitW 9)).setReg (Reg.abZdev b) (BitVec.ofInt 32 d) else s
  let fin : Nat × Word :=
    if realign then
      (0, if fwd && decide (cpt ≤ 2 * nat.1) then nat.2 + 1
          else if !fwd && decide (2 * nat.1 < cpt) then nat.2 - 1 else nat.2)
    else nat
  let step := realign && decide (d ≠ 0)
  let s := if step then s.orReg (Reg.abStat b) (bitW 15) else s
  let s := if index && first then s.orReg (Reg.abStat b) (bitW 0) else s
  let change := s.abRev b == fwd
  let s := s.putBit (Reg.abStat b) 1 (!fwd)
  let s := s.setReg (Reg.abCount b) (BitVec.ofNat 32 fin.1)
  let s := s.modBase b fun x => { x with turn := fin.2, idx := false, homed := x.homed || (index && first) }
  let s := s.baseEvent b (countPhase cpt fin.1 fin.2 (!fwd)) (countLimit cpt fin.1 fin.2 (!fwd)) t change (some (s.velDue b t))
  s.almSees old b step

/-- A counted transition, or the illegal one that an injection makes of it (R55). -/
def State.counted (s : State) (b : BaseId) (fwd : Bool) (t : Stamp) : State :=
  if (s.base b).injIll then (s.modBase b fun x => { x with injIll := false }).illegal b else s.countEvent b fwd t

/-- The base takes events of source `src`: enabled, configured and of that source. -/
def State.takes (s : State) (b : BaseId) (src : Nat) : Bool :=
  s.abEn b && s.abSrc b == src && !s.abBad b && s.tmrOn

/-- A change of the filtered quadrature inputs (R33–R36). A change of Z is taken first. -/
def State.quadrature (s : State) (b : BaseId) (ev : QuadEdge) : State :=
  let x := s.base b
  let ca := x.a != ev.a
  let cb := x.b != ev.b
  let s := s.setBase b { x with a := ev.a, b := ev.b, z := ev.z,
                                idx := if x.z != ev.z then ev.z else x.idx }
  let dec := s.rfld (Reg.abCfg b) 4 2
  if !s.takes b 1 then s
  else if ca && cb then s.illegal b
  else if ca then (if dec != 0 || !ev.b then s.counted b (ev.a != ev.b) ev.ts else s)
  else if cb then (if 2 ≤ dec then s.counted b (ev.a == ev.b) ev.ts else s)
  else s

/-- A rising T0 edge (R37): always forward, or in the direction that T1 gives. -/
def State.timedT0 (s : State) (b : BaseId) (t : Stamp) (t1 : Bool) : State :=
  if !s.takes b 3 then s else s.counted b (!(s.rfld (Reg.abCfg b) 4 2 == 1 && t1)) t

/-- A rising T1 edge (R37): the next rising T0 edge is an index event, except in pulse-and-direction mode. DESIGN CHOICE (log 126): one
that comes while the base is disabled gives none after the enable. -/
def State.timedT1 (s : State) (b : BaseId) : State :=
  if s.takes b 3 && s.rfld (Reg.abCfg b) 4 2 != 1 then s.modBase b fun x => { x with idx := true } else s

/-! SSI (R38–R41) -/

/-- The fields of AB_SRC1 and AB_SRC2 of an SSI base (R55). -/
def State.ssiBits (s : State) (b : BaseId) : Nat := s.rfld (Reg.abSrc1 b) 0 6
def State.ssiTurns (s : State) (b : BaseId) : Nat := s.rfld (Reg.abSrc1 b) 6 6
def State.ssiHalf (s : State) (b : BaseId) : Nat := max 10 (s.rfld (Reg.abSrc1 b) 20 12)

/-- AB_SRC2.PERIOD of an SSI base (R38). -/
def State.ssiPeriod (s : State) (b : BaseId) : Nat := s.rfld (Reg.abSrc2 b) 0 20

/-- The configuration that R39 refuses. -/
def State.ssiBad (s : State) (b : BaseId) : Bool :=
  let n := s.ssiBits b
  let m := s.ssiTurns b
  decide (n < 8 ∨ 40 < n ∨ 24 < m ∨ n < m + 1 ∨ m + 32 < n ∨ s.ssiPeriod b < (2 * n + 4) * s.ssiHalf b)

/-- A frame starts: PERIOD fc after the start of the last one, or at once after the enable (R38). -/
def State.ssiStart (s : State) (b : BaseId) : State :=
  let due := match (s.base b).frameAt with | some f => decide (f + s.ssiPeriod b ≤ s.now) | none => true
  if s.takes b 2 && due then s.modBase b fun x => { x with ssiRun := true, frameAt := some s.now } else s

/-- The level that SSI clock driver `n` drives (R38, R370, R451): nothing before the image applies and while its rail is down, high
outside the frames of its base and while that is disabled, and in a frame NBITS + 1 periods that begin low. DESIGN CHOICE (log 102): the
first falling edge stands at the start of the frame, and one period follows the last bit; R38 fixes neither. -/
def State.sckLevel (s : State) (n : BaseId) : PinLevel :=
  match s.image with
  | none => .z
  | some g =>
    if s.power = .off ∨ s.power = .stopped then .z
    else
      match g.scks.find? (fun x => x.sck == n) with
      | none => .high
      | some x =>
        match (s.base x.base).frameAt with
        | none => .high
        | some f =>
          let k := (s.now - f) / s.ssiHalf x.base
          if s.takes x.base 2 && (s.base x.base).ssiRun && decide (k < 2 * (s.ssiBits x.base + 1)) && k % 2 == 0 then .low else .high

/-- Gray code to binary: each bit is the parity of the bits at and above it. -/
def grayBits (w : Nat) : Nat → Nat
  | 0 => 0
  | n + 1 =>
    let hi := grayBits (w / 2) n
    2 * hi + (hi + w) % 2

/-- An accepted SSI sample (R40, R41). At a resume the phase is that of the sample (R31). DESIGN CHOICE (log 101): the first sample has no
p[e−1], and its limit takes |p[e] − p[e−1]| as 0. -/
def State.ssiEvent (s : State) (b : BaseId) (raw : SsiWord) : State :=
  let old := s
  let x := s.base b
  let n := s.ssiBits b
  let m := s.ssiTurns b
  let st := n - m
  let w0 := raw.word.toNat % 2 ^ n
  let w := if s.rbit (Reg.abSrc1 b) 12 then grayBits w0 n else w0
  let t := raw.clock + BitVec.ofNat 64 (s.rfld (Reg.abSrc2 b) 20 12 * 8)
  let unit : Int := 2 ^ (32 - st)
  match x.ssi with
  | none =>
    let p := dword (BitVec.ofNat 32 (w / 2 ^ st)) (BitVec.ofNat 32 (w % 2 ^ st * 2 ^ (32 - st))) + x.offs
    let s := (s.orReg (Reg.abStat b) (bitW 0)).modBase b fun x => { x with ssi := some (BitVec.ofNat 40 w) }
    (s.baseEvent b p (p + BitVec.ofInt 64 (unit + 1)) t false none).almSees old b false
  | some q =>
    let r := (w + 2 ^ n - q.toNat % 2 ^ n) % 2 ^ n
    let d : Int := if 2 ^ (n - 1) ≤ r then (r : Int) - 2 ^ n else r
    let rev := if d < 0 then true else if 0 < d then false else s.abRev b
    let change := rev != s.abRev b
    let p := x.ref.p + BitVec.ofInt 64 (d * unit)
    let far : Int := (d * unit).natAbs + unit + 1
    let seen := s.phase b
    let behind := if rev then decide (0 < (p - seen).toInt) else decide ((p - seen).toInt < 0)
    let s := (s.putBit (Reg.abStat b) 1 rev).modBase b fun x => { x with ssi := some (BitVec.ofNat 40 w) }
    let s := s.baseEvent b p (p + BitVec.ofInt 64 (if rev then -far else far)) t change none
    let s := if behind && !change && x.still.isNone then s.modBase b fun x => { x with floor := some seen } else s
    s.almSees old b false

/-- The end of an SSI frame (R38): checked, and rejected with REJ or taken. DESIGN CHOICE (log 126): an injection written while a frame
runs takes that frame as the next one (R55). -/
def State.ssiSample (s : State) (b : BaseId) (raw : SsiWord) : State :=
  if !s.takes b 2 || !(s.base b).ssiRun then s
  else
    let rej := (s.base b).injRej
    let s := s.modBase b fun x => { x with ssiRun := false, injRej := false }
    if rej || !raw.startHigh || !raw.endLow then s.orReg (Reg.abStat b) (bitW 14) else s.ssiEvent b raw

/-! Mains (R42, R43) -/

/-- The bounds between accepted crossings, in steps (R42). -/
def State.mainsLo (s : State) (b : BaseId) : Nat := 8 * if s.rbit (Reg.abSrc1 b) 4 then 7500000 else 15000000
def State.mainsHi (s : State) (b : BaseId) : Nat := 8 * if s.rbit (Reg.abSrc1 b) 4 then 11250000 else 22500000

/-- A crossing counts as rejected; after four in a row LOCK clears (R42, R43). -/
def State.mainsReject (s : State) (b : BaseId) : State :=
  let n := (s.base b).bad + 1
  let s := (s.orReg (Reg.abStat b) (bitW 14)).modBase b fun x => { x with good := 0, bad := n }
  if 4 ≤ n then s.clrReg (Reg.abStat b) (bitW 3) else s

/-- An accepted crossing (R43). -/
def State.mainsAccept (s : State) (b : BaseId) (rising : Bool) (t prev : Stamp) : State :=
  let old := s
  let x := s.base b
  let both := s.rbit (Reg.abSrc1 b) 4
  let span : Int := if both then 2 ^ 31 else 2 ^ 32
  let k := min 8 (s.rfld (Reg.abSrc1 b) 0 4)
  let vm : Int := Int.tdiv (span * 2 ^ 35) (t - prev).toInt
  let v0 : Int := match x.vq.getLast? with | some q => q.2.toInt | none => x.v.toInt
  let v := BitVec.ofInt 64 (v0 + Int.fdiv (vm - v0) (2 ^ k))
  let turn := if rising then x.turn + 1 else x.turn
  let p := dword turn (if rising then 0 else 0x8000_0000)
  let limit := p + (if both then 0x7FFF_FFFF else 0xFFFF_FFFF)
  let good := x.good + 1
  let resume := x.still.isSome
  let s := s.setBase b { x with
    ref := ⟨p, t⟩, last := some t, ivl := t - prev, limit := limit, still := none, turn := turn, cross := some t, expect := t
    vq := x.vq ++ [(s.velDue b t, v)], good := good, bad := 0 }
  let s := if resume then s.orReg (Reg.abStat b) (bitW 11) else s
  let s := if good = 8 then s.orReg (Reg.abStat b) (bitW 3) else s
  let s := if good = 8 && !x.homed then (s.orReg (Reg.abStat b) (bitW 0)).modBase b fun x => { x with homed := true } else s
  s.almSees old b false

/-- A zero crossing (R42): ignored while blanked or where falling crossings are not used; the first one only gives the reference. DESIGN
CHOICE (log 101): one past the upper bound, which is rejected, is the new reference. DESIGN CHOICE (log 126): blanking counts from a
crossing that is only taken as the reference too. -/
def State.mainsCrossing (s : State) (b : BaseId) (rising : Bool) (t : Stamp) : State :=
  let x := s.base b
  if !s.takes b 4 || (!rising && !s.rbit (Reg.abSrc1 b) 4) then s
  else
    match x.cross with
    | none => s.modBase b fun x => { x with cross := some t, expect := t }
    | some prev =>
      let d := (t - prev).toNat
      if d ≤ s.rfld (Reg.abSrc1 b) 8 16 * 8000 then s
      else if s.mainsLo b ≤ d ∧ d ≤ s.mainsHi b then s.mainsAccept b rising t prev
      else
        let s := s.mainsReject b
        if s.mainsHi b < d then s.modBase b fun x => { x with cross := some t, expect := t } else s

/-- No crossing by the upper bound: it counts as rejected, and so does each further one that the bound misses (R42). -/
def State.mainsTimeout (s : State) (b : BaseId) : State :=
  let x := s.base b
  if !s.takes b 4 || x.cross.isNone || decide ((s.stamp - x.expect).toNat ≤ s.mainsHi b) then s
  else (s.mainsReject b).modBase b fun x => { x with expect := x.expect + BitVec.ofNat 64 (s.mainsHi b) }

/-! Input edges (R27) -/

/-- An accepted change of an input has its effect. -/
def State.edgeDo (s : State) (b : BaseId) (k : BaseEdge) : State :=
  match k with
  | .quad ev => s.quadrature b ev
  | .t0 t t1 => s.timedT0 b t t1
  | .t1 => s.timedT1 b
  | .mains rising t => s.mainsCrossing b rising t

/-- An edge joins those that wait; a rising T1 edge goes before what is accepted in its fc (R37). -/
def waitEdge (l : List (DWord × BaseEdge)) (due : DWord) (k : BaseEdge) : List (DWord × BaseEdge) :=
  match k with
  | .t1 => l.filter (fun p => decide (p.1 < due)) ++ (due, k) :: l.filter fun p => !decide (p.1 < due)
  | _ => l ++ [(due, k)]

/-- The levels of A, B and Z as the base has last accepted them. -/
def State.quadLevels (s : State) (b : BaseId) : Bool × Bool × Bool :=
  let x := s.base b
  x.edges.foldl (fun l p => match p.2 with | .quad ev => (ev.a, ev.b, ev.z) | _ => l) (x.a, x.b, x.z)

/-- A change of the quadrature inputs as it passes the receivers: one with a line break holds its last level (R369). -/
def State.received (s : State) (b : BaseId) (ev : QuadEdge) : QuadEdge :=
  let l := s.quadLevels b
  { ev with a := if s.broken (.base b 0) then l.1 else ev.a, b := if s.broken (.base b 1) then l.2.1 else ev.b,
            z := if s.broken (.base b 2) then l.2.2 else ev.z }

/-- What the SSI data line gives through its receiver: with a line break it keeps the level from before the frame (R369). -/
def State.receivedSsi (s : State) (b : BaseId) (raw : SsiWord) : SsiWord :=
  if s.broken (.base b 5) then { raw with word := if raw.startHigh then ~~~0 else 0, endLow := !raw.startHigh } else raw

/-- A change of an input whose new level `held` samples in a row see: discarded where these are fewer than FILT + 1; else it has its
effect in fc c + FILT + 4, for which it waits where that is still to come (R27). -/
def State.edgeIn (s : State) (b : BaseId) (t : Stamp) (held : Nat) (k : BaseEdge) : State :=
  if held ≤ s.abFilt b then s
  else if s.fc < s.edgeDue b t then s.modBase b fun x => { x with edges := waitEdge x.edges (s.edgeDue b t) k }
  else s.edgeDo b k

/-- The edges whose fc has come have their effect, in the order of their acceptance (R27). DESIGN CHOICE (log 126): one that waits as the
base is enabled has its effect after the enable. -/
def State.edgesDue (s : State) (b : BaseId) : State :=
  let due := (s.base b).edges.takeWhile fun p => decide (p.1 ≤ s.fc)
  due.foldl (fun s p => s.edgeDo b p.2) (s.modBase b fun x => { x with edges := x.edges.drop due.length })

/-! Received bases (R45) -/

/-- A snapshot reaches a received base, which holds the last four, newest first (R334); one that is later than T + D sets LATE, and a
change that it causes against the motion is a step (R32, R45). DESIGN CHOICE (log 101): AB_EDGE and the silence count take the time of its
arrival, not its T. -/
def State.snapArrive (s : State) (b : BaseId) (n : Snap) : State :=
  if !s.takes b 5 then s
  else
    let old := s
    let late := decide ((n.t + s.abDelay b).toNat < s.fc.toNat)
    let resume := (s.base b).still.isSome
    let ins (l : List Snap) : List Snap :=
      (l.takeWhile fun q => decide (n.t.toNat < q.t.toNat)) ++ n :: l.dropWhile fun q => decide (n.t.toNat < q.t.toNat)
    let s := s.modBase b fun x => { x with snaps := (ins x.snaps).take 4, last := some s.stamp, still := none }
    let s := (s.orReg (Reg.abStat b) (bitW 3)).orReg (Reg.abStat b) (if late then bitW 13 else 0)
    let s := if resume then s.orReg (Reg.abStat b) (bitW 11) else s
    let d := (s.phase b - old.phase b).toInt
    let step := late && (if s.abReverse b then decide (0 < d) else decide (d < 0))
    (if step then s.orReg (Reg.abStat b) (bitW 15) else s).almSees old b step

/-! Silence, presets, enable -/

/-- The fc of the last event, or of the enable (R31). -/
def State.lastFc (s : State) (b : BaseId) : Nat :=
  match (s.base b).last with | some t => (t >>> 3).toNat | none => (s.base b).since.toNat

/-- Silence (R31). A run of accepted mains crossings ends with it (R43). DESIGN CHOICE (log 126): a base without a source or with a refused
configuration runs no silence timeout. -/
def State.silence (s : State) (b : BaseId) : State :=
  let silt := (s.reg (Reg.abSilt b)).toNat
  if !s.abEn b || s.abBad b || s.abSrc b == 0 || s.abSrc b == 6 || silt == 0 || (s.base b).still.isSome
      || decide (s.fc.toNat < s.lastFc b + silt) then s
  else
    let p := s.phase b
    let lock := s.abSrc b == 4 || s.abSrc b == 5
    let s := (s.orReg (Reg.abStat b) (bitW 10)).modBase b fun x => { x with still := some p, v := 0, vq := [], good := 0 }
    if lock then s.clrReg (Reg.abStat b) (bitW 3) else s

/-- The velocity of a virtual master one fc later (R47). -/
def vmStep (v vt : DWord) (a : Word) : DWord :=
  if a = 0 then vt
  else if v.toInt < vt.toInt then BitVec.ofInt 64 (min (v.toInt + a.toNat) vt.toInt)
  else if vt.toInt < v.toInt then BitVec.ofInt 64 (max (v.toInt - a.toNat) vt.toInt)
  else v

/-- One fc of a virtual master (R47), unless a load of AB_PRE has taken its place in this fc or it has been made (R48). -/
def State.vmAccumulate (s : State) (b : BaseId) : State :=
  if !s.takes b 6 || (s.base b).vmAt == some s.now then s
  else s.modBase b fun x =>
    let v := if x.va = 0 then x.v else vmStep x.v x.vt x.va
    { x with v := v, acc := x.acc + v.signExtend 96, vmAt := some s.now, vmV := x.v }

/-- AB_PRE and AB_AT. -/
def State.abPre (s : State) (b : BaseId) : DWord := dword (s.reg (Reg.abPreHi b)) (s.reg (Reg.abPreLo b))
def State.abAt (s : State) (b : BaseId) : DWord := dword (s.reg (Reg.abAtHi b)) (s.reg (Reg.abAtLo b))

/-- A staged change of a virtual master (R47, R48). A load of AB_PRE takes the place of the accumulation of its fc, and its velocity
step starts from the velocity before that. -/
def State.applyVirtual (s : State) (b : BaseId) (withph : Bool) : State :=
  let old := s
  let x := s.base b
  let vt := dword (s.reg (Reg.abSrc2 b)) (s.reg (Reg.abSrc1 b))
  let va := s.reg (Reg.abVmacc b)
  if !withph then s.setBase b { x with vt := vt, va := va, v := if va = 0 then vt else x.v }
  else
    let v := if x.vmAt = some s.now then x.vmV else x.v
    let s := s.setBase b { x with
      vt := vt, va := va, v := vmStep v vt va, acc := ((s.abPre b).zeroExtend 96) <<< 32, vmAt := some s.now, vmV := v }
    (s.orReg (Reg.abStat b) (bitW 15)).almSees old b true

/-- A preset of a counting base (R36, R48). In silence the loaded phase is the one that is held, and the next event still resumes
(R31). -/
def State.applyCount (s : State) (b : BaseId) : State :=
  let old := s
  let c := (s.reg (Reg.abPreLo b)).toNat
  let turn := s.reg (Reg.abPreHi b)
  let cpt := s.cpt b
  if cpt ≤ c then s.orReg (Reg.abStat b) (bitW 4)
  else
    let rev := s.abRev b
    let back := s.abEn b && !(s.base b).homed && (s.zmode b == 0 || s.zmode b == 3)
    let p := countPhase cpt c turn rev
    let s := s.setReg (Reg.abCount b) (BitVec.ofNat 32 c)
    let s := s.modBase b fun x => { x with
      turn := turn, win := [], v := 0, vq := [], ref := ⟨p, stampOf s.fc⟩
      limit := countLimit cpt c turn rev, still := x.still.map fun _ => p, floor := none, homed := x.homed || back }
    let s := s.orReg (Reg.abStat b) (bitW 15)
    (if back then s.orReg (Reg.abStat b) (bitW 0) else s).almSees old b true

/-- An SSI offset is loaded (R40, R48). -/
def State.applySsi (s : State) (b : BaseId) : State :=
  let old := s
  let pre := s.abPre b
  let s := s.modBase b fun x =>
    let d := pre - x.offs
    if x.ssi.isNone then { x with offs := pre }
    else { x with offs := pre, win := [], v := 0, vq := [], ref := { x.ref with p := x.ref.p + d },
                  limit := x.limit + d, floor := none, still := x.still.map (· + d) }
  (s.orReg (Reg.abStat b) (bitW 15)).almSees old b true

/-- A write of APPLY or AB_APPLY arms a staged change (R48). -/
def State.stagedArm (s : State) (b : BaseId) : State :=
  (s.orReg (Reg.abStat b) (bitW 5)).modBase b fun x => { x with armAt := s.now }

/-- A staged change is due: the Time Base is at or above AB_AT, in a later fc than that of the APPLY (R48). -/
def State.stagedApply (s : State) (b : BaseId) : State :=
  if !s.rbit (Reg.abStat b) 5 || !s.tmrOn || decide (s.fc < s.abAt b) || decide (s.now ≤ (s.base b).armAt) then s
  else
    let s := s.clrReg (Reg.abStat b) (bitW 5)
    let withph := s.rbit (Reg.abCtl b) 3
    match s.abSrc b with
    | 6 => s.applyVirtual b withph
    | 2 => if withph then s.applySsi b else s
    | 1 => if withph then s.applyCount b else s
    | 3 => if withph then s.applyCount b else s
    | _ => s

/-- Setting EN from 0 to 1 (R33, R35, R39, R47, R50). A period in which Z is 1 already has the index event that it
has not had. DESIGN CHOICE (log 101), for what the list of R50 does not name: AB_EDGE reads 0 until the first event, and a virtual master's
target and acceleration and an SSI base's offset stay as they were last applied; (log 126) LOCK is cleared. -/
def State.baseEnable (s : State) (b : BaseId) : State :=
  if s.abEn b then s
  else
    let old := s
    let src := s.abSrc b
    let counting := src == 1 || src == 3
    let bad := (counting && s.cpt b == 0) || (src == 2 && s.ssiBad b)
    let s := (s.orReg (Reg.abCtl b) (bitW 0)).setReg (Reg.abCount b) 0
    let valid := !bad && ((counting && (s.zmode b == 0 || s.zmode b == 3)) || src == 5 || src == 6)
    let s := (s.clrReg (Reg.abStat b) 0x1F).orReg (Reg.abStat b) (BitVec.ofNat 32 (b2n valid + b2n bad * 16))
    let s := s.modBase b fun x => { x with
      win := [], ref := ⟨0, s.stamp⟩, last := none, ivl := 0, since := s.fc, v := 0, vq := []
      limit := if counting && !bad then countLimit (s.cpt b) 0 0 false else 0x7FFF_FFFF_FFFF_FFFF
      still := none, turn := 0, idx := src == 1 && x.z && x.idx, homed := counting && (s.zmode b == 0 || s.zmode b == 3)
      floor := none, ssi := none, ssiRun := false, frameAt := none, snaps := [], good := 0, bad := 0, cross := none, expect := s.stamp, acc := 0
      vmAt := none, lsOff := false, refused := bad }
    s.almSees old b false

/-- Clearing EN (R50). -/
def State.baseDisable (s : State) (b : BaseId) : State :=
  let old := s
  let s := (s.clrReg (Reg.abCtl b) (bitW 0)).clrReg (Reg.abStat b) (bitW 0)
  s.almSees old b false

/-- The two copies of a base differ (R51). -/
def State.baseLockstep (s : State) (b : BaseId) : State :=
  if (s.base b).lsOff then s
  else
    let old := s
    let s := ((s.orReg (Reg.abStat b) (bitW 12)).log 0x09 b.val 0 (loW (s.phase b))).modBase b fun x => { x with lsOff := true }
    let s := s.raiseAll (s.reg (Reg.abLsdest b) &&& 0xFFFF) 12
    if s.rbit (Reg.abCfg b) 12 then (s.clrReg (Reg.abStat b) (bitW 0)).almSees old b false else s

/-- A snapshotting read of a base (R25). -/
def State.phaseRead (s : State) (b : BaseId) (which : PhaseReg) : Word × State :=
  match which with
  | .phase => (loW (s.phase b), s.setReg (Reg.abPhHi b) (hiW (s.phase b)))
  | .velocity => (loW (s.velAt b s.stamp), s.setReg (Reg.abVelHi b) (hiW (s.velAt b s.stamp)))
  | .edge =>
    let t := match (s.base b).last with | some t => t | none => 0
    (loW t, s.setReg (Reg.abEdgeHi b) (hiW t))

/-! The meanings -/

/-- QUADRATURE_TRANSITION (R27, R34). -/
def execQuadratureTransition (b : BaseId) (ev : QuadEdge) (s : State) : Host.Outcome State Fault Refusal :=
  .next (s.edgeIn b ev.ts ev.held (.quad (s.received b ev)))
/-- TIMED_T0_EDGE (R27, R37). -/
def execTimedT0Edge (b : BaseId) (edge : RawEdge) (t1 : Bool) (s : State) : Host.Outcome State Fault Refusal :=
  .next (if s.broken (.base b 3) then s else s.edgeIn b edge.ts edge.held (.t0 edge.ts t1))
/-- TIMED_T1_EDGE (R27, R37). -/
def execTimedT1Edge (change : T1Edge) (s : State) : Host.Outcome State Fault Refusal :=
  .next (if s.broken (.base change.b 4) then s else s.edgeIn change.b change.edge.ts change.edge.held .t1)
/-- SSI_FRAME (R38): the base starts clocking a frame. -/
def execSsiFrame (b : BaseId) (s : State) : Host.Outcome State Fault Refusal := .next (s.ssiStart b)
/-- SSI_SAMPLE (R38, R40). -/
def execSsiSample (b : BaseId) (raw : SsiWord) (s : State) : Host.Outcome State Fault Refusal := .next (s.ssiSample b (s.receivedSsi b raw))
/-- MAINS_CROSSING (R27, R42, R43). -/
def execMainsCrossing (b : BaseId) (rising : Bool) (edge : RawEdge) (s : State) : Host.Outcome State Fault Refusal :=
  .next (if s.broken (.base b 6) then s else s.edgeIn b edge.ts edge.held (.mains rising edge.ts))
/-- MAINS_CROSSING_TIMEOUT (R42). -/
def execMainsCrossingTimeout (b : BaseId) (s : State) : Host.Outcome State Fault Refusal := .next (s.mainsTimeout b)
/-- VELOCITY_UPDATE (R27, R28): the velocity that an edge gives takes effect in its fc. -/
def execVelocityUpdate (b : BaseId) (s : State) : Host.Outcome State Fault Refusal :=
  .next (match (s.base b).vq with
    | [] => s
    | (c, v) :: vq => if s.fc < c then s else s.modBase b fun x => { x with v := v, vq := vq })
/-- SILENCE_TIMEOUT (R31). -/
def execSilenceTimeout (b : BaseId) (s : State) : Host.Outcome State Fault Refusal := .next (s.silence b)
/-- AB_APPLY (R48): a staged change is armed. -/
def execAbApply (b : BaseId) (s : State) : Host.Outcome State Fault Refusal := .next (s.stagedArm b)
/-- AB_CANCEL (R48): no staged change is armed. -/
def execAbCancel (b : BaseId) (s : State) : Host.Outcome State Fault Refusal := .next (s.clrReg (Reg.abStat b) (bitW 5))
/-- STAGED_CHANGE_APPLY (R48). -/
def execStagedChangeApply (b : BaseId) (s : State) : Host.Outcome State Fault Refusal := .next (s.stagedApply b)
/-- BASE_ENABLE (R50). -/
def execBaseEnable (b : BaseId) (s : State) : Host.Outcome State Fault Refusal := .next (s.baseEnable b)
/-- BASE_DISABLE (R50). -/
def execBaseDisable (b : BaseId) (s : State) : Host.Outcome State Fault Refusal := .next (s.baseDisable b)
/-- ANGLE_LOCKSTEP_MISMATCH (R51). -/
def execAngleLockstepMismatch (b : BaseId) (s : State) : Host.Outcome State Fault Refusal := .next (s.baseLockstep b)
/-- ANG_INJ_SSIREJ (R55). -/
def execAngInjSsirej (b : BaseId) (s : State) : Host.Outcome State Fault Refusal :=
  .next (s.modBase b fun x => { x with injRej := true })
/-- ANG_INJ_ILL (R55). -/
def execAngInjIll (b : BaseId) (s : State) : Host.Outcome State Fault Refusal :=
  .next (s.modBase b fun x => { x with injIll := true })
/-- ANG_INJ_LS (R55): the copies differ at the next fc. -/
def execAngInjLs (b : BaseId) (s : State) : Host.Outcome State Fault Refusal :=
  .next (s.modBase b fun x => { x with injLs := true })
/-- PHASE_READ (R25). -/
def execPhaseRead (b : BaseId) (which : PhaseReg) (s : State) : Host.Outcome State Fault Refusal :=
  .next { (s.phaseRead b which).2 with rdata := [(s.phaseRead b which).1] }
/-- TB_SYNC_TIMEOUT (R268): no frame accepted for TMR_TBSYNCTO fc. -/
def execTbSyncTimeout (s : State) : Host.Outcome State Fault Refusal :=
  .next (if s.follower && decide ((s.reg Reg.tmrTbsyncto).toNat ≤ s.time.quiet) then
      ({ (s.clrReg Reg.tmrTbstat (bitW 0)).orReg Reg.tmrTbstat (bitW 10) with time := { s.time with quiet := 0 } }).almSeesAll s else s)
/-- VIRTUAL_MASTER_ACCUMULATION (R47). -/
def execVirtualMasterAccumulation (b : BaseId) (s : State) : Host.Outcome State Fault Refusal := .next (s.vmAccumulate b)

end Sys2Proof.Machine
end

