-- ==== Sys2Proof/Machine/Units.lean ====
section
/-! DEFINITION. The result side of a function unit: triggers, completion, the read interlock of a result port (R106), the
in-flight table (R136), and the parity records of R411. -/

namespace Sys2Proof.Machine

/-- A result still counts while it has not completed or a port has not read it. -/
def Res.alive (r : Res) : Bool := !r.done || r.uq || r.uq1

/-- The result with its unread marks cleared (R106: discarded). -/
def Res.drop (r : Res) : Res := { r with uq := false, uq1 := false }

/-- At a trigger every completed, unread result is discarded (R106). -/
def UnitRes.onTrigger (u : UnitRes) : UnitRes :=
  { u with ops := (u.ops.map fun r => if r.done then r.drop else r).filter Res.alive }

/-- The results with the oldest uncompleted one completed and every older one discarded (R106). -/
def completeFirst : List Res → List Res → List Res
  | old, [] => old
  | old, r :: rs =>
    if r.done then completeFirst (old ++ [r]) rs
    else ((old.map Res.drop).filter Res.alive) ++ ({ r with done := true } :: rs)

/-- The oldest operation that has not completed. -/
def UnitRes.running (u : UnitRes) : Option Res := u.ops.find? (fun r => !r.done)

/-- The oldest unread result of port .q, or of .q1 where `hi`. -/
def UnitRes.owed (u : UnitRes) (hi : Bool) : Option Res := u.ops.find? (fun r => if hi then r.uq1 else r.uq)

/-- A read of the port would wait: its oldest unread result has not completed (R106). -/
def UnitRes.stalls (u : UnitRes) (hi : Bool) : Bool :=
  match u.owed hi with
  | some r => !r.done
  | none => false

/-- The value that a read of the port takes (R106). -/
def UnitRes.value (u : UnitRes) (hi : Bool) : Word :=
  match u.owed hi with
  | some r => if hi then r.q1 else r.q
  | none => if hi then u.last1 else u.last

/-- The marks after a read of the port (R106): the first unread one is taken. -/
def markRead (hi : Bool) : List Res → List Res
  | [] => []
  | r :: rs =>
    if (if hi then r.uq1 else r.uq) then
      (let r' := if hi then { r with uq1 := false } else { r with uq := false }
       if r'.alive then r' :: rs else rs)
    else r :: markRead hi rs

/-- The unit after a read of the port (R106). -/
def UnitRes.read (u : UnitRes) (hi : Bool) : UnitRes :=
  if hi then { u with last1 := u.value true, ops := markRead true u.ops }
  else { u with last := u.value false, ops := markRead false u.ops }

/-- A unit of an engine. -/
def State.unit (s : State) (e : EngId) (u : Fin 16) : UnitRes := (s.eng e).units[u]
def State.setUnit (s : State) (e : EngId) (u : Fin 16) (x : UnitRes) : State :=
  s.modEng e fun g => { g with units := g.units.set u.val x u.isLt }

/-- In-flight entries in use (R136, R151). -/
def State.iftUsed (s : State) (e : EngId) : Nat := s.rfld (Reg.teIft e) 0 9

/-- `n` in-flight entries are taken; the high-water mark follows (R151). -/
def State.iftTake (s : State) (e : EngId) (n : Nat) : State :=
  let used := s.iftUsed e + n
  let s := s.setFld (Reg.teIft e) 0 9 used
  if s.rfld (Reg.teIft e) 16 9 < used then s.setFld (Reg.teIft e) 16 9 used else s

/-- `n` in-flight entries are freed (R136). -/
def State.iftFree (s : State) (e : EngId) (n : Nat) : State :=
  s.setFld (Reg.teIft e) 0 9 (s.iftUsed e - n)

/-- The entry of the unit accepts a trigger in fc `t` that completes `lat` fc later (R134, R153, R172). -/
def UnitRes.accepts (u : UnitRes) (t lat : Nat) : Bool :=
  decide (u.free ≤ t) && u.ops.all (fun r => r.done || decide (r.due < t + lat))

/-- A parity error (R411): recorded in TE_PARINFO or marked MORE, logged, and exception 10 raised. -/
def State.parity (s : State) (e : EngId) (socketErr : Bool) (bus socket : Nat) (pc : Word) : State :=
  let info := BitVec.ofNat 32 (b2n socketErr * 2 ^ 16 + bus % 8 * 2 ^ 12 + socket % 4096)
  let s := if s.rbit (Reg.teParinfo e) 31 then s.orReg (Reg.teParinfo e) (bitW 30)
           else s.setReg (Reg.teParinfo e) (info ||| bitW 31 ||| (s.reg (Reg.teParinfo e) &&& bitW 30))
  (s.log 0x05 e.val (info.toNat % 65536) pc).raise e 10

/-- An injected socket parity error is met by the operation just triggered (R412). -/
def State.meetSpar (s : State) (e : EngId) (socket : Nat) : State :=
  if (s.eng e).injSpar then
    (s.modEng e fun x => { x with injSpar := false }).parity e true 0 socket (s.eng e).grp
  else s

/-- A trigger starts an operation of unit `u` in fc `t`: the result words, latency, occupancy, and the TE_CUSTAT flags its
completion sets (R104, R106, R153). -/
def State.trigger (s : State) (e : EngId) (u : Fin 16) (t lat occ : Nat) (q q1 : Word) (two : Bool) (flag : Word) : State :=
  let x := (s.unit e u).onTrigger
  let r : Res := { due := t + lat, done := decide (lat ≤ 1), q := q, q1 := q1, uq := true, uq1 := two, flag := flag,
                   ift := decide (1 < lat) }
  let ops := if lat ≤ 1 then (x.ops.map Res.drop).filter Res.alive ++ [r] else x.ops ++ [r]
  let s := s.setUnit e u { x with ops := ops, free := t + occ }
  if 1 < lat then s.iftTake e 1 else s

/-- A trigger command finds its unit able to start it: the engine runs code, the unit accepts and an in-flight entry is free. -/
def State.canTrigger (s : State) (e : EngId) (u : Fin 16) (t lat : Nat) : Bool :=
  s.runs e && (s.unit e u).accepts t lat && (decide (lat ≤ 1) || decide (s.iftUsed e < 256))

/-- The oldest running operation of a unit completes: its result becomes readable, older results are discarded, its in-flight
entry frees and its flags are set (R106, R136, R174). -/
def State.complete (s : State) (e : EngId) (u : Fin 16) : State :=
  match (s.unit e u).running with
  | none => s
  | some r =>
    if s.now < r.due then s
    else
      let x := s.unit e u
      let s := s.setUnit e u { x with ops := completeFirst [] x.ops }
      let s := if r.ift then s.iftFree e 1 else s
      let before := match (s.eng e).custAt with | some (t, m) => if t = s.now then m else 0 | none => 0
      (s.orReg (Reg.teCustat e) r.flag).modEng e fun x => { x with custAt := some (s.now, before ||| r.flag) }

/-- The oldest running operation of a unit gets its result words and completes (R106, R136). -/
def State.deliver (s : State) (e : EngId) (u : Fin 16) (q q1 : Word) : State :=
  match (s.unit e u).running with
  | none => s
  | some r =>
    let x := s.unit e u
    let ops := x.ops.map fun o => if o = r then { o with q := q, q1 := q1 } else o
    let s := s.setUnit e u { x with ops := completeFirst [] ops }
    if r.ift then s.iftFree e 1 else s

end Sys2Proof.Machine
end

