-- ==== Sys2Proof/Machine/Compute.lean ====
section
/-! DEFINITION. The compute units: ALU, MUL, MAC, DIV and BIT (R152–R174). -/

namespace Sys2Proof.Machine

/-! What each operation computes -/

/-- A signed value narrowed to 32 bits, saturating (R156). -/
def sat32 (v : Int) : Word := BitVec.ofInt 32 (max (-2147483648) (min v 2147483647))

/-- The result of ALU operation `code` on operand `o` and trigger operand `t` (R156, R157). -/
def aluFn (code : Nat) (o t : Word) : Word :=
  match code with
  | 0x00 => o + t
  | 0x01 => o - t
  | 0x02 => boolW (decide (2 ^ 32 ≤ o.toNat + t.toNat))
  | 0x03 => boolW (o.ult t)
  | 0x04 => sat32 (o.toInt + t.toInt)
  | 0x05 => sat32 (o.toInt - t.toInt)
  | 0x06 => o &&& t
  | 0x07 => o ||| t
  | 0x08 => o ^^^ t
  | 0x09 => o &&& ~~~t
  | 0x0A => if 32 ≤ t.toNat then 0 else o <<< t.toNat
  | 0x0B => if 32 ≤ t.toNat then 0 else o >>> t.toNat
  | 0x0C => o.sshiftRight (min t.toNat 32)
  | 0x0D => o.rotateLeft (t.toNat % 32)
  | 0x0E => boolW (o == t)
  | 0x0F => boolW (o != t)
  | 0x10 => boolW (o.slt t)
  | 0x11 => boolW (o.sle t)
  | 0x12 => boolW (t.slt o)
  | 0x13 => boolW (t.sle o)
  | 0x14 => boolW (o.ult t)
  | 0x15 => boolW (o.ule t)
  | 0x16 => boolW (t.ult o)
  | 0x17 => boolW (t.ule o)
  | 0x18 => if o.sle t then o else t
  | 0x19 => if o.sle t then t else o
  | 0x1A => if o.ule t then o else t
  | 0x1B => if o.ule t then t else o
  | _ => if t = 0x8000_0000 then 0x7FFF_FFFF else if t.msb then -t else t

/-- The 64-bit product of MUL operation `code` (R158). -/
def mulFn (code : Nat) (o t : Word) : DWord :=
  match code with
  | 0x00 => BitVec.ofInt 64 (o.toInt * t.toInt)
  | 0x01 => BitVec.ofNat 64 (o.toNat * t.toNat)
  | _ => BitVec.ofInt 64 (o.toInt * t.toNat)

/-- The largest and the smallest signed 64-bit value (R164). -/
def sat64 (v : Int) : DWord :=
  if v < -9223372036854775808 then 0x8000_0000_0000_0000
  else if 9223372036854775807 < v then 0x7FFF_FFFF_FFFF_FFFF else BitVec.ofInt 64 v

/-- A MAC's new accumulator, and whether the operation saturated (R160–R164). -/
def macFn (code : Nat) (acc : DWord) (o o1 t : Word) : DWord × Bool :=
  match code with
  | 0x00 => (acc + BitVec.ofInt 64 (o.toInt * t.toInt), false)
  | 0x01 => (acc + BitVec.ofNat 64 (o.toNat * t.toNat), false)
  | 0x02 => (acc - BitVec.ofInt 64 (o.toInt * t.toInt), false)
  | 0x03 =>
    let v := acc.toInt + o.toInt * t.toInt
    (sat64 v, decide (v < -9223372036854775808) || decide (9223372036854775807 < v))
  | 0x04 => (BitVec.ofInt 64 (o.toInt * t.toInt), false)
  | 0x05 => (BitVec.ofInt 64 (o.toInt * 4294967296 + (o1.toInt - o.toInt) * t.toNat), false)
  | 0x06 => (dword o t, false)
  | 0x07 =>
    let n := t.toNat % 64
    (if n = 0 then acc else BitVec.ofInt 64 (Int.fdiv (acc.toInt + 2 ^ (n - 1)) (2 ^ n)), false)
  | _ => (acc + dword o t, false)

/-- Quotient, remainder and TE_CUSTAT flags of DIV operation `code` (R165, R166). -/
def divFn (code : Nat) (o t : Word) : Word × Word × Word :=
  if t = 0 then (0xFFFF_FFFF, o, 0x1)
  else if code = 0 then
    (if o = 0x8000_0000 ∧ t = 0xFFFF_FFFF then (0x8000_0000, 0, 0x2)
     else (BitVec.ofInt 32 (o.toInt.tdiv t.toInt), BitVec.ofInt 32 (o.toInt.tmod t.toInt), 0))
  else (BitVec.ofNat 32 (o.toNat / t.toNat), BitVec.ofNat 32 (o.toNat % t.toNat), 0)

/-- Position and effective width of a field specification (R168). -/
def fieldPos (spec : Word) : Nat := fldOf spec 0 5
def fieldWid (spec : Word) : Nat := min (min (fldOf spec 8 6) 32) (32 - fieldPos spec)

/-- Byte `i` of a word. -/
def byteAt (w : Word) (i : Nat) : Nat := fldOf w (8 * i) 8

/-- A result byte of perm (R170). -/
def permByte (nib : Nat) (t o1 : Word) : Nat :=
  if nib < 4 then byteAt t nib
  else if nib < 8 then byteAt o1 (nib - 4)
  else if nib = 9 then 0xFF
  else if 10 ≤ nib ∧ nib < 14 then (if bitOf t (8 * (nib - 10) + 7) then 0xFF else 0)
  else 0

/-- The zero bits of a word below its lowest 1, or above its highest, from a given bit on. -/
def countZeros (f : Nat → Bool) : Nat → Nat → Nat
  | _, 0 => 0
  | i, n + 1 => if f i then 0 else 1 + countZeros f (i + 1) n

/-- The result of BIT operation `code` (R168–R170). -/
def bitFn (code : Nat) (o o1 t : Word) : Word :=
  let p := fieldPos o1
  let w := fieldWid o1
  match code with
  | 0x00 => BitVec.ofNat 32 (fldOf t p w)
  | 0x01 =>
    let v := fldOf t p w
    if w = 0 then 0 else if v / 2 ^ (w - 1) = 1 then BitVec.ofInt 32 (v - 2 ^ w) else BitVec.ofNat 32 v
  | 0x02 => putFld o p w t.toNat
  | 0x03 => BitVec.ofNat 32 (countZeros (fun i => bitOf t (31 - i)) 0 32)
  | 0x04 => BitVec.ofNat 32 (countZeros (bitOf t) 0 32)
  | 0x05 => BitVec.ofNat 32 ((List.range 32).filter (bitOf t)).length
  | _ => BitVec.ofNat 32 (permByte (fldOf o 0 4) t o1 + 2 ^ 8 * permByte (fldOf o 4 4) t o1
          + 2 ^ 16 * permByte (fldOf o 8 4) t o1 + 2 ^ 24 * permByte (fldOf o 12 4) t o1)

/-! Triggers. `d` is 0, or 1 for a lane-B trigger of a split pair (R130). -/

/-- The window base of unit `u` (R110). -/
abbrev window (u : Nat) : Nat := 0x400 + u * 0x40
/-- The sockets of the operand ports .o and .o1 (R110). -/
abbrev opO (u : Nat) : Nat := window u + 0x20
abbrev opO1 (u : Nat) : Nat := window u + 0x21

/-- Units as sockets number them. -/
def aluU (u : AluId) : Fin 16 := ⟨u.val, by omega⟩
def mulU (u : PairId) : Fin 16 := ⟨4 + u.val, by omega⟩
def macU (u : PairId) : Fin 16 := ⟨6 + u.val, by omega⟩

/-- ALU operation `code` is triggered (R156): latency 1. -/
def State.aluOp (s : State) (e : EngId) (u : AluId) (code d : Nat) (t : Word) : State :=
  if s.canTrigger e (aluU u) (s.now + d) 1 then
    (s.trigger e (aluU u) (s.now + d) 1 1 (aluFn code (s.port e (opO u.val)) t) 0 false 0).meetSpar e (window u.val + code)
  else s

/-- MUL operation `code` is triggered (R158): latency 3. -/
def State.mulOp (s : State) (e : EngId) (u : PairId) (code d : Nat) (t : Word) : State :=
  if s.canTrigger e (mulU u) (s.now + d) 3 then
    let p := mulFn code (s.port e (opO (4 + u.val))) t
    (s.trigger e (mulU u) (s.now + d) 3 1 (loW p) (hiW p) true 0).meetSpar e (window (4 + u.val) + code)
  else s

/-- The accumulator of a MAC. -/
def State.acc (s : State) (e : EngId) (u : PairId) : DWord := dword (s.port e (keyAcc u.val 1)) (s.port e (keyAcc u.val 0))

/-- MAC operation `code` is triggered (R160): the accumulator takes its new value, and the result ports get it after 4 fc. -/
def State.macOp (s : State) (e : EngId) (u : PairId) (code d : Nat) (t : Word) : State :=
  if s.canTrigger e (macU u) (s.now + d) 4 then
    let r := macFn code (s.acc e u) (s.port e (opO (6 + u.val))) (s.port e (opO1 (6 + u.val))) t
    let s := s.trigger e (macU u) (s.now + d) 4 1 (loW r.1) (hiW r.1) true (if r.2 then bitW (2 + u.val) else 0)
    ((s.setPort e (keyAcc u.val 0) (loW r.1)).setPort e (keyAcc u.val 1) (hiW r.1)).meetSpar e (window (6 + u.val) + code)
  else s

/-- DIV operation `code` is triggered (R165, R167): latency and occupancy 18. -/
def State.divOp (s : State) (e : EngId) (code d : Nat) (t : Word) : State :=
  if s.canTrigger e 8 (s.now + d) 18 then
    let r := divFn code (s.port e (opO 8)) t
    (s.trigger e 8 (s.now + d) 18 18 r.1 r.2.1 true r.2.2).meetSpar e (window 8 + code)
  else s

/-- The latency of a BIT operation (R153). -/
def bitLat (code : Nat) : Nat := if code < 3 then 2 else 1

/-- BIT operation `code` is triggered (R169, R172). -/
def State.bitOp (s : State) (e : EngId) (code d : Nat) (t : Word) : State :=
  if s.canTrigger e 9 (s.now + d) (bitLat code) then
    (s.trigger e 9 (s.now + d) (bitLat code) 1 (bitFn code (s.port e (opO 9)) (s.port e (opO1 9)) t) 0 false 0).meetSpar e
      (window 9 + code)
  else s

/-! The meanings -/

/-- ALU_ADD (R156). -/
def execAluAdd (e : EngId) (u : AluId) (t : Word) (s : State) : Host.Outcome State Fault Refusal := .next (s.aluOp e u 0x00 0 t)
/-- ALU_SUB (R156). -/
def execAluSub (e : EngId) (u : AluId) (t : Word) (s : State) : Host.Outcome State Fault Refusal := .next (s.aluOp e u 0x01 0 t)
/-- ALU_ADDC (R156). -/
def execAluAddc (e : EngId) (u : AluId) (t : Word) (s : State) : Host.Outcome State Fault Refusal := .next (s.aluOp e u 0x02 0 t)
/-- ALU_SUBB (R156). -/
def execAluSubb (e : EngId) (u : AluId) (t : Word) (s : State) : Host.Outcome State Fault Refusal := .next (s.aluOp e u 0x03 0 t)
/-- ALU_ADDS (R156). -/
def execAluAdds (e : EngId) (u : AluId) (t : Word) (s : State) : Host.Outcome State Fault Refusal := .next (s.aluOp e u 0x04 0 t)
/-- ALU_SUBS (R156). -/
def execAluSubs (e : EngId) (u : AluId) (t : Word) (s : State) : Host.Outcome State Fault Refusal := .next (s.aluOp e u 0x05 0 t)
/-- ALU_AND (R156). -/
def execAluAnd (e : EngId) (u : AluId) (t : Word) (s : State) : Host.Outcome State Fault Refusal := .next (s.aluOp e u 0x06 0 t)
/-- ALU_OR (R156). -/
def execAluOr (e : EngId) (u : AluId) (t : Word) (s : State) : Host.Outcome State Fault Refusal := .next (s.aluOp e u 0x07 0 t)
/-- ALU_XOR (R156). -/
def execAluXor (e : EngId) (u : AluId) (t : Word) (s : State) : Host.Outcome State Fault Refusal := .next (s.aluOp e u 0x08 0 t)
/-- ALU_ANDN (R156). -/
def execAluAndn (e : EngId) (u : AluId) (t : Word) (s : State) : Host.Outcome State Fault Refusal := .next (s.aluOp e u 0x09 0 t)
/-- ALU_SHL (R157). -/
def execAluShl (e : EngId) (u : AluId) (t : Word) (s : State) : Host.Outcome State Fault Refusal := .next (s.aluOp e u 0x0A 0 t)
/-- ALU_SHR (R157). -/
def execAluShr (e : EngId) (u : AluId) (t : Word) (s : State) : Host.Outcome State Fault Refusal := .next (s.aluOp e u 0x0B 0 t)
/-- ALU_SRA (R157). -/
def execAluSra (e : EngId) (u : AluId) (t : Word) (s : State) : Host.Outcome State Fault Refusal := .next (s.aluOp e u 0x0C 0 t)
/-- ALU_ROL (R157). -/
def execAluRol (e : EngId) (u : AluId) (t : Word) (s : State) : Host.Outcome State Fault Refusal := .next (s.aluOp e u 0x0D 0 t)
/-- ALU_EQ (R156). -/
def execAluEq (e : EngId) (u : AluId) (t : Word) (s : State) : Host.Outcome State Fault Refusal := .next (s.aluOp e u 0x0E 0 t)
/-- ALU_NE (R156). -/
def execAluNe (e : EngId) (u : AluId) (t : Word) (s : State) : Host.Outcome State Fault Refusal := .next (s.aluOp e u 0x0F 0 t)
/-- ALU_LTS (R156). -/
def execAluLts (e : EngId) (u : AluId) (t : Word) (s : State) : Host.Outcome State Fault Refusal := .next (s.aluOp e u 0x10 0 t)
/-- ALU_LES (R156). -/
def execAluLes (e : EngId) (u : AluId) (t : Word) (s : State) : Host.Outcome State Fault Refusal := .next (s.aluOp e u 0x11 0 t)
/-- ALU_GTS (R156). -/
def execAluGts (e : EngId) (u : AluId) (t : Word) (s : State) : Host.Outcome State Fault Refusal := .next (s.aluOp e u 0x12 0 t)
/-- ALU_GES (R156). -/
def execAluGes (e : EngId) (u : AluId) (t : Word) (s : State) : Host.Outcome State Fault Refusal := .next (s.aluOp e u 0x13 0 t)
/-- ALU_LTU (R156). -/
def execAluLtu (e : EngId) (u : AluId) (t : Word) (s : State) : Host.Outcome State Fault Refusal := .next (s.aluOp e u 0x14 0 t)
/-- ALU_LEU (R156). -/
def execAluLeu (e : EngId) (u : AluId) (t : Word) (s : State) : Host.Outcome State Fault Refusal := .next (s.aluOp e u 0x15 0 t)
/-- ALU_GTU (R156). -/
def execAluGtu (e : EngId) (u : AluId) (t : Word) (s : State) : Host.Outcome State Fault Refusal := .next (s.aluOp e u 0x16 0 t)
/-- ALU_GEU (R156). -/
def execAluGeu (e : EngId) (u : AluId) (t : Word) (s : State) : Host.Outcome State Fault Refusal := .next (s.aluOp e u 0x17 0 t)
/-- ALU_MINS (R156). -/
def execAluMins (e : EngId) (u : AluId) (t : Word) (s : State) : Host.Outcome State Fault Refusal := .next (s.aluOp e u 0x18 0 t)
/-- ALU_MAXS (R156). -/
def execAluMaxs (e : EngId) (u : AluId) (t : Word) (s : State) : Host.Outcome State Fault Refusal := .next (s.aluOp e u 0x19 0 t)
/-- ALU_MINU (R156). -/
def execAluMinu (e : EngId) (u : AluId) (t : Word) (s : State) : Host.Outcome State Fault Refusal := .next (s.aluOp e u 0x1A 0 t)
/-- ALU_MAXU (R156). -/
def execAluMaxu (e : EngId) (u : AluId) (t : Word) (s : State) : Host.Outcome State Fault Refusal := .next (s.aluOp e u 0x1B 0 t)
/-- ALU_ABS (R156). -/
def execAluAbs (e : EngId) (u : AluId) (t : Word) (s : State) : Host.Outcome State Fault Refusal := .next (s.aluOp e u 0x1C 0 t)
/-- MUL_MULL (R158). -/
def execMulMull (e : EngId) (u : PairId) (t : Word) (s : State) : Host.Outcome State Fault Refusal := .next (s.mulOp e u 0x00 0 t)
/-- MUL_MULU (R158). -/
def execMulMulu (e : EngId) (u : PairId) (t : Word) (s : State) : Host.Outcome State Fault Refusal := .next (s.mulOp e u 0x01 0 t)
/-- MUL_MULSU (R158). -/
def execMulMulsu (e : EngId) (u : PairId) (t : Word) (s : State) : Host.Outcome State Fault Refusal := .next (s.mulOp e u 0x02 0 t)
/-- MAC_MACS (R160). -/
def execMacMacs (e : EngId) (u : PairId) (t : Word) (s : State) : Host.Outcome State Fault Refusal := .next (s.macOp e u 0x00 0 t)
/-- MAC_MACU (R160). -/
def execMacMacu (e : EngId) (u : PairId) (t : Word) (s : State) : Host.Outcome State Fault Refusal := .next (s.macOp e u 0x01 0 t)
/-- MAC_MSBS (R160). -/
def execMacMsbs (e : EngId) (u : PairId) (t : Word) (s : State) : Host.Outcome State Fault Refusal := .next (s.macOp e u 0x02 0 t)
/-- MAC_MACSS (R164). -/
def execMacMacss (e : EngId) (u : PairId) (t : Word) (s : State) : Host.Outcome State Fault Refusal := .next (s.macOp e u 0x03 0 t)
/-- MAC_LDMUL (R160). -/
def execMacLdmul (e : EngId) (u : PairId) (t : Word) (s : State) : Host.Outcome State Fault Refusal := .next (s.macOp e u 0x04 0 t)
/-- MAC_LERP (R162). -/
def execMacLerp (e : EngId) (u : PairId) (t : Word) (s : State) : Host.Outcome State Fault Refusal := .next (s.macOp e u 0x05 0 t)
/-- MAC_LDACC (R160). -/
def execMacLdacc (e : EngId) (u : PairId) (t : Word) (s : State) : Host.Outcome State Fault Refusal := .next (s.macOp e u 0x06 0 t)
/-- MAC_RSH (R163). -/
def execMacRsh (e : EngId) (u : PairId) (t : Word) (s : State) : Host.Outcome State Fault Refusal := .next (s.macOp e u 0x07 0 t)
/-- MAC_ADDA (R160). -/
def execMacAdda (e : EngId) (u : PairId) (t : Word) (s : State) : Host.Outcome State Fault Refusal := .next (s.macOp e u 0x08 0 t)
/-- DIV_DIVS (R165, R166). -/
def execDivDivs (e : EngId) (t : Word) (s : State) : Host.Outcome State Fault Refusal := .next (s.divOp e 0x00 0 t)
/-- DIV_DIVU (R165, R166). -/
def execDivDivu (e : EngId) (t : Word) (s : State) : Host.Outcome State Fault Refusal := .next (s.divOp e 0x01 0 t)
/-- BIT_EXTU (R169). -/
def execBitExtu (e : EngId) (t : Word) (s : State) : Host.Outcome State Fault Refusal := .next (s.bitOp e 0x00 0 t)
/-- BIT_EXTS (R169). -/
def execBitExts (e : EngId) (t : Word) (s : State) : Host.Outcome State Fault Refusal := .next (s.bitOp e 0x01 0 t)
/-- BIT_INS (R169). -/
def execBitIns (e : EngId) (t : Word) (s : State) : Host.Outcome State Fault Refusal := .next (s.bitOp e 0x02 0 t)
/-- BIT_CLZ (R169). -/
def execBitClz (e : EngId) (t : Word) (s : State) : Host.Outcome State Fault Refusal := .next (s.bitOp e 0x03 0 t)
/-- BIT_CTZ (R169). -/
def execBitCtz (e : EngId) (t : Word) (s : State) : Host.Outcome State Fault Refusal := .next (s.bitOp e 0x04 0 t)
/-- BIT_POPC (R169). -/
def execBitPopc (e : EngId) (t : Word) (s : State) : Host.Outcome State Fault Refusal := .next (s.bitOp e 0x05 0 t)
/-- BIT_PERM (R170). -/
def execBitPerm (e : EngId) (t : Word) (s : State) : Host.Outcome State Fault Refusal := .next (s.bitOp e 0x06 0 t)
/-- COMPUTE_RESULT_COMPLETE (R106, R174): the oldest running operation of a compute unit whose latency has run completes. -/
def execComputeResultComplete (e : EngId) (u : UnitId) (s : State) : Host.Outcome State Fault Refusal :=
  .next (if (s.eng e).clocked then s.complete e ⟨u.val, by omega⟩ else s)

end Sys2Proof.Machine
end

