-- ==== Sys2Proof/Machine/ApuXio.lean ====
section
/-! DEFINITION. The angle port and the message queues of an engine (R111–R117); what a queue entry does at its destination stands
in Machine/Almanac.lean, the frame's end in Machine/Frames.lean and the microroutine call in Machine/Sequencer.lean. -/

namespace Sys2Proof.Machine

/-- The condition of apu.t:wph and of the angle compares (R112, R234): VALID, forward, and at or past the target. -/
def State.angleAt (s : State) (b : BaseId) (target : Word) : Bool :=
  s.abValid b && !s.abReverse b && !(loW (s.phase b) - target).msb

/-- The condition of an APU wait in the present fc (R112). -/
def State.apuHolds (s : State) (w : ApuWait) : Bool :=
  if w.phase then s.angleAt w.base w.target else !(loW s.fc - w.target).msb

/-- The words of an APU read in the present fc: what AB_PH, AB_VEL and AB_EDGE show in it (R25, R111). -/
def State.apuWords (s : State) (code : Nat) (b : BaseId) : Word × Word :=
  let v : DWord :=
    match code with
    | 0x00 => s.phase b
    | 0x01 => s.velAt b s.stamp
    | 0x02 => match (s.base b).last with | some l => l | none => 0
    | _ => s.fc
  (loW v, hiW v)

/-- A trigger of the APU starts its operation in fc now + `d` (R111, R112): a read evaluates in the fc after its trigger, and its words
are 0 until then; a wait is tested from then on. -/
def State.apuStart (s : State) (e : EngId) (code d : Nat) (t : Word) : State :=
  let s' := s.trigger e 14 (s.now + d) 2 1 0 0 true 0
  if code < 8 then s'.modEng e fun x => { x with apuR := x.apuR ++ [(s.now + d + 1, code, Fin.ofNat 8 t.toNat)] }
  else
    let w : ApuWait :=
      { phase := code == 8, target := t, base := Fin.ofNat 8 (s.port e (opO1 14)).toNat, trig := s.now + d,
        bound := (s.port e (opO 14)).toNat, met := none }
    s'.modEng e fun x => { x with apu := some w }

/-- The reads whose fc this is are evaluated (R25, R111). -/
def State.apuEval (s : State) (e : EngId) : State :=
  let due := (s.eng e).apuR.filter fun p => decide (p.1 ≤ s.now)
  let fill (r : Res) : Res :=
    match due.find? (fun p => !r.done && p.1 + 1 == r.due) with
    | some p => { r with q := (s.apuWords p.2.1 p.2.2).1, q1 := (s.apuWords p.2.1 p.2.2).2 }
    | none => r
  if due.isEmpty then s
  else (s.setUnit e 14 { s.unit e 14 with ops := (s.unit e 14).ops.map fill }).modEng e fun x => { x with apuR := x.apuR.filter fun p => decide (s.now < p.1) }

/-- An APU trigger waits: a wait is in flight, or no in-flight entry is free (R112, R136). -/
def State.apuStall (s : State) (e : EngId) : Bool := (s.eng e).apu.isSome || decide (256 ≤ s.iftUsed e)

/-- A trigger of the APU by itself. -/
def State.apuOp (s : State) (e : EngId) (code : Nat) (t : Word) : State :=
  if !s.runs e || s.apuStall e then s
  else (s.apuStart e code 0 t).meetSpar e (window 14 + code)

/-- The present fc is tested by a wait in flight (R112). -/
def State.apuTest (s : State) (e : EngId) : State :=
  match (s.eng e).apu with
  | none => s
  | some w =>
    if w.met.isNone && decide (w.trig + 1 ≤ s.now) && decide (s.now ≤ w.trig + 1 + w.bound) && s.apuHolds w then
      s.modEng e fun x => { x with apu := some { w with met := some (s.now, loW s.fc) } }
    else s

/-- The status of a wait that completes now and the fc in which it does so (R112); none while it is not due. -/
def ApuWait.result (w : ApuWait) (now : Nat) : Option (Word × Nat) :=
  match w.met with
  | some (m, _) => if m + 2 ≤ now then some (0, m + 2) else none
  | none => if w.trig + 3 + w.bound ≤ now then some (1, w.trig + 3 + w.bound) else none

/-- The oldest APU operation in flight completes when it is due: a read with the words it evaluated, a wait with its status and
the Time Base at its completion (R111, R112). -/
def State.apuComplete (s : State) (e : EngId) : State :=
  match (s.eng e).apu with
  | none => s.complete e 14
  | some w =>
    if 1 < ((s.unit e 14).ops.filter (!·.done)).length then s.complete e 14
    else
      match w.result s.now with
      | none => s
      | some (st, due) =>
        let tb := loW s.fc - BitVec.ofNat 32 (s.now - due)
        (s.deliver e 14 st tb).modEng e fun x => { x with apu := none }

/-! Message queues -/

/-- The outbound queue is full (R115). -/
def State.outFull (s : State) (e : EngId) : Bool := decide (8 ≤ (s.eng e).outq.length)

/-- xio.t:send queues a message, xio.t:alw a CTL word (R114, R115). -/
def State.xioQueue (s : State) (e : EngId) (alw : Bool) (d : Nat) (t : Word) : State :=
  let o := s.port e (opO 15)
  let m : OutMsg :=
    if alw then { alw := true, dst := BitVec.ofNat 32 (fldOf o 0 14), lo := t, hi := 0, trig := s.now + d, seq := (s.eng e).seq }
    else { alw := false, dst := t, lo := o, hi := s.port e (opO1 15), trig := s.now + d, seq := (s.eng e).seq }
  s.modEng e fun x => { x with outq := x.outq ++ [m] }

/-- xio.t:pop removes the inbound head, if any (R114). -/
def State.xioPop (s : State) (e : EngId) : State := s.modEng e fun x => { x with inq := x.inq.tail }

/-- The place of a message among those that arrive in one fc (R113): Almanac posts, engine messages by logical engine, node messages. -/
def InMsg.rank (m : InMsg) : Nat :=
  match fldOf m.hdr 28 3 with
  | 1 => 0
  | 0 => 1 + fldOf m.hdr 0 4
  | _ => 17

/-- The queue with a message behind those of earlier fc and behind those of its own fc that go before it (R113). -/
def inInsert : List InMsg → InMsg → List InMsg
  | [], m => [m]
  | x :: xs, m => if x.at' = m.at' ∧ m.rank < x.rank then m :: x :: xs else x :: inInsert xs m

/-- A message enters an inbound queue that has room (R113). -/
def State.inbound (s : State) (e : EngId) (kind src : Nat) (lo hi : Word) : State :=
  s.modEng e fun x =>
    { x with inq := inInsert x.inq ⟨BitVec.ofNat 32 (2 ^ 31 + kind * 2 ^ 28 + src), lo, hi, s.now⟩ }

/-- An inbound queue is full (R113). -/
def State.inFull (s : State) (e : EngId) : Bool := decide (16 ≤ (s.eng e).inq.length)

/-- A send or alw by itself, unless the queue is full (R115). -/
def State.xioOp (s : State) (e : EngId) (alw : Bool) (t : Word) : State :=
  if !s.runs e || s.outFull e then s
  else (s.xioQueue e alw 0 t).meetSpar e (window 15 + b2n alw)

/-! The meanings -/

/-- APU_PHS (R111): code 0x00. -/
def execApuPhs (e : EngId) (t : Word) (s : State) : Host.Outcome State Fault Refusal := .next (s.apuOp e 0x00 t)
/-- APU_VEL (R111): code 0x01. -/
def execApuVel (e : EngId) (t : Word) (s : State) : Host.Outcome State Fault Refusal := .next (s.apuOp e 0x01 t)
/-- APU_EDGE (R111): code 0x02. -/
def execApuEdge (e : EngId) (t : Word) (s : State) : Host.Outcome State Fault Refusal := .next (s.apuOp e 0x02 t)
/-- APU_TB (R111): code 0x03. -/
def execApuTb (e : EngId) (t : Word) (s : State) : Host.Outcome State Fault Refusal := .next (s.apuOp e 0x03 t)
/-- APU_WPH (R112): code 0x08. -/
def execApuWph (e : EngId) (t : Word) (s : State) : Host.Outcome State Fault Refusal := .next (s.apuOp e 0x08 t)
/-- APU_WTB (R112): code 0x09. -/
def execApuWtb (e : EngId) (t : Word) (s : State) : Host.Outcome State Fault Refusal := .next (s.apuOp e 0x09 t)
/-- APU_WAIT_COMPLETE (R112). -/
def execApuWaitComplete (e : EngId) (s : State) : Host.Outcome State Fault Refusal :=
  .next (if s.live e then s.apuComplete e else s)
/-- XIO_SEND (R114, R115). -/
def execXioSend (e : EngId) (t : Word) (s : State) : Host.Outcome State Fault Refusal := .next (s.xioOp e false t)
/-- XIO_ALW (R114, R115). -/
def execXioAlw (e : EngId) (t : Word) (s : State) : Host.Outcome State Fault Refusal := .next (s.xioOp e true t)
/-- XIO_POP (R114). -/
def execXioPop (e : EngId) (_t : Word) (s : State) : Host.Outcome State Fault Refusal :=
  .next (if s.runs e then (s.xioPop e).meetSpar e (window 15 + 2) else s)

end Sys2Proof.Machine
end

