-- ==== Sys2Proof/Machine/Matrix.lean ====
section
/-! DEFINITION. Issuing requests to the bus matrix (R304–R312); accepting and carrying them out stands in Machine/Fabric.lean. -/

namespace Sys2Proof.Machine

/-- The response code a register shows (R311). -/
def Resp.code : Resp → Nat
  | .okay => 0 | .decErr => 1 | .refuse => 2 | .eccErr => 3 | .link => 4

/-- The response that a code injects; none for 0b000 and 0b101–0b111 (R315). -/
def respOfCode (c : Nat) : Option Resp :=
  match c with
  | 1 => some .decErr | 2 => some .refuse | 3 => some .eccErr | 4 => some .link | _ => none

/-- Masters 26 and 29–32 are bridge masters (R302). -/
def bridgeMaster (m : Nat) : Bool := m == 26 || (decide (29 ≤ m) && decide (m ≤ 32))
/-- Targets 28 and 29 are bridge targets (R303). -/
def bridgeTarget (t : Nat) : Bool := t == 28 || t == 29

/-- The paths of R13: the far ports and the table walker reach every target; another master reaches the Tile Stores, the Main Store, the
CSR blocks and the Almanac table. A bridge master that names a bridge target is refused (R309). -/
def reaches (m t : Nat) : Bool :=
  decide (m < 16) || m == 17 || decide (t < 24) || t == 25 || t == 27 || (bridgeMaster m && bridgeTarget t)

/-- The target that serves an address for master `m`; none where no path leads there: DESIGN CHOICE (log 111), the matrix then answers as
where no target serves the address (R13, R311). -/
def State.targetFor (s : State) (m a : Nat) : Option Nat := (s.target a).filter (reaches m)

/-- A request as the target decode finds it (R288). -/
def State.decoded (s : State) (r : Req) : Req := { r with tgt := s.targetFor r.m r.addr.toNat, remap := s.rbit Reg.sysCtl 0 }

/-- A decoded request is answered by the matrix itself where no target serves it and where a bridge master names a bridge target; else
it waits for its target (R309, R311). -/
def Req.enter (r : Req) : Req :=
  match r.tgt with
  | none => { r with stage := .done, resp := .decErr }
  | some t => if bridgeMaster r.m && bridgeTarget t then { r with stage := .done, resp := .refuse } else { r with stage := .waiting }

/-- A request is outstanding from its issue to its response (R305). -/
def Req.outstanding (r : Req) : Bool := r.stage != .queued

/-- The requests that a master has outstanding (R305). -/
def State.outstanding (s : State) (m : Nat) : Nat := (s.mtx.reqs.filter fun r => r.m == m && r.outstanding).length

/-- A request writes: a write or an atomic (R315). -/
def reqWrites : ReqKind → Bool
  | .read => false
  | _ => true

/-- How a request starts once its master issues it: answered by the matrix itself where an injection waits, where no target
serves the address and where a bridge master names a bridge target; held where it is ordered behind others; else waiting. -/
def State.startReq (s : State) (r : Req) : State × Req :=
  match s.mtx.inj.find? (·.1 == r.m) with
  | some (_, c) =>
    ({ s with mtx := { s.mtx with inj := s.mtx.inj.filter (·.1 != r.m) } }, { s.decoded r with stage := .done, resp := c })
  | none =>
    let q := (s.decoded r).enter
    (s, if q.stage == .waiting && r.ordered && (s.mtx.reqs.any fun q => q.m == r.m && q.outstanding) then { q with stage := .held } else q)

/-- Master `m` issues a request (R304, R305). Beyond 32 outstanding it waits in the far port's queue (R137). Answers the number
that the request carries. -/
def State.issueReq (s : State) (m : Nat) (q : ReqSpec) : State × Nat :=
  let id := s.mtx.next
  let r : Req := { id := id, m := m, addr := q.addr, kind := q.kind, len := q.len, data := q.data, ordered := q.ordered,
                   node := q.node, orig := none, tgt := s.targetFor m q.addr.toNat, remap := s.rbit Reg.sysCtl 0, stage := .queued, beats := 0, accSeq := 0, resp := .okay,
                   rdata := [], issued := s.now }
  let s := { s with mtx := { s.mtx with next := id + 1 } }
  if 32 ≤ s.outstanding m then ({ s with mtx := { s.mtx with reqs := s.mtx.reqs ++ [r] } }, id)
  else
    let x := s.startReq r
    ({ x.1 with mtx := { x.1.mtx with reqs := x.1.mtx.reqs ++ [x.2] } }, id)

/-- A request that a reset of its master has dropped (R313). -/
def Req.gone (r : Req) : Bool := match r.stage with | .dropped _ => true | _ => false

/-- The state after a request has been changed; nothing reaches one that a reset has dropped (R313). -/
def State.modReq (s : State) (id : Nat) (f : Req → Req) : State :=
  { s with mtx := { s.mtx with reqs := s.mtx.reqs.map fun r => if r.id = id ∧ r.gone = false then f r else r } }

/-- The request of a given number. -/
def State.findReq (s : State) (id : Nat) : Option Req := s.mtx.reqs.find? (·.id == id)

/-- A request removed. -/
def State.dropReq (s : State) (id : Nat) : State :=
  { s with mtx := { s.mtx with reqs := s.mtx.reqs.filter fun r => r.id != id } }

/-- Requests of a far port beyond its 32 are issued in order as places free, and reach the target decode then (R137, R288). -/
def State.pumpReq (s : State) (m : Nat) : State :=
  match s.mtx.reqs.find? (fun r => r.m == m && r.stage == .queued) with
  | none => s
  | some r =>
    if 32 ≤ s.outstanding m then s
    else
      let x := s.startReq r
      x.1.modReq r.id fun _ => x.2

/-- The pieces of `len` bytes at `a` that do not cross a multiple of `g` (R184, R304). -/
def splitAt' (g a len : Nat) : List (Nat × Nat) :=
  if len = 0 then [] else
    let n := g - a % g
    if len ≤ n then [(a, len)] else [(a, n), (a + n, len - n)]

/-- The parts of `n` bytes from `a` on, cut at every multiple of `g`: offset and length of each; `k` bounds their number. -/
def partsAt (g : Nat) : Nat → Nat → Nat → List (Nat × Nat)
  | 0, _, _ => []
  | k + 1, a, n =>
    if n = 0 then []
    else
      let m := min n (g - a % g)
      (a, m) :: partsAt g k (a + m) (n - m)

/-- The parts of `n` bytes that do not cross a multiple of 256 (R304). -/
def partsOf (k a n : Nat) : List (Nat × Nat) := partsAt 256 k a n

/-- Master `m` issues a request for each part; the numbers that they carry. -/
def State.issueParts (s : State) (m : Nat) (write : Bool) (a : Nat) (ps : List (Nat × Nat)) (data : List Byte) :
    List (Nat × Option (Resp × List Byte)) × State :=
  ps.foldl (fun x p =>
    let r := x.2.issueReq m
      { addr := BitVec.ofNat 32 p.1, kind := if write then .write else .read, len := p.2,
        data := if write then (data.drop (p.1 - a)).take p.2 else [], ordered := false, node := 0 }
    (x.1 ++ [(r.2, none)], r.1)) ([], s)

/-- The answer of a request in parts: the code of the first that failed, and the bytes. -/
def partsAnswer (ps : List (Nat × Option (Resp × List Byte))) : Resp × List Byte :=
  ps.foldl (fun x p => match p.2 with
    | some (c, bs) => (if x.1 = .okay then c else x.1, x.2 ++ bs)
    | none => x) (.okay, [])

/-- A part of a request is answered. -/
def partTake (id : Nat) (c : Resp) (bs : List Byte) (p : Nat × Option (Resp × List Byte)) : Nat × Option (Resp × List Byte) :=
  if p.1 = id then (id, some (c, bs)) else p

/-- The address and the target that a request named when its master issued it (R336). -/
def Req.named (r : Req) : Word × Option Nat := match r.orig with | some a => (a, some 28) | none => (r.addr, r.tgt)

/-- A response other than OKAY (R312): its flag, the record or MORE, the log entry and the count. -/
def State.errResp (s : State) (r : Req) : State :=
  if r.resp = .okay then s
  else
    let c := r.resp.code
    let s := s.orReg Reg.mtxStat (bitW (7 + c))
    let t := match r.named.2 with | some t => t | none => 0x1F
    let s :=
      if s.rbit Reg.mtxErrinfo 31 then s.orReg Reg.mtxErrinfo (bitW 30)
      else
        let info := b2n (reqWrites r.kind) * 2 ^ 29 + t * 2 ^ 24 + r.m * 2 ^ 16 + c * 2 ^ 8
        ((s.setReg Reg.mtxErraddr r.named.1).setReg Reg.mtxErrinfo
          (BitVec.ofNat 32 (2 ^ 31 + b2n (s.rbit Reg.mtxErrinfo 30) * 2 ^ 30 + info))).log 0x20 r.m (c * 256 + t) r.named.1
    s.incReg Reg.mtxErrcnt

end Sys2Proof.Machine
end

