-- ==== Sys2Proof/Machine/Perf.lean ====
section
/-! DEFINITION. The performance counters of the engines (R420–R427). -/

namespace Sys2Proof.Machine

/-- The context in which an engine runs (R422): background, frame, handler or emulation; while an eret waits for stores the one that would
resume. -/
def State.perfMode (s : State) (e : EngId) : Nat :=
  let back := (s.eng e).hold == some .eret
  if (s.eng e).useq.run || (back && bitOf (s.port e sESTAT) 7) then 3
  else if s.hnd e && !back then 2
  else if (s.eng e).inFrame then 1 else 0

/-- The descriptor of the running frame, 0 where none runs. -/
def State.frameDesc (s : State) (e : EngId) : Nat := match (s.frames e).run with | some f => f.desc | none => 0

/-- The context to which the present fc belongs, with the descriptor of its frame: that of the group that issues in it, also where that
group ends the context (DESIGN CHOICE, log 128), else the one in which the engine runs (R422). -/
def State.perfCtx (s : State) (e : EngId) : Nat × Nat :=
  match (s.eng e).perfAt with
  | some (t, c, d) => if t = s.now then (c, d) else (s.perfMode e, s.frameDesc e)
  | none => (s.perfMode e, s.frameDesc e)

/-- Counter `k` counts event `ev` in the present fc (R423, R424). -/
def State.perfTakes (s : State) (e : EngId) (k ev : Nat) : Bool :=
  let sel := s.reg (Reg.perfSel e k)
  let c := (s.perfCtx e).1
  s.rbit (Reg.perfCtl e) 0 && fldOf sel 0 8 == ev && bitOf sel (8 + c) &&
  (!(c == 1 && bitOf sel 12) || fldOf sel 16 10 == (s.perfCtx e).2) && (ev != 0x10 || c == 1)

/-- A counter gets `n` more; passing 2^48 it keeps the excess and its overflow waits (R425). -/
def Engine.perfBump (x : Engine) (k : Fin 8) (n : Nat) : Engine :=
  { x with perf := x.perf.set k.val (x.perf[k] + BitVec.ofNat 48 n) k.isLt,
           wrapped := if x.perf[k].toNat + n < 2 ^ 48 then x.wrapped else x.wrapped ||| BitVec.ofNat 8 (2 ^ k.val) }

/-- Counters count: the engine's clock runs, and it is mapped and not halted (R422). -/
def State.counts (s : State) (e : EngId) : Bool := s.live e && !s.halted e && s.map.any (· == some e)

/-- Event `ev` adds `n` in this fc to every counter of the engine that counts it (R423). -/
def State.perf (s : State) (e : EngId) (ev n : Nat) : State :=
  if !s.counts e || n == 0 then s
  else forAll (fun (k : Fin 8) s => if s.perfTakes e k ev then s.modEng e (·.perfBump k n) else s) s

/-- An overflow (R425): the bit of PERF_OVF, and with its IE the sample and the freeze. -/
def State.perfOverflow (s : State) (e : EngId) (k : Fin 8) : State :=
  let x := s.eng e
  if !x.wrapped.getLsbD k.val then s
  else
    let s := s.modEng e fun x => { x with wrapped := x.wrapped &&& ~~~(BitVec.ofNat 8 (2 ^ k.val)) }
    let s := s.orReg (Reg.perfOvf e) (bitW k.val)
    if !s.rbit (Reg.perfCtl e) (8 + k.val) then s
    else
      let c := (s.perfCtx e).1 % 4
      let pc := if c = 3 then s.port e sUPC else if x.issued = some s.now then x.grp else x.pc
      let s :=
        if s.rbit (Reg.perfSinfo e) 31 then s.orReg (Reg.perfSinfo e) (bitW 30)
        else (s.setReg (Reg.perfSpc e) pc).setReg (Reg.perfSinfo e)
          (bitW 31 ||| (s.reg (Reg.perfSinfo e) &&& bitW 30) |||
           BitVec.ofNat 32 ((if c = 1 then (s.perfCtx e).2 % 1024 else 0) * 2 ^ 16 + k.val * 2 ^ 8 + c))
      if s.rbit (Reg.perfCtl e) 1 then s.clrReg (Reg.perfCtl e) (bitW 0) else s

/-- A read of PERF_CNTk_LO: the low word as it stood at the start of the fc, with the high half put into PERF_CNTk_HI (R426). -/
def State.perfRead (s : State) (e : EngId) (k : Fin 8) : Word × State :=
  let c := (s.eng e).perf0[k]
  (c.truncate 32, s.setReg (Reg.perfCntHi e k) ((c >>> 32).truncate 32))

/-- A write of PERF_CNTk_HI is held (R426). -/
def State.perfHold (s : State) (e : EngId) (k : Fin 8) (v : Word) : State :=
  s.modEng e fun x => { x with perfHi := x.perfHi.set k.val (v.truncate 16) k.isLt }

/-- A write of PERF_CNTk_LO stores it with the high half held last, after the counts of its fc (R426). -/
def State.perfWrite (s : State) (e : EngId) (k : Fin 8) (v : Word) : State :=
  s.modEng e fun x => { x with perfW := x.perfW ++ [(k, x.perfHi[k] ++ v)] }

/-- The counters of an fc that ends: overflows of the fc have their effect in it, and then the values written in it stand (R425, R426). -/
def State.perfSettle (s : State) (e : EngId) : State :=
  (forAll (fun (k : Fin 8) s => s.perfOverflow e k) s).modEng e fun x =>
    let p := x.perfW.foldl (fun p w => p.set w.1.val w.2 w.1.isLt) x.perf
    { x with perf := p, perf0 := p, perfW := [] }

/-! The meanings -/

/-- PERF_OVERFLOW (R425). -/
def execPerfOverflow (e : EngId) (k : BaseId) (s : State) : Host.Outcome State Fault Refusal := .next (s.perfOverflow e k)
/-- PERF_COUNT_READ (R426); the windows of absent engines read zero. -/
def execPerfCountRead (e : EngId) (k : BaseId) (s : State) : Host.Outcome State Fault Refusal :=
  .next (if s.present e then { (s.perfRead e k).2 with rdata := [(s.perfRead e k).1] } else { s with rdata := [0] })
/-- PERF_COUNT_WRITE (R426). -/
def execPerfCountWrite (e : EngId) (k : BaseId) (value : Word) (s : State) : Host.Outcome State Fault Refusal :=
  .next (if s.present e then s.perfWrite e k value else s)

end Sys2Proof.Machine
end

