-- ==== Sys2Proof/Machine/Stores.lean ====
section
/-! DEFINITION. The SRAM stores: ECC on reads and writes (R295–R297), borrowed Vitrines (R404, R405), and what a write to a store
means for code that may already be fetched (R127, R226). -/

namespace Sys2Proof.Machine

/-! ECC -/

/-- The store of an address as log entries number it (R416), with its ECC unit in bytes (R295). -/
def State.storeOf (s : State) (a : Nat) : Option (Nat × Nat) :=
  match s.region a with
  | .tile n => some (n.val, 8)
  | .main => some (0x20, 8)
  | .table => some (0x21, 8)
  | .rom => some (0x22, 8)
  | .te n =>
    let o := a % 0x1_0000
    if 0x6000 ≤ o then some (0x10 + n.val, if o < 0x8000 then 2 else if o < 0xC000 then 4 else 8) else none
  | _ => none

/-- The first byte of the ECC unit that holds an address; a Boot ROM unit is named in the range that always holds it (R285). -/
def State.unitOf (s : State) (u a : Nat) : Nat :=
  (match s.region a with | .rom => 0x3000_0000 + a % 0x4_0000 | _ => memKey a) / u * u

/-- The ECC counters of a store: corrected, uncorrectable, and the address register (R300, R301). -/
def eccRegs (store : Nat) : Nat × Nat × Nat :=
  if store < 0x20 then (Reg.teEccce (store % 16), Reg.teEccue (store % 16), Reg.teEccaddr (store % 16))
  else (Reg.sysEccce, Reg.sysEccue, Reg.sysEccaddr)

/-- An uncorrectable unit has been met by `master` (R297). -/
def State.eccUe (s : State) (store unit master : Nat) : State :=
  let s := (s.incReg (eccRegs store).2.1).setReg (eccRegs store).2.2 (BitVec.ofNat 32 unit)
  s.log 0x02 store master (BitVec.ofNat 32 unit)

/-- Each of some uncorrectable units that an access met is counted (R297). -/
def State.eccUes (s : State) (store master : Nat) : List Nat → State
  | [] => s
  | k :: ks => (s.eccUe store k master).eccUes store master ks

/-- A single-bit error has been corrected (R296): counted, logged under CELOG, and written back later except to the Boot ROM (R403). -/
def State.eccCe (s : State) (store unit : Nat) : State :=
  let s := s.incReg (eccRegs store).1
  let s := if store = 0x22 then s else { s with ecc := { s.ecc with wb := s.ecc.wb ++ [(unit, s.now)] } }
  if s.rbit Reg.errCtl 1 then
    { s with free := s.free + 1 }.log 0x01 store (Config.eccSyndrome s.free).toNat (BitVec.ofNat 32 unit)
  else s

/-- The units that `n` bytes from `a` touch. -/
def State.unitsOf (s : State) (u a n : Nat) : List Nat := (List.range n).map (fun k => s.unitOf u (a + k)) |>.dedup

/-- The ECC outcome of reading `n` bytes at `a`: whether an uncorrectable unit is met, with its effects (R296, R297, R412). An injected
uncorrectable error takes an injected single-bit error of the same unit with it. -/
def State.eccRead (s : State) (master a n : Nat) : Bool × State :=
  match s.storeOf a with
  | none => (false, s)
  | some (store, u) =>
    let first := s.unitOf u a
    if s.ecc.injUe.contains store then
      (true, { s with ecc := { s.ecc with injUe := s.ecc.injUe.filter (· != store), injCe := s.ecc.injCe.filter (· != store) } }.eccUe
        store first master)
    else
      match (s.unitsOf u a n).filter (s.ecc.bad.contains ·) with
      | k :: ks => (true, s.eccUes store master (k :: ks))
      | [] =>
        if s.ecc.injCe.contains store then
          (false, { s with ecc := { s.ecc with injCe := s.ecc.injCe.filter (· != store) } }.eccCe store first)
        else (false, s)

/-- The ECC outcome of writing `n` bytes at `a`: whether a unit written in part is uncorrectable, which stops the write; a unit
written whole loses its error and needs no write-back (R296, R297). -/
def State.eccWrite (s : State) (master a n : Nat) : Bool × State :=
  match s.storeOf a with
  | none => (false, s)
  | some (store, u) =>
    let us := s.unitsOf u a n
    let whole (k : Nat) : Bool := decide (((List.range n).filter fun i => s.unitOf u (a + i) == k).length = u)
    match us.filter fun k => s.ecc.bad.contains k && !whole k with
    | k :: ks => (true, s.eccUes store master (k :: ks))
    | [] =>
      (false, { s with ecc := { s.ecc with
        bad := s.ecc.bad.filter (fun k => !us.contains k)
        wb := s.ecc.wb.filter (fun p => !(us.contains p.1 && whole p.1)) } })

/-- The bank in which a byte of a store lies, numbered over all stores; a store whose banks the spec does not divide counts as one
(R289, R293). -/
def State.storeBank (s : State) (a : Nat) : Nat :=
  let k := s.unitOf 1 a
  if 0x2000_0000 ≤ k ∧ k < 0x2100_0000 then k / 0x2_0000 else if 0x5100_0000 ≤ k then k / 0x1_0000 else k / 0x4_0000

/-- A port has accessed the bank of an address in the present fc (R296, R407). -/
def State.bankBusy (s : State) (a : Nat) : Bool :=
  let at' (t : Nat) : Bool := s.mtx.beatAt[t]? == some (some s.now)
  match s.region a with
  | .tile e => (s.eng e).uses.any fun u => u.fc == s.now && s.storeBank (8 * u.dw) == s.storeBank a
  | .main => s.mtx.busy.any fun p => p.1 == memKey a % 0x100_0000 / 0x4_0000 && decide (s.now < p.2)
  | .table => s.alm.walkAt == some s.now || s.alm.portAt == some s.now
  | .rom => at' 24
  | .te e => at' 27 || ((s.eng e).useq.run && (s.eng e).useq.start == s.now)
  | _ => false

/-! Code already fetched -/

/-- The system address of the move word at program address `a` (R181): compact fetch stays in the own Tile Store; a segmented
one adds its descriptor's base. -/
def State.codeAddr (s : State) (e : EngId) (a : Word) : Nat :=
  if s.rbit (Reg.teCfg e) 8 then
    ((s.port e (keySeg (fldOf a 29 3) 0)).toNat + fldOf a 0 29) % 2 ^ 32
  else tileAddr e (a.toNat % 0x8_0000)

/-- A store to `n` bytes at `a` marks the words among the eight that start at an engine's issue point (R127). -/
def State.markStale (s : State) (a n : Nat) : State :=
  forAll (fun (e : EngId) s =>
    if !(s.eng e).clocked then s
    else
      let hit (w : Word) : Bool :=
        (List.range 16).any fun i => (List.range n).any fun j => memKey (s.codeAddr e w + i) == memKey (a + j)
      let ws := ((List.range 8).map fun k => (s.eng e).pc + BitVec.ofNat 32 (16 * k)).filter hit
      if ws.isEmpty then s
      else s.modEng e fun x => { x with stale := x.stale ++ ws.filter (fun w => !x.stale.contains w) }) s

/-- What some bytes hold, kept where nothing is kept of them yet. -/
def keepOld (s : State) (old : List (Nat × Byte)) (a : Nat) : Nat → List (Nat × Byte)
  | 0 => old
  | n + 1 =>
    keepOld s (if old.any (·.1 == a) then old else old ++ [(a, s.memByte a)]) (a + 1) n

/-- A write of `n` bytes to an emulation store of an engine in emulation mode is used only after a SYNC, which must come before the next
dispatch (R226). -/
def State.markDirty (s : State) (a n : Nat) : State :=
  match s.region a with
  | .te e =>
    if s.emu e then s.modEng e fun x => { x with useq := { x.useq with dirty := true, old := keepOld s x.useq.old a n } } else s
  | _ => s

/-- Bytes written to a store, with what that means for code (R127, R226). -/
def State.storeBytes (s : State) (a : Nat) (bs : List Byte) : State :=
  (((s.markDirty a bs.length).writeBytes a bs).markStale a bs.length)

/-! Vitrines -/

/-- The Vitrine of an address, by index (R403). -/
def State.vitrineOf (s : State) (a : Nat) : Option Nat :=
  match s.region a with
  | .tile n => some (128 * n.val + a % 0x8_0000 / 4096)
  | .main => some (2048 + memKey a % 0x100_0000 / 4096)
  | _ => none

/-- The state of a borrow at model fc `t` (R404): 1 COPY, 2 TEST, 3 RESTORE, 0 ended. -/
def Borrow.state (b : Borrow) (t : Nat) : Nat :=
  match b.cut with
  | some c => if t < c then 2 else if t < c + 32 then 3 else 0
  | none => if t < b.start + 32 then 1 else if t < b.start + 352 then 2 else if t < b.start + 384 then 3 else 0

/-- A borrow is abandoned in COPY (R404, R405): counted and flagged, and the Curator goes on with the next Vitrine. -/
def State.borrowAbandon (s : State) : State :=
  (((s.incReg Reg.curAbortcnt).orReg Reg.curStat (bitW 9)).setFld Reg.curStat 0 2 0
    |> fun s => { s with cur := { s.cur with borrow := none, endAt := s.now,
                                             pos := match s.cur.borrow with | some b => b.idx + 1 | none => s.cur.pos } })

/-- An access reaches address `a`: whether it must wait, and what it does to a borrow of that Vitrine (R404, R405). -/
def State.vitrine (s : State) (a : Nat) (write : Bool) : Bool × State :=
  match s.cur.borrow with
  | none => (false, s)
  | some b =>
    if s.vitrineOf a ≠ some b.idx then (false, s)
    else
      match b.state s.now with
      | 1 => if write then (false, s.borrowAbandon) else (false, s)
      | 2 =>
        match b.cut with
        | some _ => (true, s)
        | none =>
          let c := b.start + 32 + 16 * ((s.now - (b.start + 32)) / 16 + 1)
          (true, { s with cur := { s.cur with borrow := some { b with cut := some c } } })
      | 3 => (true, s)
      | _ => (false, s)

/-- A range of bytes meets a borrowed Vitrine at its first or its last byte. -/
def State.vitrines (s : State) (a n : Nat) (write : Bool) : Bool × State :=
  let x := s.vitrine a write
  if x.1 then x else x.2.vitrine (a + (n - 1)) write

end Sys2Proof.Machine
end

