-- ==== Sys2Proof/Machine/TilePort.lean ====
section
/-! DEFINITION. The two ports of a Tile Store bank and what happens where both touch one doubleword in one fc (R289–R292). -/

namespace Sys2Proof.Machine

/-- The doublewords that `n` bytes from `a` touch. -/
def dwsOf (a n : Nat) : List Nat := (List.range n).map (fun i => memKey (a + i) / 8) |>.dedup

/-- The accesses that the other port has made to doubleword `dw` in this fc. -/
def State.crossUses (s : State) (e : EngId) (near : Bool) (dw : Nat) : List PortUse :=
  (s.eng e).uses.filter fun u => u.fc == s.now && u.near != near && u.dw == dw

/-- A collision is recorded against its bank (R292). -/
def State.collide (s : State) (e : EngId) (dw : Nat) : State :=
  let k := dw * 8 / 0x2_0000 % 4
  let s := s.incReg (Reg.teCollCnt e k)
  if s.rbit (Reg.teCollstat e) k then s
  else (s.setReg (Reg.teCollAddr e k) (BitVec.ofNat 32 (dw * 8))).orReg (Reg.teCollstat e) (bitW k)

/-- Collisions of an access with the other port: write with write always, read with write while REC is set (R292); atomics never collide
(R291). -/
def State.collisions (s : State) (e : EngId) (near wr : Bool) : List Nat → State
  | [] => s
  | dw :: dws =>
    let us := (s.crossUses e near dw).filter (!·.atom)
    let hit := if wr then us.any (·.wr) || (!us.isEmpty && s.rbit (Reg.teCollctl e) 8)
               else us.any (·.wr) && s.rbit (Reg.teCollctl e) 8
    (if hit then s.collide e dw else s).collisions e near wr dws

/-- The doubleword as it stood at the start of the fc (R290). -/
def State.dwOld (s : State) (e : EngId) (dw : Nat) : List Byte :=
  match (s.eng e).uses.find? fun u => u.fc == s.now && u.dw == dw && u.wr with
  | some u => u.old
  | none => s.readBytes (dw * 8) 8

/-- The port uses of an access are noted. -/
def State.noteUses (s : State) (e : EngId) (near wr atom : Bool) (a n : Nat) : State :=
  let us := (dwsOf a n).map fun dw =>
    { fc := s.now, near := near, wr := wr, atom := atom, dw := dw, old := s.dwOld e dw,
      keys := (List.range n).map fun i => memKey (a + i) : PortUse }
  s.modEng e fun x => { x with uses := x.uses.filter (fun u => u.fc == s.now) ++ us }

/-- One byte as a port reads it: what the other port writes in the same fc is not seen (R290). -/
def State.portByte (s : State) (e : EngId) (near : Bool) (a : Nat) : Byte :=
  match (s.crossUses e near (memKey a / 8)).find? (·.wr) with
  | some u => u.old.getD (memKey a % 8) 0
  | none => s.readByte a

/-- `n` bytes read through a port of the Tile Store of `e`. -/
def State.portRead (s : State) (e : EngId) (near : Bool) (a n : Nat) : List Byte × State :=
  ((List.range n).map fun i => s.portByte e near (a + i),
   (s.collisions e near false (dwsOf a n)).noteUses e near false false a n)

/-- Bytes written through a port: a byte that the near port writes in the same fc keeps the near port's data (R290). -/
def State.portWrite (s : State) (e : EngId) (near atom : Bool) (a : Nat) (bs : List Byte) : State :=
  let keep (i : Nat) (b : Byte) : Byte :=
    if !near && (s.crossUses e near (memKey (a + i) / 8)).any (fun u => u.keys.contains (memKey (a + i)) && u.wr)
    then s.readByte (a + i) else b
  let out := bs.mapIdx keep
  let s' := if atom then s else s.collisions e near true (dwsOf a bs.length)
  (s'.noteUses e near true atom a bs.length).storeBytes a out

/-- A far access meets an atomic of the near port, or is an atomic that meets an access of it, and waits a fc (R291). -/
def State.meetsAtomic (s : State) (e : EngId) (a n : Nat) (atom : Bool) : Bool :=
  (dwsOf a n).any fun dw => (s.crossUses e false dw).any fun u => atom || u.atom

end Sys2Proof.Machine
end

