-- ==== Sys2Proof/Machine/Lsu.lean ====
section
/-! DEFINITION. Address translation and checks (R175–R185, R191), the two load-store units with their store buffers and far
queues (R182–R193), and deferred faults (R192). -/

namespace Sys2Proof.Machine

/-! Translation -/

/-- Permission bits as SEGW3[3:1] holds them (R177, R178). -/
abbrev permR : Nat := 1
abbrev permW : Nat := 2
abbrev permX : Nat := 4

/-- The system address of the byte `ofs` bytes above program address `a`, and the cause of the first check of R176–R178 that `z`
bytes from there fail, or 0. `seg d w` is word `w` of descriptor `d`. -/
def xlat (segm chk : Bool) (bank : Word) (seg : Nat → Nat → Word) (a : Word) (ofs z need : Nat) : Nat × Nat :=
  if segm then
    let d := fldOf a 29 3
    let off := fldOf a 0 29 + ofs
    let limit := fldOf (seg d 1) 0 29
    let sys := ((seg d 0).toNat + off) % 2 ^ 32
    let w3 := seg d 3
    (sys, if !chk then 0
          else if !bitOf w3 0 then 1
          else if limit < off + z - 1 then 2
          else if fldOf w3 1 3 &&& need ≠ need then 3
          else 0)
  else
    let sys := (fldOf bank 0 16 * 2 ^ 16 + fldOf a 0 16 + ofs) % 2 ^ 32
    (sys, if 0x6000_0000 ≤ sys ∧ sys < 0x7000_0000 then 5 else 0)

/-- Translation with the engine's present mode, BANK and descriptors. -/
def State.xlatNow (s : State) (e : EngId) (a : Word) (ofs z need : Nat) : Nat × Nat :=
  xlat (s.rbit (Reg.teCfg e) 8) (s.rbit (Reg.teMemctl e) 0) (s.port e sBANK) (fun d w => s.port e (keySeg d w)) a ofs z need

/-- The base and limit of a descriptor add up past 0xFFFF_FFFF (R199). -/
def segWraps (base w1 : Word) : Bool := decide (2 ^ 32 ≤ base.toNat + fldOf w1 0 29)

/-- An access goes through a descriptor whose sum wraps: its results are undefined (R9, R199). -/
def State.wildSeg (s : State) (e : EngId) (a : Word) : Bool :=
  s.rbit (Reg.teCfg e) 8 && segWraps (s.port e (keySeg (fldOf a 29 3) 0)) (s.port e (keySeg (fldOf a 29 3) 1))

/-- An address lies in the window of the engine's own Tile Store (R183). -/
def ownWindow (e : EngId) (a : Nat) : Bool := decide (a / 0x10_0000 = 0x200 + e.val)

/-- What a code of the table of R182 asks for. -/
def lsuKind (code : Nat) : ReqKind :=
  if code % 16 < 6 then .read else if code % 16 < 10 then .write else if code % 16 = 10 then .atomAdd else .atomSwap
def lsuSize (code : Nat) : Nat :=
  match code % 16 with
  | 0 => 1 | 1 => 1 | 6 => 1
  | 2 => 2 | 3 => 2 | 7 => 2
  | _ => 4
def lsuSigned (code : Nat) : Bool := code % 16 == 1 || code % 16 == 3
def lsuIndexed (code : Nat) : Bool := code % 16 == 5 || code % 16 == 9

/-- The operation that a trigger of `lsuN.t` with operand `t` starts (R175, R182). -/
def State.lsuDecode (s : State) (e : EngId) (n : PairId) (code : Nat) (t : Word) : MemOp :=
  { lsu := n, far := decide (16 ≤ code), kind := lsuKind code, size := lsuSize code, signed := lsuSigned code,
    a := if lsuIndexed code then s.port e (opO1 (10 + n.val)) + t else t,
    data := s.port e (opO (10 + n.val)), micro := none }

/-- Reads need R, writes need W, atomics need both (R178). -/
def kindNeed : ReqKind → Nat
  | .read => permR
  | .write => permW
  | _ => permR + permW

/-- A request kind is an atomic. -/
def kindAtomic : ReqKind → Bool
  | .atomAdd => true
  | .atomSwap => true
  | _ => false

/-- Where an access goes: system address, whether it is split and how many bytes the first half holds (R184), its descriptor for
TE_MFINFO, and the cause of the first check that fails (R191), or 0. -/
structure Access where
  sys   : Nat
  split : Bool
  first : Nat
  seg   : Nat
  cause : Nat
  deriving DecidableEq, Repr

/-- The translation of an operation. -/
def State.opXlat (s : State) (e : EngId) (o : MemOp) (ofs n : Nat) : Nat × Nat := s.xlatNow e o.a ofs n (kindNeed o.kind)

/-- The access of an operation with all its checks, in the order of R191: those of each half, of a local one also that its S lies in the
own window (R183, R184), then alignment of an atomic, then the region of its last byte. -/
def State.access (s : State) (e : EngId) (o : MemOp) : Access :=
  let z := o.size
  let sys := (s.opXlat e o 0 z).1
  let n1 := 8 - sys % 8
  let split := decide (n1 < z) && !kindAtomic o.kind
  let half (ofs n : Nat) : Nat :=
    let x := s.opXlat e o ofs n
    if x.2 ≠ 0 then x.2 else if !o.far && !ownWindow e x.1 then 4 else 0
  let c1 := half 0 (if split then n1 else z)
  let c2 := if split then half n1 (z - n1) else 0
  { sys := sys, split := split, first := if split then n1 else z
    seg := if s.rbit (Reg.teCfg e) 8 then fldOf o.a 29 3 else 0
    cause := if c1 ≠ 0 then c1 else if c2 ≠ 0 then c2
             else if kindAtomic o.kind && decide (sys % 4 ≠ 0) then 6
             else if s.regionKey sys ≠ s.regionKey ((sys + z - 1) % 2 ^ 32) then 8 else 0 }

/-- The exception of a cause of R191. -/
def causeExc (c : Nat) : Nat := if c ≤ 5 then 3 else 4

/-- A precise memory fault is recorded and becomes the synchronous exception of the group (R191). -/
def State.memFault (s : State) (e : EngId) (a : Word) (info exc : Nat) : State :=
  ((s.setReg (Reg.teMfaddr e) a).setReg (Reg.teMfinfo e) (BitVec.ofNat 32 info)).modEng e
    fun x => { x with sync := some ⟨exc, 0, 0⟩ }

/-- TE_MFINFO of an operation of a load-store unit (R200). -/
def MemOp.info (o : MemOp) (x : Access) : Nat :=
  b2n (o.lsu == 1) * 2 ^ 13 + b2n (reqWrites o.kind) * 2 ^ 12 + b2n x.split * 2 ^ 11 + x.seg * 2 ^ 8 + x.cause

/-- A deferred fault is recorded or marked MORE, and its exception raised (R192): the first group that reaches the issue point after it
does not issue. -/
def State.deferred (s : State) (e : EngId) (addr info exc : Nat) : State :=
  let s := if s.rbit (Reg.teDfinfo e) 14 then s.orReg (Reg.teDfinfo e) (bitW 15)
           else (s.setReg (Reg.teDfaddr e) (BitVec.ofNat 32 addr)).setReg (Reg.teDfinfo e)
                  ((s.reg (Reg.teDfinfo e) &&& bitW 15) ||| bitW 14 ||| BitVec.ofNat 32 info)
  s.raiseAt e exc s.now

/-- SPLIT, HALF1 and HALF2 of TE_DFINFO for an access of `n` halves of which some have failed (R193, R200). -/
def halfInfo (n : Nat) (bad : List Nat) : Nat :=
  if n = 2 then 2 ^ 11 + b2n (bad.contains 0) * 2 ^ 12 + b2n (bad.contains 1) * 2 ^ 13 else 0

/-- The exception of a deferred fault by its KIND (R192). -/
def kindExc (k : Nat) : Nat := if k = 3 then 10 else if k = 5 then 3 else 5

/-- OPK of an operation (R200). -/
def kindOpk : ReqKind → Nat
  | .read => 0
  | .write => 1
  | _ => 2

/-! The store buffers -/

/-- Entries of both store buffers. -/
def Engine.stores (x : Engine) : List StoreEnt := x.sbuf[0] ++ x.sbuf[1]
/-- The memory keys of `n` bytes from a system address. -/
def keysOf (a n : Nat) : List Nat := (List.range n).map fun i => memKey (a + i)
def StoreEnt.keys (t : StoreEnt) : List Nat := keysOf t.addr t.bytes.length
/-- Entries that share a byte with an access (R187). -/
def Engine.overlap (x : Engine) (ks : List Nat) : List StoreEnt := x.stores.filter fun t => t.keys.any ks.contains
/-- The youngest of some entries. -/
def youngest : List StoreEnt → Option StoreEnt
  | [] => none
  | t :: ts => match youngest ts with
    | none => some t
    | some u => if u.seq < t.seq then some t else some u
/-- The entry that a local load is forwarded from (R187). -/
def Engine.forward (x : Engine) (ks : List Nat) : Option StoreEnt :=
  match youngest (x.overlap ks) with
  | some t => if !t.far && ks.all t.keys.contains then some t else none
  | none => none

/-- What the microword that runs can still take back, if it can meet a stack fault (R232, R240). -/
def Engine.undo (x : Engine) : Option MicroUndo := x.useq.fin.bind (·.undo)
/-- A store at this place in store order belongs to a microword that can still meet a stack fault, and stays where it is (R240). -/
def Engine.heldBack (x : Engine) (seq : Nat) : Bool := match x.undo with | some u => decide (u.seq ≤ seq) | none => false

/-- The head of the outbound queue is a message of such a microword. -/
def Engine.outHeld (x : Engine) : Bool := match x.undo with | some u => decide (x.outq.length ≤ u.outN) | none => false

/-- The oldest buffered local store and its LSU. -/
def Engine.oldestLocal (x : Engine) : Option (PairId × StoreEnt) :=
  let f (n : PairId) := (x.sbuf[n].find? fun t => !t.far && !x.heldBack t.seq).map fun t => (n, t)
  match f 0, f 1 with
  | some a, some b => if b.2.seq < a.2.seq then some b else some a
  | some a, none => some a
  | none, b => b

/-- A store entry removed from its buffer. -/
def Engine.dropStore (x : Engine) (n : PairId) (seq : Nat) : Engine :=
  { x with sbuf := x.sbuf.set n.val (x.sbuf[n].filter (·.seq != seq)) n.isLt }

/-- A store entry put into its buffer. -/
def Engine.putStore (x : Engine) (n : PairId) (t : StoreEnt) : Engine :=
  { x with sbuf := x.sbuf.set n.val (x.sbuf[n] ++ [t]) n.isLt }

/-- Bytes written to the own Tile Store through the near port, half by half; a half that meets an uncorrectable unit in part is
not written and becomes a deferred fault (R192, R193, R297). -/
def State.nearStore (s : State) (e : EngId) (lsu opk a : Nat) (bs : List Byte) : State :=
  let ps := splitAt' 8 a bs.length
  let step (x : State × List Nat) (p : (Nat × Nat) × Nat) : State × List Nat :=
    let r := x.1.eccWrite e.val p.1.1 p.1.2
    if r.1 then (r.2, x.2 ++ [p.2])
    else (r.2.portWrite e true false p.1.1 ((bs.drop (p.1.1 - a)).take p.1.2), x.2)
  let r := ps.zipIdx.foldl step (s, [])
  match r.2 with
  | [] => r.1
  | k :: _ => r.1.deferred e (ps.getD k (a, 0)).1 (lsu * 2 ^ 9 + opk * 2 ^ 6 + 3 + halfInfo ps.length r.2) 10

/-- The near port serves no access of this fc yet (R131). -/
def State.nearFree (s : State) (e : EngId) : Bool := !(s.eng e).nearAt.contains s.now
/-- The near port is taken in model fc `t` (R131). -/
def State.claimNear (s : State) (e : EngId) (t : Nat) : State :=
  s.modEng e fun x => { x with nearAt := x.nearAt.filter (s.now ≤ ·) ++ [t] }

/-- The frame to which what the engine does now belongs, by the model fc of its start (R81): the running one, while no handler runs. -/
def State.ofFrame (s : State) (e : EngId) : Option Nat :=
  if (s.eng e).inFrame && !s.hnd e then (s.frames e).run.map (·.start) else none

/-- The frame that still runs. -/
def State.frameNow (s : State) (e : EngId) : Option Nat := (s.frames e).run.map (·.start)

/-- A Curator stall of an access that belongs to the running frame is charged to it (R81). -/
def State.chargeStall (s : State) (e : EngId) (f : Option Nat) : State :=
  if f.isSome && f == s.frameNow e then s.modEng e fun x => { x with charge := true } else s

/-- A local store waits for the near port: it issued in an earlier fc (R148), and no Vitrine holds it (R186). -/
def State.drainWaits (s : State) (e : EngId) : Bool :=
  match (s.eng e).oldestLocal with
  | some (_, t) => decide (t.since < s.now) && !(s.vitrines t.addr t.bytes.length true).1
  | none => false

/-- The oldest local store drains through the near port (R131, R186); in a Vitrine that is being tested it waits, which is charged to
its frame (R81). -/
def State.drain (s : State) (e : EngId) : State :=
  match (s.eng e).oldestLocal with
  | none => s
  | some (n, t) =>
    let v := s.vitrines t.addr t.bytes.length true
    if v.1 then v.2.chargeStall e t.frame
    else ((v.2.claimNear e s.now).modEng e (·.dropStore n t.seq)).nearStore e n.val 1 t.addr t.bytes

/-! Loads -/

/-- A loaded value from its bytes (R182). -/
def extLoad (signed : Bool) (z : Nat) (bs : List Byte) : Word :=
  let v := ofBytes bs
  if signed && decide (2 ^ (8 * z - 1) ≤ v) then BitVec.ofInt 32 ((v : Int) - 2 ^ (8 * z)) else BitVec.ofNat 32 v

/-- Far loads and atomics of an LSU that are outstanding or unread (R108, R200). -/
def Engine.farOwed (x : Engine) (n : PairId) : Nat :=
  (x.far.filter fun f => f.lsu == n && f.kind != .write).length + x.fq[n].length

/-- Why the operation has to wait: the row of the table of R134, and the stall event of R423, 0 where none counts it. `own` are the bytes of
the local stores of its own group, for which it does not wait at the issue point (R131, R134, R187, R188, R458). -/
def State.memWhy (s : State) (e : EngId) (o : MemOp) (code : Nat) (t : Word) (own : List Nat) : Option (Nat × Nat) :=
  let x := s.eng e
  let ks := keysOf (s.access e o).sys o.size
  let ov := x.overlap ks
  if o.far && o.kind != .write && decide (96 ≤ x.farOwed o.lsu) then some (5, 0)
  else if o.kind == .write && decide (4 ≤ x.sbuf[o.lsu].length) then some (6, 0x0C)
  else if o.far then (if ov.any (!·.far) then some (7, 0x0C) else none)
  else if o.kind == .write then none
  else
    let waits := match x.lwait.find? fun w => w.lsu == o.lsu && w.code == code && w.t == t with
      | some w => x.stores.any fun u => w.seqs.contains u.seq
      | none => !ov.isEmpty && !(o.kind == .read && (x.forward ks).isSome)
    if waits && !own.any ks.contains then some (7, 0x0C)
    else if s.nearFree e then none else some (14, 0)

/-- The operation has to wait. -/
def State.memStall (s : State) (e : EngId) (o : MemOp) (code : Nat) (t : Word) : Bool := (s.memWhy e o code t []).isSome

/-- A local load or atomic that begins to wait for stores fixes what it waits for: the overlapping entries and, for a load, every older
entry of its LSU. A load that is served by forwarding fixes nothing (R187). -/
def State.noteWait (s : State) (e : EngId) (o : MemOp) (code : Nat) (t : Word) : State :=
  let x := s.eng e
  let ks := keysOf (s.access e o).sys o.size
  let ov := x.overlap ks
  if o.far || o.kind == .write || (x.lwait.any fun w => w.lsu == o.lsu && w.code == code && w.t == t) ||
     (o.kind == .read && (x.forward ks).isSome) then s
  else
    match youngest ov with
    | none => s
    | some y =>
      let older := if o.kind == .read then (x.sbuf[o.lsu].filter (·.seq < y.seq)).map (·.seq) else []
      s.modEng e fun x => { x with lwait := ⟨o.lsu, code, t, ov.map (·.seq) ++ older⟩ :: x.lwait }

/-- A local read through the near port: whether it met an uncorrectable unit, its bytes, and the state. -/
def State.nearRead (s : State) (e : EngId) (a n : Nat) : Bool × List Byte × State :=
  let r := s.eccRead e.val a n
  let p := r.2.portRead e true a n
  (r.1, p.1, p.2)

/-- The same half by half, for an access that may be split: the halves that failed (R184, R193). -/
def State.nearHalves (s : State) (e : EngId) (a n : Nat) : List Nat × List Byte × State :=
  (splitAt' 8 a n).zipIdx.foldl (fun (x : List Nat × List Byte × State) p =>
    let r := x.2.2.nearRead e p.1.1 p.1.2
    (if r.1 then x.1 ++ [p.2] else x.1, x.2.1 ++ r.2.1, r.2.2)) ([], [], s)

/-- What an atomic writes (R190). -/
def atomNew (k : ReqKind) (old o : Word) : Word := if k = .atomAdd then old + o else o

/-- The delay of a local load or atomic begins to run (R135). -/
def State.pushLoad (s : State) (e : EngId) (n : PairId) (p : PendLoad) : State :=
  s.modEng e fun g => { g with lq := g.lq.set n.val (g.lq[n] ++ [p]) n.isLt }

/-- The near-port access of a local load or atomic in the present fc, at a Tile Store whose earlier stores have drained (R107, R135, R190,
R291); `res` is its result where that is free. An atomic that meets an uncorrectable error writes nothing (R297). -/
def State.localDo (s : State) (e : EngId) (o : MemOp) (x : Access) (res : Option Word) : State :=
  let t := s.now
  let s := s.claimNear e t
  if kindAtomic o.kind then
    let old := wordOf (s.readBytes x.sys 4)
    let q := s.eccRead e.val x.sys 4
    let r := if q.1 then q else q.2.eccWrite e.val x.sys 4
    let s := if r.1 then r.2
      else r.2.portWrite e true true x.sys (bytesOf 4 (atomNew o.kind old o.data).toNat)
    s.pushLoad e o.lsu ⟨t + 3, res.getD old, r.1, BitVec.ofNat 32 x.sys, 0, true⟩
  else
    let ps := splitAt' 8 x.sys o.size
    let r := s.nearHalves e x.sys o.size
    r.2.2.pushLoad e o.lsu ⟨t + (if x.split then 4 else 3), res.getD (extLoad o.signed o.size r.2.1), !r.1.isEmpty,
      BitVec.ofNat 32 (ps.getD (r.1.headD 0) (x.sys, 0)).1, halfInfo ps.length r.1, false⟩

/-- A local load or atomic (R107, R135, R187, R190, R458), its near-port fc `d` fc late: forwarded from the youngest store that shares a
byte with it where that one holds every byte; held after its group's issue where a store of that group is in its way or its fc is a later
one; else carried out. -/
def State.localOp (s : State) (e : EngId) (o : MemOp) (x : Access) (d : Nat) (res : Option Word) : State :=
  let ks := keysOf x.sys o.size
  let g := s.eng e
  let ov := g.overlap ks
  match (if o.kind = .read then g.forward ks else none) with
  | some t =>
    let bs := ks.map fun k => t.bytes.getD (t.keys.idxOf k) 0
    (s.claimNear e (s.now + d)).pushLoad e o.lsu
      ⟨s.now + d + 3, res.getD (extLoad o.signed o.size bs), false, BitVec.ofNat 32 x.sys, 0, false⟩
  | none =>
    match youngest ov with
    | none =>
      if d = 0 then s.localDo e o x res
      else (s.claimNear e (s.now + d)).modEng e fun g => { g with late := some ⟨o, [], res, s.now + d⟩ }
    | some y =>
      let older := (g.sbuf[o.lsu].filter (·.seq < y.seq)).map (·.seq)
      s.modEng e fun g => { g with late := some ⟨o, ov.map (·.seq) ++ older, res, s.now + d⟩ }

/-- Far requests through this access are ordered (R176, R177), and the node they name. -/
def State.farOrdered (s : State) (e : EngId) (a : Word) : Bool :=
  if s.rbit (Reg.teCfg e) 8 then bitOf (s.port e (keySeg (fldOf a 29 3) 3)) 4 else s.rbit (Reg.teMemctl e) 1
def State.farNode (s : State) (e : EngId) (a : Word) : NodeId :=
  if s.rbit (Reg.teCfg e) 8 then (s.port e (keySeg (fldOf a 29 3) 2)).truncate 12 else 0

/-- A request that has left the far port joins its operation. -/
def FarOp.join (f : FarOp) (seq id : Nat) (a : Word) : FarOp :=
  if f.seq = seq then { f with halves := f.halves ++ [⟨id, a, none, []⟩] } else f

/-- The far port issues the requests whose fc has come, in trigger order; one that shares a byte with a local store of its own group
waits until that has drained, and later ones behind it (R130, R184, R189, R458). `k` bounds their number. -/
def State.pumpFar (s : State) (e : EngId) : Nat → State
  | 0 => s
  | k + 1 =>
    match (s.eng e).farq with
    | [] => s
    | f :: fs =>
      if s.now < f.at' || (f.spec.kind != .read && (s.eng e).heldBack f.seq) || (match f.store with | some q => (s.eng e).stores.any (·.seq == q) | none => false) then s
      else
        let r := s.issueReq e.val f.spec
        (r.1.modEng e fun g => { g with farq := fs, far := g.far.map (·.join f.seq r.2 f.spec.addr) }).pumpFar e k

/-- A far operation enters the far port (R184, R189), `d` fc after its group's issue: one matrix request, or two in consecutive fc for
a split access. -/
def State.farOp (s : State) (e : EngId) (o : MemOp) (x : Access) (d : Nat) (res : Option Word) : State :=
  let bs := if o.kind == .read then [] else bytesOf o.size o.data.toNat
  let own := (youngest (((s.eng e).overlap (keysOf x.sys o.size)).filter (!·.far))).map (·.seq)
  let seq := (s.eng e).seq
  let frame := s.ofFrame e
  let node := s.farNode e o.a
  let parts := if x.split then [(0, x.first), (x.first, o.size - x.first)] else [(0, o.size)]
  let slot (p : (Nat × Nat) × Nat) : FarSlot :=
    { seq := seq, at' := s.now + d + p.2, store := own
      spec := { addr := BitVec.ofNat 32 (x.sys + p.1.1), kind := o.kind, len := p.1.2, data := (bs.drop p.1.1).take p.1.2,
                ordered := s.farOrdered e o.a, node := node } }
  let s := (s.iftTake e 1).modEng e fun g =>
    { (if o.kind == .write then g.putStore o.lsu ⟨seq, true, x.sys, bs, s.now, frame⟩ else g) with
             seq := seq + 1
             far := g.far ++ [{ seq := seq, lsu := o.lsu, kind := o.kind, size := o.size, signed := o.signed,
                                addr := BitVec.ofNat 32 x.sys, node := node, halves := [], parts := parts.length,
                                issued := s.now + d, micro := o.micro, frame := frame, wild := res }]
             farq := g.farq ++ parts.zipIdx.map slot }
  s.pumpFar e 4

/-- An operation that passed its checks and need not wait is carried out. `d` is the fc by which its near-port access or far request is
late. Through a wrapping descriptor its data and its result are free (R9, R199). -/
def State.memRun (s : State) (e : EngId) (o : MemOp) (d : Nat) : State :=
  let x := s.access e o
  let wild := s.wildSeg e o.a
  let o := if wild then { o with data := Config.freeWord (s.free + 1) } else o
  let res := if wild then some (Config.freeWord (s.free + 2)) else none
  let s := if wild then s.drawn 3 else s
  let s := s.modEng e fun g => { g with lwait := g.lwait.filter fun w => w.lsu != o.lsu }
  if o.far then s.farOp e o x d res
  else if o.kind = .write then
    let frame := s.ofFrame e
    s.modEng e fun g =>
      { g.putStore o.lsu ⟨g.seq, false, x.sys, bytesOf o.size o.data.toNat, s.now + d, frame⟩ with seq := g.seq + 1 }
  else s.localOp e o x d res

/-- A near-port access of a group meets a borrowed Vitrine (R133): whether it must wait, with what the Curator then does. The wait of
a frame's access is charged to the frame (R81). -/
def State.memHeld (s : State) (e : EngId) (o : MemOp) : Bool × State :=
  if o.far || o.kind == .write then (false, s)
  else
    let v := s.vitrines (s.access e o).sys o.size (kindAtomic o.kind)
    (v.1, if v.1 then v.2.chargeStall e (s.ofFrame e) else v.2)

/-- The local load or atomic that has not taken the near port yet takes it in its fc, or in the fc after the last of what it waits for has
drained; no group issues up to and including that fc (R130, R132, R458). -/
def State.lateRun (s : State) (e : EngId) : State :=
  match (s.eng e).late with
  | none => s
  | some l =>
    if decide (s.now < l.at') || (s.eng e).stores.any fun t => l.seqs.contains t.seq then s
    else
      let v := s.memHeld e l.op
      if v.1 then v.2
      else
        (v.2.localDo e l.op (v.2.access e l.op) l.res).modEng e fun x =>
          { x with late := none, last := s.now, free := max x.free (s.now + 1) }

/-- A trigger of an LSU by itself: a precise fault, a wait, or the operation. -/
def State.lsuOp (s : State) (e : EngId) (n : PairId) (code : Nat) (t : Word) : State :=
  let o := s.lsuDecode e n code t
  let x := s.access e o
  if !s.runs e || (s.eng e).sync.isSome then s
  else if x.cause ≠ 0 then s.memFault e o.a (o.info x) (causeExc x.cause)
  else if s.memStall e o code t then s.noteWait e o code t
  else if o.far && decide (256 ≤ s.iftUsed e) then s
  else
    let v := s.memHeld e o
    if v.1 then v.2
    else ((v.2.memRun e o 0).meetSpar e (window (10 + n.val) + code)).perf e 0x0F (b2n (o.far && o.kind != .write))

/-- The head of LSUn's pending local loads arrives: its delay has elapsed (R107); one that met an uncorrectable unit leaves
LSUn.q and becomes a deferred fault (R192). DESIGN CHOICE (log 127): TE_DFINFO.LOCAL, which R200 gives for a local load, is set for a local
atomic too. -/
def State.localResult (s : State) (e : EngId) (n : PairId) : State :=
  match (s.eng e).lq[n] with
  | [] => s
  | p :: ps =>
    if s.now < p.due then s
    else
      let s := s.modEng e fun g => { g with lq := g.lq.set n.val ps n.isLt }
      if p.bad then
        s.deferred e p.addr.toNat (n.val * 2 ^ 9 + 2 ^ 8 + (if p.atom then 2 else 0) * 2 ^ 6 + 3 + p.info) 10
      else s.setPort e (keyLq n.val) p.val

/-- Both halves of a far operation have been answered. -/
def FarOp.ready (f : FarOp) : Bool := decide (f.halves.length = f.parts) && f.halves.all (·.resp.isSome)
/-- A half that failed. -/
def FarHalf.failed (h : FarHalf) : Bool := decide (h.resp ≠ some .okay)
/-- The bytes of a far operation. -/
def FarOp.bytes (f : FarOp) : List Byte := f.halves.flatMap (·.data)

/-- The deferred fault of a far operation, if a half failed (R192, R193). -/
def State.farFault (s : State) (e : EngId) (f : FarOp) : State :=
  match f.halves.find? (·.failed) with
  | none => s
  | some h =>
    let k := match h.resp with | some r => r.code | none => 0
    let bad := (f.halves.zipIdx.filter (·.1.failed)).map (·.2)
    s.deferred e h.addr.toNat (f.lsu.val * 2 ^ 9 + kindOpk f.kind * 2 ^ 6 + k + halfInfo f.halves.length bad) (kindExc k)

/-- The oldest far load or atomic of LSUn is answered: its result enters LSUn.fq, zero if it failed, and its in-flight entry frees
(R108, R136, R189, R192). -/
def State.farResult (s : State) (e : EngId) (n : PairId) : State :=
  match (s.eng e).far.find? fun f => f.lsu == n && f.kind != .write && f.micro.isNone with
  | none => s
  | some f =>
    if !f.ready then s
    else
      let v := match f.wild with
        | some w => w
        | none => if f.halves.any (·.failed) then 0 else extLoad f.signed f.size f.bytes
      let s := s.modEng e fun g => { g with far := g.far.filter (·.seq != f.seq), fq := g.fq.set n.val (g.fq[n] ++ [v]) n.isLt }
      (s.iftFree e 1).farFault e f

/-- A far store of LSUn is answered: it leaves its store buffer entry and its in-flight entry (R136, R186). -/
def State.farStoreDone (s : State) (e : EngId) (n : PairId) : State :=
  match (s.eng e).far.find? fun f => f.lsu == n && f.kind == .write && f.ready with
  | none => s
  | some f =>
    let s := s.modEng e fun g => { g.dropStore n f.seq with far := g.far.filter (·.seq != f.seq) }
    (s.iftFree e 1).farFault e f

/-! The meanings -/

/-- LSU_LDBU (R182): code 0x00 of the table of R182. -/
def execLsuLdbu (e : EngId) (n : PairId) (t : Word) (s : State) : Host.Outcome State Fault Refusal := .next (s.lsuOp e n 0x00 t)
/-- LSU_LDBS (R182): code 0x01 of the table of R182. -/
def execLsuLdbs (e : EngId) (n : PairId) (t : Word) (s : State) : Host.Outcome State Fault Refusal := .next (s.lsuOp e n 0x01 t)
/-- LSU_LDHU (R182): code 0x02 of the table of R182. -/
def execLsuLdhu (e : EngId) (n : PairId) (t : Word) (s : State) : Host.Outcome State Fault Refusal := .next (s.lsuOp e n 0x02 t)
/-- LSU_LDHS (R182): code 0x03 of the table of R182. -/
def execLsuLdhs (e : EngId) (n : PairId) (t : Word) (s : State) : Host.Outcome State Fault Refusal := .next (s.lsuOp e n 0x03 t)
/-- LSU_LDW (R182): code 0x04 of the table of R182. -/
def execLsuLdw (e : EngId) (n : PairId) (t : Word) (s : State) : Host.Outcome State Fault Refusal := .next (s.lsuOp e n 0x04 t)
/-- LSU_LDWX (R182): code 0x05 of the table of R182. -/
def execLsuLdwx (e : EngId) (n : PairId) (t : Word) (s : State) : Host.Outcome State Fault Refusal := .next (s.lsuOp e n 0x05 t)
/-- LSU_STB (R182): code 0x06 of the table of R182. -/
def execLsuStb (e : EngId) (n : PairId) (t : Word) (s : State) : Host.Outcome State Fault Refusal := .next (s.lsuOp e n 0x06 t)
/-- LSU_STH (R182): code 0x07 of the table of R182. -/
def execLsuSth (e : EngId) (n : PairId) (t : Word) (s : State) : Host.Outcome State Fault Refusal := .next (s.lsuOp e n 0x07 t)
/-- LSU_STW (R182): code 0x08 of the table of R182. -/
def execLsuStw (e : EngId) (n : PairId) (t : Word) (s : State) : Host.Outcome State Fault Refusal := .next (s.lsuOp e n 0x08 t)
/-- LSU_STWX (R182): code 0x09 of the table of R182. -/
def execLsuStwx (e : EngId) (n : PairId) (t : Word) (s : State) : Host.Outcome State Fault Refusal := .next (s.lsuOp e n 0x09 t)
/-- LSU_AADD (R190): code 0x0A of the table of R182. -/
def execLsuAadd (e : EngId) (n : PairId) (t : Word) (s : State) : Host.Outcome State Fault Refusal := .next (s.lsuOp e n 0x0A t)
/-- LSU_ASWP (R190): code 0x0B of the table of R182. -/
def execLsuAswp (e : EngId) (n : PairId) (t : Word) (s : State) : Host.Outcome State Fault Refusal := .next (s.lsuOp e n 0x0B t)
/-- LSU_LDFBU (R182): code 0x10 of the table of R182. -/
def execLsuLdfbu (e : EngId) (n : PairId) (t : Word) (s : State) : Host.Outcome State Fault Refusal := .next (s.lsuOp e n 0x10 t)
/-- LSU_LDFBS (R182): code 0x11 of the table of R182. -/
def execLsuLdfbs (e : EngId) (n : PairId) (t : Word) (s : State) : Host.Outcome State Fault Refusal := .next (s.lsuOp e n 0x11 t)
/-- LSU_LDFHU (R182): code 0x12 of the table of R182. -/
def execLsuLdfhu (e : EngId) (n : PairId) (t : Word) (s : State) : Host.Outcome State Fault Refusal := .next (s.lsuOp e n 0x12 t)
/-- LSU_LDFHS (R182): code 0x13 of the table of R182. -/
def execLsuLdfhs (e : EngId) (n : PairId) (t : Word) (s : State) : Host.Outcome State Fault Refusal := .next (s.lsuOp e n 0x13 t)
/-- LSU_LDFW (R182): code 0x14 of the table of R182. -/
def execLsuLdfw (e : EngId) (n : PairId) (t : Word) (s : State) : Host.Outcome State Fault Refusal := .next (s.lsuOp e n 0x14 t)
/-- LSU_LDFWX (R182): code 0x15 of the table of R182. -/
def execLsuLdfwx (e : EngId) (n : PairId) (t : Word) (s : State) : Host.Outcome State Fault Refusal := .next (s.lsuOp e n 0x15 t)
/-- LSU_STFB (R182): code 0x16 of the table of R182. -/
def execLsuStfb (e : EngId) (n : PairId) (t : Word) (s : State) : Host.Outcome State Fault Refusal := .next (s.lsuOp e n 0x16 t)
/-- LSU_STFH (R182): code 0x17 of the table of R182. -/
def execLsuStfh (e : EngId) (n : PairId) (t : Word) (s : State) : Host.Outcome State Fault Refusal := .next (s.lsuOp e n 0x17 t)
/-- LSU_STFW (R182): code 0x18 of the table of R182. -/
def execLsuStfw (e : EngId) (n : PairId) (t : Word) (s : State) : Host.Outcome State Fault Refusal := .next (s.lsuOp e n 0x18 t)
/-- LSU_STFWX (R182): code 0x19 of the table of R182. -/
def execLsuStfwx (e : EngId) (n : PairId) (t : Word) (s : State) : Host.Outcome State Fault Refusal := .next (s.lsuOp e n 0x19 t)
/-- LSU_FAADD (R190): code 0x1A of the table of R182. -/
def execLsuFaadd (e : EngId) (n : PairId) (t : Word) (s : State) : Host.Outcome State Fault Refusal := .next (s.lsuOp e n 0x1A t)
/-- LSU_FASWP (R190): code 0x1B of the table of R182. -/
def execLsuFaswp (e : EngId) (n : PairId) (t : Word) (s : State) : Host.Outcome State Fault Refusal := .next (s.lsuOp e n 0x1B t)
/-- LOCAL_LOAD_RESULT (R107, R135). -/
def execLocalLoadResult (e : EngId) (n : PairId) (s : State) : Host.Outcome State Fault Refusal :=
  .next (if s.live e then s.localResult e n else s)
/-- FAR_LOAD_RESULT (R108, R189). -/
def execFarLoadResult (e : EngId) (n : PairId) (s : State) : Host.Outcome State Fault Refusal :=
  .next (if s.live e then s.farResult e n else s)
/-- FAR_STORE_COMPLETION (R186). -/
def execFarStoreCompletion (e : EngId) (n : PairId) (s : State) : Host.Outcome State Fault Refusal :=
  .next (if s.live e then s.farStoreDone e n else s)

end Sys2Proof.Machine
end

