-- ==== Sys2Proof/Machine/Control.lean ====
section
/-! DEFINITION. What comes after an issue group: branches and their delay groups (R138–R140), the repeat prefix (R141, R142),
hardware loops (R143–R145), and SYNC with the sync-class registers (R146, R147). -/

namespace Sys2Proof.Machine

/-! Words of the prefetch queue -/

/-- The line that holds an address (R123). -/
def lineOf (a : Word) : Word := a &&& 0xFFFF_FFE0

/-- The bytes of a line from `o` on, where every part is there. -/
def Line.bytesAt (l : Line) (o : Nat) : Option (List Byte) :=
  ((List.range 16).mapM fun i =>
    match l.parts.find? fun p => decide (p.off ≤ o + i) && decide (o + i < p.off + p.len) with
    | some p => p.data.bind fun d => d[o + i - p.off]?
    | none => none)

/-- The parts of a line that hold bytes of the word at offset `o`. -/
def Line.partsOf (l : Line) (o : Nat) : List LinePart :=
  l.parts.filter fun p => decide (p.off < o + 16) && decide (o < p.off + p.len)
/-- The exception that a word of a line raises, if its fetch failed (R124, R181, R459). -/
def Line.excAt (l : Line) (o : Nat) : Option (Nat × Word) := (l.partsOf o).findSome? (·.exc)
/-- Every part of a line has arrived; or some part has. -/
def Line.whole (l : Line) : Bool := l.parts.all (·.here)
def Line.some' (l : Line) : Bool := l.parts.any (·.here)

/-- A move word in the prefetch queue: not there, failed with an exception, or its 128 bits (R92, R125). -/
inductive Fetched where
  | missing
  | failed (exc : Nat) (info : Word)
  | word (w : Quad)
  deriving DecidableEq, Repr

/-- The word at an address as it stands in some lines. -/
def wordIn (ls : List Line) (a : Word) : Fetched :=
  match ls.find? fun l => l.addr == lineOf a && (l.partsOf (a.toNat % 32)).all (·.here) with
  | none => .missing
  | some l =>
    let o := a.toNat % 32
    match l.excAt o with
    | some (e, i) => .failed e i
    | none => match l.bytesAt o with
      | some bs => .word (BitVec.ofNat 128 (ofBytes bs))
      | none => .missing

/-- Header fields of a move word (R93). -/
def wLane (w : Quad) : Bool := w.getLsbD 127
def wPair (w : Quad) : Bool := w.getLsbD 126
def wLimm (w : Quad) : Nat := w.toNat / 2 ^ 124 % 4
def wLimmHi (w : Quad) : Nat := w.toNat / 2 ^ 120 % 16
/-- The 28 bits of slot `k` (R92). -/
def wSlot (w : Quad) (k : Nat) : Nat := w.toNat / 2 ^ (28 * k) % 2 ^ 28

/-- A slot holds a move (R95). -/
def isMove (w : Quad) (k : Nat) : Bool := wSlot w k != 0 && !(k == 3 && wLimm w == 1)

/-- The word raises Reserved Encoding (R118). -/
def wReserved (w : Quad) : Bool :=
  decide (w.toNat / 2 ^ 112 % 256 ≠ 0) || (wLimm w == 0 && wLimmHi w != 0) || wLimm w == 2 || wLimm w == 3 ||
  (List.range 4).any fun k => isMove w k && wSlot w k / 2 ^ 24 == 8

/-- Two words form a pair's group (R128, R118). -/
def pairs (a b : Quad) : Bool := !wLane a && wPair a && wLane b && !wReserved a && !wReserved b

/-- The end of the group at an address among some lines, or the address of a word that is not there. -/
def groupEnd (ls : List Line) (a : Word) : Word ⊕ Word :=
  match wordIn ls a with
  | .missing => .inr a
  | .failed _ _ => .inl (a + 16)
  | .word w =>
    if wLane w || !wPair w || wReserved w then .inl (a + 16)
    else match wordIn ls (a + 16) with
      | .missing => .inr (a + 16)
      | .failed _ _ => .inl (a + 16)
      | .word v => .inl (if pairs w v then a + 32 else a + 16)

/-- The end of `n` groups from an address, or the first word that is not there. -/
def groupsEnd (ls : List Line) : Nat → Word → Word ⊕ Word
  | 0, a => .inl a
  | n + 1, a => match groupEnd ls a with
    | .inl b => groupsEnd ls n b
    | .inr m => .inr m

/-- A move word as the queue holds it, or else as its memory holds it. -/
def State.codeWord (s : State) (e : EngId) (a : Word) : Quad :=
  match wordIn (s.eng e).lines a with
  | .word w => w
  | _ => BitVec.ofNat 128 (ofBytes (s.readBytes (s.codeAddr e a) 16))

/-- The address after the group at `a`. -/
def State.codeEnd (s : State) (e : EngId) (a : Word) : Word :=
  if pairs (s.codeWord e a) (s.codeWord e (a + 16)) then a + 32 else a + 16

/-- The prefetch queue is discarded (R127, R147). -/
def Engine.discard (x : Engine) : Engine := { x with lines := [], stale := [], tfetch := false }

/-- The queue from the last line that holds an address on. -/
def linesFrom (a : Word) (ls : List Line) : List Line :=
  match ls.reverse.dropWhile (·.addr != lineOf a) with
  | [] => []
  | l :: _ => l :: (ls.reverse.takeWhile (·.addr != lineOf a)).reverse

/-- An entry waits for its vector word: the read is still to be made, or is on its way through the far port (R213). -/
def Engine.vecWait (x : Engine) : Bool :=
  x.vecRd.isSome || (match x.vreq with | some (_, _, w) => w | none => false)

/-! Branches -/

/-- A repetition ends here; RPTC then reads 0 (R142, R209). -/
def State.endRep (s : State) (e : EngId) : State :=
  if (s.eng e).rep = 0 then s else (s.setPort e sRPTC 0).modEng e fun x => { x with rep := 0 }

/-- A taken branch: two delay groups from `nxt` on, then the target; the queue keeps the delay groups' lines (R139, R140). -/
def State.takeBranch (s : State) (e : EngId) (t : Word) : State :=
  (s.endRep e).modEng e fun x =>
    let keep := match groupsEnd x.lines 2 x.nxt with
      | .inl b => fun (l : Line) => decide ((l.addr - lineOf x.nxt).toNat < (b - lineOf x.nxt).toNat)
      | .inr m => fun (l : Line) => decide ((l.addr - lineOf x.nxt).toNat ≤ (lineOf m - lineOf x.nxt).toNat)
    { x with tgt := t &&& 0xFFFF_FFF0, dly := 2, pc := x.nxt, lines := x.lines.filter keep, tfetch := false,
             retDly := false }

/-! Loops -/

/-- The values of a loop level. -/
def State.lps (s : State) (e : EngId) (k : Nat) : Word := s.port e (sLPS k)
def State.lpe (s : State) (e : EngId) (k : Nat) : Word := s.port e (sLPE k)
def State.lpc (s : State) (e : EngId) (k : Nat) : Word := s.port e (sLPC k)

/-- A write of LPSk: the loop line buffer no longer holds its line (R145). -/
def State.setLps (s : State) (e : EngId) (k : Fin 2) (v : Word) : State :=
  (s.setPort e (sLPS k) v).modEng e fun x => { x with lbuf := x.lbuf.set k.val none k.isLt }

/-- The loop test for the group at `a`, inner level first: the address of the next group if a level jumps back (R143). -/
def State.loopTest (s : State) (e : EngId) (a : Word) : Option (Fin 2) × State :=
  let level (k : Fin 2) (s : State) : Option (Option (Fin 2) × State) :=
    if s.lpc e k ≠ 0 ∧ a = s.lpe e k then
      if 1 < (s.lpc e k).toNat then some (some k, s.setPort e (sLPC k) (s.lpc e k - 1))
      else some (none, s.setPort e (sLPC k) 0)
    else none
  match level 1 s with
  | some (some k, s) => (some k, s)
  | some (none, s) => match level 0 s with
    | some r => r
    | none => (none, s)
  | none => match level 0 s with
    | some r => r
    | none => (none, s)

/-- A group at LPEk of an active level (R207, R223). -/
def State.atLoopEnd (s : State) (e : EngId) (a : Word) : Bool :=
  (List.range 2).any fun k => decide (s.lpc e k ≠ 0) && decide (a = s.lpe e k)

/-- The next group is at `t`: the queue goes on from the line that holds it. -/
def Engine.goTo (x : Engine) (t : Word) : Engine := { x with pc := t, lines := linesFrom t x.lines }

/-- The jump from LPEk back to LPSk: the loop line buffer gives the line where it holds it, and the next line may be requested in the
fc of the return; else the line itself is requested in the fc after the group at LPEk issued (R145). -/
def State.loopBack (s : State) (e : EngId) (k : Fin 2) : State :=
  let t := s.lps e k &&& 0xFFFF_FFF0
  s.modEng e fun x =>
    let ls := match x.lbuf[k] with
      | some l => if l.addr = lineOf t then [l] else []
      | none => []
    { x with pc := t, lines := ls, tfetch := false
             fetchAt := if ls.isEmpty then max x.fetchAt ((x.issued.getD s.now) + 1) else x.fetchAt }

/-- The loop test of a group that is neither a delay group nor a branch, and the next group (R143, R208). -/
def State.nextByLoop (s : State) (e : EngId) (a nxt : Word) : State :=
  if (s.eng e).owe = some false then s.modEng e fun x => { x.goTo nxt with owe := none }
  else
    let r := s.loopTest e a
    match r.1 with
    | some k => (r.2.loopBack e k).modEng e fun x => { x with owe := none }
    | none => r.2.modEng e fun x => { x.goTo nxt with owe := none }

/-- A group has issued for the last time: the next one is the branch target after the last delay group, or by the loop test. A line that
the delay groups have wholly passed leaves the queue (R123, R140). -/
def State.leaveGroup (s : State) (e : EngId) (a nxt : Word) : State :=
  let x := s.eng e
  if x.dly = 0 then s.nextByLoop e a nxt
  else if x.dly = 1 then
    s.modEng e fun x => { x.goTo x.tgt with dly := 0, tgt := 0, tfetch := false, owe := none }
  else
    s.modEng e fun x =>
      { x with dly := x.dly - 1, pc := nxt, owe := none, lines := x.lines.dropWhile (·.addr != lineOf nxt) }

/-- The start-of-iteration test of a repeated group (R141): it leaves, or another iteration follows. -/
def State.repTest (s : State) (e : EngId) : State :=
  let x := s.eng e
  if x.rep ≠ 2 then s
  else if s.port e sRPTC = 0 then (s.modEng e fun x => { x with rep := 0 }).leaveGroup e x.pc x.nxt
  else (s.setPort e sRPTC (s.port e sRPTC - 1)).modEng e fun x => { x with rep := 3 }

/-! SYNC and the sync-class registers -/

/-- The writable bits of a sync-class register (R202, R228, R245). -/
def syncMask (k : Nat) : Word :=
  if k = sVBASE then 0xFFFF_F000 else if k = sEMUBASE then 0x7F else if k = sUPC then 0xFFF else 0xFFFF_FFFF

/-- A socket is a sync-class register (R146). -/
def isSync (k : Nat) : Bool := k == sVBASE || k == sEMUBASE || k == sMPC || k == sUPC

/-- The pending control write is applied (R147). -/
def State.applyPend (s : State) (e : EngId) : State :=
  match (s.eng e).pend with
  | none => s
  | some (k, v) => (s.setPort e k (v &&& syncMask k)).modEng e fun x => { x with pend := none }

/-- Every store of the engine has completed: local stores, far stores, far atomics and CTL words of alw (R147). -/
def State.storesDone (s : State) (e : EngId) : Bool :=
  let x := s.eng e
  x.stores.isEmpty && !(x.far.any fun f => f.kind != .read) && !(x.outq.any (·.alw))

/-- The steps of R147 after the last store: the pending write applies, the queue is discarded, and the held group's line is
requested from the next fc on; writes to the emulation stores are then synchronised (R226). -/
def State.syncDone (s : State) (e : EngId) : State :=
  (s.applyPend e).modEng e fun x =>
    { x.discard with hold := none, fetchAt := s.now + 1, free := max x.free (s.now + 3),
                     useq := { x.useq with dirty := false, old := [] } }

/-! The operations of CTL.t (R138). `d` is 1 for a lane-B trigger of a split pair. -/

/-- What a CTL trigger does; the return ctl.t:eret stands in Machine/Exceptions.lean. -/
def State.ctlDo (s : State) (e : EngId) (code d : Nat) (t : Word) : State :=
  let x := s.eng e
  let o := s.port e (opO 13)
  match code with
  | 0x00 => s.takeBranch e t
  | 0x01 => s.takeBranch e (x.grp + t * 16)
  | 0x02 =>
    let ret := s.codeEnd e (s.codeEnd e x.nxt)
    (s.trigger e 13 (s.now + d) 1 1 ret 0 false 0).takeBranch e t
  | 0x03 => (s.modEng e fun x => { x with ret := some (x.grp, t &&& 0xFFFF_FFF0) }).takeBranch e t
  | 0x04 => s.modEng e fun x => { x with rep := if x.rep = 0 then 1 else x.rep }
  | 0x05 => ((s.setLps e 0 x.nxt).setPort e (sLPE 0) (o &&& 0xFFFF_FFF0)).setPort e (sLPC 0) t
  | 0x06 => ((s.setLps e 1 x.nxt).setPort e (sLPE 1) (o &&& 0xFFFF_FFF0)).setPort e (sLPC 1) t
  | 0x07 => s.modEng e fun x => { x with hold := some .sync }
  | 0x10 => (s.endRep e).modEng e fun x => { x with trap := some (t.toNat % 256, s.now) }
  | _ => s

/-- A CTL trigger by itself, as one of the group issued last; a TRAP in a repeated group ends the repetition, and the next group follows
(R209). -/
def State.ctlOp (s : State) (e : EngId) (code : Nat) (t : Word) : State :=
  if !s.runs e then s
  else
    let x := s.eng e
    let s := if code = 0x04 then s.setPort e sRPTC t else s
    let s := (s.ctlDo e code 0 t).perf e 0x09 (b2n (decide (code ≤ 3)))
    (if code = 0x10 ∧ x.rep = 2 then s.leaveGroup e x.pc x.nxt else s).meetSpar e (window 13 + code)

/-! The meanings -/

/-- CTL_JMP (R138, R139): code 0x00. -/
def execCtlJmp (e : EngId) (t : Word) (s : State) : Host.Outcome State Fault Refusal := .next (s.ctlOp e 0x00 t)
/-- CTL_JR (R138): code 0x01. -/
def execCtlJr (e : EngId) (t : Word) (s : State) : Host.Outcome State Fault Refusal := .next (s.ctlOp e 0x01 t)
/-- CTL_CALL (R138): code 0x02. -/
def execCtlCall (e : EngId) (t : Word) (s : State) : Host.Outcome State Fault Refusal := .next (s.ctlOp e 0x02 t)
/-- CTL_RET (R138): code 0x03. -/
def execCtlRet (e : EngId) (t : Word) (s : State) : Host.Outcome State Fault Refusal := .next (s.ctlOp e 0x03 t)
/-- CTL_REP (R141, R142): code 0x04. -/
def execCtlRep (e : EngId) (t : Word) (s : State) : Host.Outcome State Fault Refusal := .next (s.ctlOp e 0x04 t)
/-- CTL_LP0 (R144): code 0x05. -/
def execCtlLp0 (e : EngId) (t : Word) (s : State) : Host.Outcome State Fault Refusal := .next (s.ctlOp e 0x05 t)
/-- CTL_LP1 (R144): code 0x06. -/
def execCtlLp1 (e : EngId) (t : Word) (s : State) : Host.Outcome State Fault Refusal := .next (s.ctlOp e 0x06 t)
/-- CTL_SYNC (R147): code 0x07. -/
def execCtlSync (e : EngId) (t : Word) (s : State) : Host.Outcome State Fault Refusal := .next (s.ctlOp e 0x07 t)
/-- CTL_TRAP (R209): code 0x10. -/
def execCtlTrap (e : EngId) (t : Word) (s : State) : Host.Outcome State Fault Refusal := .next (s.ctlOp e 0x10 t)

end Sys2Proof.Machine
end

