-- ==== Sys2Proof/Machine/Sources.lean ====
section
/-! DEFINITION. The device interrupt sources (R210) and the inputs of an engine (R211). -/

namespace Sys2Proof.Machine

/-- A status register and its enables share a set bit among bits [15:8]. -/
def State.flagged (s : State) (stat ctl : Nat) : Bool := (s.reg stat &&& s.reg ctl &&& 0xFF00) != 0

/-- Device source `n` is asserted (R210, and the rule of each block named beside it). -/
def State.source (s : State) (n : Nat) : Bool :=
  if n < 8 then s.flagged (Reg.abStat n) (Reg.abCtl n)                                        -- R53
  else if n = 8 then s.flagged Reg.almStat Reg.almCtl                                          -- R90
  else if n = 9 then (List.range 16).any fun e => s.rfld (Reg.almFmiss e) 0 4 != 0             -- R90
  else if 16 ≤ n ∧ n < 48 then s.flagged (Reg.wcStat (n - 16)) (Reg.wcCtl (n - 16))            -- R283
  else if 48 ≤ n ∧ n < 80 then s.flagged (Reg.capStat (n - 48)) (Reg.capCfg (n - 48))          -- R283
  else if n = 80 then s.flagged Reg.tmrTbstat Reg.tmrTbctl                                     -- R283
  else if n = 88 then (s.reg Reg.mtxStat &&& s.reg Reg.mtxCtl &&& 0x1F00) != 0                 -- R314
  else if n = 89 then s.flagged Reg.curStat Reg.curCtl                                         -- R210
  else if n = 90 then s.flagged Reg.errStat Reg.errCtl                                         -- R417
  else if n = 91 then s.flagged Reg.pwrBarstat Reg.pwrBarctl                                   -- R444
  else if n = 92 then s.flagged Reg.pwrTstat Reg.pwrTctl                                       -- R444
  else if 96 ≤ n ∧ n < 100 then s.flagged (Reg.hlStat (n - 96)) (Reg.hlCtl (n - 96))           -- R344
  else if n = 100 then s.flagged Reg.pcieStat Reg.pcieCtl                                      -- R379
  else if n = 101 ∨ n = 102 then s.flagged (Reg.ethStat (n - 101)) (Reg.ethCtl (n - 101))      -- R379
  else if n = 104 ∨ n = 105 then s.flagged (Reg.lbpStat (n - 104)) (Reg.lbpCfg (n - 104))      -- R382
  else if 108 ≤ n ∧ n < 112 then s.flagged (Reg.uartStat (n - 108)) (Reg.uartCtl (n - 108))    -- R379
  else if 112 ≤ n ∧ n < 116 then s.flagged (Reg.spiStat (n - 112)) (Reg.spiCtl (n - 112))      -- R380
  else if n = 116 ∨ n = 117 then s.flagged (Reg.i2cStat (n - 116)) (Reg.i2cCtl (n - 116))      -- R381
  else if 120 ≤ n ∧ n < 128 then s.flagged (Reg.dmaStat (n - 120)) (Reg.dmaCtl (n - 120))      -- R383
  else if 128 ≤ n ∧ n < 132 then (s.reg (Reg.gpioIflg (n - 128)) &&& s.reg (Reg.gpioIen (n - 128))) != 0   -- R374
  else if 160 ≤ n ∧ n < 176 then !(s.eng (Fin.ofNat 16 (n - 160))).inq.isEmpty                 -- R210
  else if 176 ≤ n ∧ n < 192 then
    fldOf (s.reg (Reg.perfOvf (n - 176)) &&& (s.reg (Reg.perfCtl (n - 176)) >>> 8)) 0 8 != 0   -- R425
  else if 192 ≤ n ∧ n < 208 then
    fldOf (s.reg (Reg.teCollstat (n - 192)) &&& s.reg (Reg.teCollctl (n - 192))) 0 4 != 0      -- R292
  else if 224 ≤ n ∧ n < 256 then s.rbit Reg.sysSwi (n - 224)                                   -- R221
  else false

/-- Input `i` of an engine is asserted: its route is enabled and its source asserted (R211). -/
def State.asserted (s : State) (e : EngId) (i : Nat) : Bool :=
  let r := s.reg (Reg.teIntrt e i)
  bitOf r 31 && s.source (fldOf r 0 8)

/-- The priority of an input (R220). -/
def State.inputPri (s : State) (e : EngId) (i : Nat) : Nat := s.rfld (Reg.teIntrt e i) 24 3

/-- The device wakes from Hold with a cause (R20, R21). -/
def State.wakeHold (s : State) (cause : Nat) : State :=
  if s.power = .hold then
    ((({ s with power := .run }.setFld Reg.pwrStat 0 2 0).setFld Reg.pwrStat 4 2 1).setFld Reg.pwrStat 8 4 cause)
  else s

/-- A thermal stop keeps the wake sources out until the junction reads below 115 °C (R436). -/
def State.tooHot (s : State) : Bool :=
  s.supply.stopped && !((s.reg Reg.pwrTemp).truncate 16).slt (460 : Half)

/-- A wake source of PWR_WAKECFG that wakes from Hold only, by its enable bit (R20), unless a thermal stop keeps it out (R436). -/
def State.wakeSource (s : State) (bit cause : Nat) : State :=
  if s.rbit Reg.pwrWakecfg bit && !s.tooHot then s.wakeHold cause else s

/-- Software sources are set; the fc is kept, since a clear in the same fc does not undo it (R221). -/
def State.swiSet (s : State) (mask : Word) : State :=
  let before := match s.swiAt with | some (t, m) => if t = s.now then m else 0 | none => 0
  { s.orReg Reg.sysSwi mask with swiAt := some (s.now, before ||| mask) }

/-- Bits of a write of 1s to SYS_SWI or TE_CUSTAT that a set of the same fc overrides (R174, R221). -/
def heldBits (x : Option (Nat × Word)) (now : Nat) : Word := match x with | some (t, m) => if t = now then m else 0 | none => 0

/-- An asserted input is synchronised and enters arbitration 3 fc later (R211, R213); in Hold it wakes the device under
PWR_WAKECFG.IRQ (R20). -/
def State.assertInput (s : State) (e : EngId) (i : Nat) : State :=
  let s := if s.asserted e i && (s.eng e).clocked then s.wakeSource 2 3 else s
  if s.live e && s.asserted e i && !(s.eng e).inputs.any (·.1 == i) then
    s.modEng e fun x => { x with inputs := x.inputs ++ [(i, s.now)] }
  else s

/-- EXTEST, instruction 0x00, is selected, and the boundary-scan register drives the pins (R454). -/
def State.extest (s : State) : Bool := s.tap.ir == some 0

/-- Cell `n` of the boundary-scan register, numbered as `Ball.cell` does. -/
def State.cell (s : State) (n : Nat) : Bool := s.tap.bsr.getLsbD n

/-- The master cycle in progress asserts the output with role 1 RD, 2 WR or 3 CS (R362): CS until A and D are released, a strobe from its
fc up to its release. -/
def State.hsAsserts (s : State) (p : PairId) (role : Nat) : Bool :=
  match s.lbp[p].a, s.lbp[p].cyc with
  | some _, some c =>
    role == 3 || ((role == 1) == !c.write && decide (c.stb ≤ s.now) && (match c.rel with | some r => decide (s.now < r) | none => true))
  | _, _ => false

/-- The level that backplane port `p` drives on its strobe/handshake line `k`, if it drives one (R361). -/
def State.hsDrive (s : State) (p : PairId) (k : Nat) : Option Bool :=
  let role := s.rfld (Reg.lbpHsrole p) (4 * k) 4
  let mode := s.rfld (Reg.lbpCfg p) 0 2
  let low := s.rbit (Reg.lbpHspol p) k
  let master := s.lbp[p].a.isSome || mode == 1
  if role = 8 ∧ (mode = 1 ∨ mode = 2) then some (s.rbit (Reg.lbpHsout p) k)
  else if master ∧ 1 ≤ role ∧ role ≤ 3 then some (s.hsAsserts p role != low)
  else if !master ∧ role = 4 ∧ (mode = 2 ∨ s.lbp[p].cyc.isSome) then some (s.lbp[p].ready != low)
  else none

/-- The level at the ball of strobe/handshake line `k` of backplane port `p` (R361): the cell under EXTEST, what the port drives, else what
comes from outside. -/
def State.hsLine (s : State) (p : PairId) (k : Nat) : Bool :=
  if s.extest then s.cell (335 + 64 * p.val + k)
  else match s.hsDrive p k with | some b => b | none => Config.hsLevel (8 * p.val + k) s.now

/-- The levels of a port's lines. -/
def State.hsLevels (s : State) (p : PairId) : Byte := BitVec.ofNat 8 (((List.range 8).map fun k => b2n (s.hsLine p k) * 2 ^ k).sum)

/-- The synchronisers of the handshake lines take the levels of the fc that ends (R234). -/
def State.hsSample (s : State) : State :=
  forAll (fun (p : PairId) s =>
    { s with lbp := s.lbp.set p.val { s.lbp[p] with hs1 := s.hsLevels p, hs2 := s.lbp[p].hs1 } p.isLt }) s

/-- A handshake line as the sequencer sees it, 2 fc after its level (R234). -/
def State.hsSeen (s : State) (p : PairId) (k : Nat) : Bool := s.lbp[p].hs2.getLsbD k

/-! The meanings -/

/-- INTERRUPT_INPUT_ASSERT (R211). -/
def execInterruptInputAssert (e : EngId) (i : InputId) (s : State) : Host.Outcome State Fault Refusal :=
  .next (s.assertInput e i.val)
/-- SOFTWARE_SOURCE_SET (R221): a write of SYS_SWISET. -/
def execSoftwareSourceSet (mask : Word) (s : State) : Host.Outcome State Fault Refusal :=
  .next (s.swiSet mask)

end Sys2Proof.Machine
end

