-- ==== Sys2Proof/Machine/Frames.lean ====
section
/-! DEFINITION. Frames: requests and their queues (R75), start and end (R76, R77), the Deadline Monitor and Gust (R79–R82), the
miss policies (R84), and the emulation shadows (R242, R243). -/

namespace Sys2Proof.Machine

/-! Fields of a request's POLICY word (R74) -/

def FReq.gustMax (f : FReq) : Nat := fldOf f.policy 16 16
def FReq.strict (f : FReq) : Bool := bitOf f.policy 15
def FReq.miss (f : FReq) : Nat := fldOf f.policy 13 2
def FReq.gox (f : FReq) : Bool := bitOf f.policy 12
def FReq.gdef (f : FReq) : Bool := bitOf f.policy 11
def FReq.group (f : FReq) : Nat := fldOf f.policy 8 3
def FReq.thr (f : FReq) : Nat := fldOf f.policy 4 3

/-! Misses and Gust -/

/-- A frame misses its deadline at physical engine `e`, with cause bits (R80, R84). -/
def State.frameMiss (s : State) (e : EngId) (f : FReq) (causes : Nat) : State :=
  let s := s.incReg Reg.almMisscnt
  let s := (s.setFld (Reg.almFmiss e) 16 10 f.desc).orReg (Reg.almFmiss e) (BitVec.ofNat 32 causes)
  let s := s.log 0x15 e.val (f.desc * 64 + causes) (loW f.phase)
  match f.miss with
  | 0 => s.groupHold f.group
  | 1 => s.setFrames e { s.frames e with skip := if (s.frames e).skip.contains f.desc then (s.frames e).skip else (s.frames e).skip ++ [f.desc] }
  | 2 => s.raise e 8
  | _ => s.groupSafe f.group

/-- Elapsed exceeds BUDGET (R79, R80). -/
def State.overBudget (s : State) (f : FReq) : Bool :=
  decide (f.budget ≠ 0) && decide (f.budget.toNat < s.now - f.fire)

/-- The deadline phase is reached (R79, R80). -/
def State.overPhase (s : State) (f : FReq) : Bool :=
  decide (f.dloff ≠ 0) && s.abValid f.base && !(s.phase f.base - (f.phase + f.dloff.setWidth 64)).msb

/-- BUDGET and PHASE as cause bits of ALM_FMISS (R91). -/
def State.missCauses (s : State) (f : FReq) (injected : Bool) : Nat :=
  b2n (injected || s.overBudget f) + 2 * b2n (s.overPhase f)

/-- The first request in a list that `p` picks, marked as missed. -/
def markMissed (p : FReq → Bool) : List FReq → Option FReq × List FReq
  | [] => (none, [])
  | f :: fs =>
    if p f then (some f, { f with missed := true } :: fs)
    else let r := markMissed p fs; (r.1, f :: r.2)

/-- A miss of the first tracked request of an engine that `p` picks: the running frame, then the waiting ones, then those on
their way (R79, R80). Each request misses at most once, and one abandoned at an entry to Retain or Off does not miss (R18). -/
def State.missFirst (s : State) (e : EngId) (p : FReq → Bool) : State :=
  let x := s.frames e
  let ok (f : FReq) : Bool := !f.missed && !s.leaving && p f
  let go (s : State) (f : FReq) (x : Frames) : State := (s.setFrames e x).frameMiss e f (s.missCauses f false)
  match x.run with
  | some f =>
    if ok f then go s f { x with run := some { f with missed := true } }
    else
      let r := markMissed ok x.q
      match r.1 with
      | some f => go s f { x with q := r.2 }
      | none =>
        let r := markMissed ok x.transit
        match r.1 with
        | some f => go s f { x with transit := r.2 }
        | none => s
  | none =>
    let r := markMissed ok x.q
    match r.1 with
    | some f => go s f { x with q := r.2 }
    | none =>
      let r := markMissed ok x.transit
      match r.1 with
      | some f => go s f { x with transit := r.2 }
      | none => s

/-- BUDGET_MISS (R80), or the miss that ALM_INJ.DLM asked of the running frame (R91). -/
def State.budgetMiss (s : State) (e : EngId) : State :=
  let x := s.frames e
  match x.run with
  | some f =>
    if x.injD then
      let s := s.setFrames e { x with injD := false, run := some { f with missed := true } }
      if f.missed || s.leaving then s else s.frameMiss e f (s.missCauses f true)
    else s.missFirst e s.overBudget
  | none => s.missFirst e s.overBudget

/-- A request whose Gust exceeds GUST for the first time (R82). -/
def FReq.overGust (f : FReq) : Bool := !f.gover && decide (f.gustMax < f.gust)

/-- The record of a Gust overrun, and exception 9 where GOX asks for it (R82). -/
def State.gustReport (s : State) (e : EngId) (f : FReq) : State :=
  let s := (s.setFld (Reg.almFmiss e) 16 10 f.desc).orReg (Reg.almFmiss e) (bitW 3)
  let s := s.log 0x16 e.val f.desc (BitVec.ofNat 32 f.gust)
  if f.gox then s.raise e 9 else s

/-- The first waiting request that `FReq.overGust` picks, marked as reported. -/
def markGust : List FReq → Option FReq × List FReq
  | [] => (none, [])
  | f :: fs =>
    if f.overGust then (some f, { f with gover := true } :: fs)
    else let r := markGust fs; (r.1, f :: r.2)

/-- Gust of the running frame, or of one that waits, exceeds GUST for the first time, or ALM_INJ.GUSTO asks for it of the running one
(R82, R91). -/
def State.gustOverrun (s : State) (e : EngId) : State :=
  let x := s.frames e
  let waiting (s : State) : State :=
    let r := markGust x.q
    match r.1 with
    | some f => (s.setFrames e { x with q := r.2 }).gustReport e f
    | none => s
  match x.run with
  | none => waiting s
  | some f =>
    if x.injG || f.overGust then
      let s := s.setFrames e { x with injG := false, run := some { f with gover := true } }
      if f.gover then s else s.gustReport e f
    else waiting s

/-! The emulation shadows (R242) -/

/-- The sequencer's state goes into set X (0) or F (1). -/
def State.emuSave (s : State) (e : EngId) (x : Nat) : State :=
  let u := (s.eng e).useq
  let mode := if s.call e then 2 else 1
  let depth := s.rfld (Reg.teEmustat e) 8 4
  let s := s.setReg (Reg.teEshState e x)
    (BitVec.ofNat 32 (depth * 2 ^ 8 + b2n u.lpend * 2 ^ 3 + mode * 2 + b2n u.disp))
  let s := s.setReg (Reg.teEshUpc e x) (s.port e sUPC)
  let s := s.setReg (Reg.teEshLflg e x) (s.port e sLFLG)
  let s := s.setReg (Reg.teEshMcnt e x) (s.reg (Reg.teEmumcnt e))
  let s := s.setReg (Reg.teEshMir e x) (s.reg (Reg.teEmumir e))
  let s := s.setReg (Reg.teEshLink e x) (s.reg (Reg.teLink e))
  (List.range 8).foldl (fun s k => s.setReg (Reg.teEshStk e x k) (s.reg (Reg.teEmustk e k))) s

/-- The sequencer resumes from set X or F, with its first microword or dispatch in fc `t` (R243). It stands at an interruptible point
before a dispatch, and after a frame, which starts at such points only (R240); a frame that waits starts at once (R76, R252, R253). -/
def State.emuRestore (s : State) (e : EngId) (x t : Nat) (frame : Bool) : State :=
  let st := s.reg (Reg.teEshState e x)
  let call := fldOf st 1 2 == 2
  let s := s.setReg (Reg.teEmustat e) ((s.reg (Reg.teEmustat e) &&& (if call then 0x0001_0001 else 0x0001_0000)) |||
    BitVec.ofNat 32 (min (fldOf st 8 4) 8 * 2 ^ 8 + (if call then 2 else 1)))
  let s := s.setPort e sUPC (s.reg (Reg.teEshUpc e x))
  let s := s.setPort e sLFLG (s.reg (Reg.teEshLflg e x))
  let s := s.setReg (Reg.teEmumcnt e) (s.reg (Reg.teEshMcnt e x))
  let s := s.setReg (Reg.teEmumir e) (s.reg (Reg.teEshMir e x))
  let s := s.setReg (Reg.teLink e) (s.reg (Reg.teEshLink e x))
  let s := (List.range 8).foldl (fun s k => s.setReg (Reg.teEmustk e k) (s.reg (Reg.teEshStk e x k))) s
  s.modEng e fun g =>
    { g with useq := { g.useq with run := true, disp := bitOf st 0 && !call, start := t, slipAt := t, count := 0
                                   intPt := frame || (bitOf st 0 && !call), back := true, lpend := bitOf st 3
                                   fin := none } }

/-! Start and end -/

/-- The sequencer holds the engine and stands at no interruptible point (R240). -/
def State.seqBusy (s : State) (e : EngId) : Bool := let u := (s.eng e).useq; u.run && !u.intPt

/-- The fc is one in which a group issues, a later fc of a split pair, of R132 or of R458 (R207). -/
def Engine.inGroup (x : Engine) (now : Nat) : Bool := x.late.isSome || (x.issued.isSome && decide (now ≤ x.last))

/-- A boundary at which the engine can be turned aside (R207, R240): not inside a split pair, not between a ctl.t:rep and the
first iteration, not within an entry or a return, and in emulation only at an interruptible point. -/
def State.boundary (s : State) (e : EngId) : Bool :=
  let x := s.eng e
  !x.vecWait &&
  (if x.useq.run then x.useq.intPt && decide (x.useq.start ≤ s.now)
   else x.rep != 1 && x.trap.isNone && x.hold != some .eret && !x.inGroup s.now)

/-- The fc is one in which a group is in progress that does not end in it (R76, R130, R132, R458). -/
def Engine.midGroup (x : Engine) (now : Nat) : Bool := x.late.isSome || (x.issued.isSome && decide (now < x.last))

/-- A boundary at which a frame can start: also in the fc in which a group, a handler or the frame before it ends (R76, R240, R252). -/
def State.frameBoundary (s : State) (e : EngId) : Bool :=
  let x := s.eng e
  !x.vecWait &&
  (if x.useq.run then x.useq.back || (x.useq.intPt && decide (x.useq.start ≤ s.now))
   else x.rep != 1 && x.trap.isNone && x.hold != some .eret && !x.midGroup s.now)

/-- A frame waits and can start (R76, R251): no handler and no frame runs, and the engine stands at a boundary. -/
def State.frameDue (s : State) (e : EngId) : Bool :=
  s.runs e && !s.hnd e && (s.frames e).run.isNone && !(s.frames e).q.isEmpty && s.frameBoundary e

/-- A request reaches the engine 3 fc after its firing fc: it waits in the queue of four, or is a miss with cause QFULL, beside what else it
misses by now (R75, R80). A request that arrives in the fc in which the head starts takes the place that this frees. -/
def State.frameArrival (s : State) (e : EngId) : State :=
  let x := s.frames e
  match x.transit with
  | [] => s
  | f :: fs =>
    if s.now < f.fire + 3 then s
    else if x.q.length < 4 ∨ (x.q.length = 4 ∧ s.frameDue e) then s.setFrames e { x with transit := fs, q := x.q ++ [f] }
    else
      let s := s.setFrames e { x with transit := fs }
      if f.missed then s.orReg (Reg.almFmiss e) (bitW 2) else s.frameMiss e f (4 + s.missCauses f false)

/-- The loop registers in the order of the shadows (R77, R208). -/
def loopSockets : List Nat := [sRPTC, sLPS 0, sLPE 0, sLPC 0, sLPS 1, sLPE 1, sLPC 1]

/-- RPTC and both loop levels from a list of seven words. -/
def State.restoreLoops (s : State) (e : EngId) (ws : List Word) : State :=
  ((loopSockets.zip ws).foldl (fun s p => s.setPort e p.1 p.2) s).modEng e
    fun x => { x with lbuf := Vector.replicate 2 none }

/-- An input qualifies against a frame's THR, or against background code (R211). -/
def State.qualifies (s : State) (e : EngId) (i : Nat) (thr : Option Nat) : Bool :=
  s.rbit (Reg.teIntctl e) 0 &&
  (match thr with
   | some t => decide (t < s.inputPri e i)
   | none => decide (s.rfld (Reg.teIntctl e) 8 3 ≤ s.inputPri e i))

/-- A frame starts (R76, R77): the background is saved in the frame shadow, from emulation also in set F, and the frame's first
group issues 5 fc later. A chosen input is tested again against its THR (R251). -/
def State.frameStart (s : State) (e : EngId) : State :=
  match (s.frames e).q with
  | [] => s
  | f :: fs =>
    let emu := (s.eng e).useq.run
    let s := if emu then s.emuSave e 1 else s.repTest e
    let x := s.eng e
    let sh : FrameShadow :=
      { pc := x.pc, tgt := x.tgt, dly := x.dly, rep := x.rep, owe := x.owe, regs := loopSockets.map (s.port e), emu := emu,
        hold := if x.hold = some .sync then x.hold else none }
    let s := s.setFrames e { s.frames e with q := fs, run := some { f with start := s.now } }
    let s := s.setReg (Reg.almFst e) (BitVec.ofNat 32 (2 ^ 31 + f.desc))
    let s := (s.setReg (Reg.almFelap e) (BitVec.ofNat 32 (s.now - f.fire))).setReg (Reg.almFgust e) (BitVec.ofNat 32 f.gust)
    let chosen := match x.chosen with
      | some (.input i) => if s.qualifies e i (some f.thr) then x.chosen else none
      | c => c
    let s := s.modEng e fun x =>
      { x.discard with shadow := some sh, pc := f.entry &&& 0xFFFF_FFF0, tgt := 0, dly := 0, rep := 0, owe := none,
                       hold := none, mcall := none, sync := none, inFrame := true, first := false, chosen := chosen,
                       lwait := [], free := s.now + 5, fetchAt := s.now + 3,
                       useq := { x.useq with run := false, intPt := false, back := false } }
    s.perf e 0x12 1

/-- A frame runs and no handler does, so that xio.t:fend is defined (R77, R119). -/
def State.canFend (s : State) (e : EngId) : Bool := (s.frames e).run.isSome && !s.hnd e

/-- The frame ends (R77, R243, R252): the frame shadow is restored, and the background resumes or the next frame starts. -/
def State.frameEnd (s : State) (e : EngId) : State :=
  let s := s.setFrames e { s.frames e with run := none, injG := false, injD := false }
  let s := s.clrReg (Reg.almFst e) (bitW 31 ||| 0x3FF)
  match (s.eng e).shadow with
  | none => s.modEng e fun x => { x with inFrame := false }
  | some sh =>
    let s := s.restoreLoops e sh.regs
    let s := s.modEng e fun x =>
      { x.discard with shadow := none, pc := sh.pc, tgt := sh.tgt, dly := sh.dly, rep := sh.rep, owe := sh.owe,
                       hold := sh.hold, inFrame := false, retDly := false, fetchAt := s.now + 1, charge := false, chargeI := false }
    if sh.emu then s.emuRestore e 1 (s.now + 3) true else s

/-! The meanings -/

/-- FRAME_REQUEST_ARRIVAL (R75). -/
def execFrameRequestArrival (e : EngId) (s : State) : Host.Outcome State Fault Refusal := .next (s.frameArrival e)
/-- FRAME_START (R76). -/
def execFrameStart (e : EngId) (s : State) : Host.Outcome State Fault Refusal :=
  .next (if s.frameDue e then s.frameStart e else s)
/-- BUDGET_MISS (R80). -/
def execBudgetMiss (e : EngId) (s : State) : Host.Outcome State Fault Refusal := .next (s.budgetMiss e)
/-- PHASE_MISS (R80). -/
def execPhaseMiss (e : EngId) (s : State) : Host.Outcome State Fault Refusal := .next (s.missFirst e s.overPhase)
/-- GUST_OVERRUN (R82). -/
def execGustOverrun (e : EngId) (s : State) : Host.Outcome State Fault Refusal := .next (s.gustOverrun e)
/-- ALM_INJ_GUSTO (R91): it acts on the running frame, if any. -/
def execAlmInjGusto (e : EngId) (s : State) : Host.Outcome State Fault Refusal :=
  .next (if (s.frames e).run.isSome then s.setFrames e { s.frames e with injG := true } else s)
/-- ALM_INJ_DLM (R91): it acts on the running frame, if any. -/
def execAlmInjDlm (e : EngId) (s : State) : Host.Outcome State Fault Refusal :=
  .next (if (s.frames e).run.isSome then s.setFrames e { s.frames e with injD := true } else s)

end Sys2Proof.Machine
end

