-- ==== Sys2Proof/Machine/Link.lean ====
section
/-! DEFINITION. What the blocks share of the Hatorlink and of waking: routes (R330, R348), frames built and put into a port's queue
(R324–R326), and messages to nodes with their answers and resends (R335). -/

namespace Sys2Proof.Machine

/-- ALM_STAT.ELDROP (R83): a thermal or a Barometer warning is in progress. -/
def State.elDrop (s : State) : Bool := s.rbit Reg.pwrTstat 0 || s.rbit Reg.pwrBarstat 0

/-! Parts of the state -/

def State.hlPort (s : State) (p : PortId) : HlPort := s.hl.ports[p]
def State.setHlPort (s : State) (p : PortId) (x : HlPort) : State :=
  { s with hl := { s.hl with ports := s.hl.ports.set p.val x p.isLt } }
def State.modHlPort (s : State) (p : PortId) (f : HlPort → HlPort) : State := s.setHlPort p (f (s.hlPort p))

/-- HL_STAT.STATE: 0 down, 1 training, 2 up, 3 quarantine (R345). -/
def State.hlState (s : State) (p : PortId) : Nat := s.rfld (Reg.hlStat p) 0 2

/-- HL_NODE.ID (R330). -/
def State.hlId (s : State) : NodeId := (s.reg Reg.hlNode).truncate 12

/-- Where the route table sends a node (R330, R348). -/
inductive Route where
  | port (p : PortId) | own | none
  deriving DecidableEq, Repr

def State.route (s : State) (n : NodeId) : Route :=
  match s.rfld (Reg.hlRoute (n.toNat / 8)) (4 * (n.toNat % 8)) 4 with
  | 0 => .port 0 | 1 => .port 1 | 2 => .port 2 | 3 => .port 3 | 4 => .own | _ => .none

/-! Frames -/

/-- The frame types (R325). -/
abbrev hlTsync : Nibble := 1
abbrev hlAngle : Nibble := 2
abbrev hlMsg : Nibble := 3
abbrev hlRread : Nibble := 4
abbrev hlRwrite : Nibble := 5
abbrev hlRatom : Nibble := 6
abbrev hlConfig : Nibble := 7

/-- A frame that originates on this node (R324). -/
def State.hlFrame (s : State) (typ : Nibble) (bc rsp noseq : Bool) (dst : NodeId) (tag : Byte) (w2 w3 : Word)
    (payload : List Byte) : HlFrame :=
  { typ := typ, bc := bc, rsp := rsp, noseq := noseq, dst := if bc then 0 else dst, src := s.hlId, lseq := 0, hops := 0,
    tag := tag, w2 := w2, w3 := w3, payload := payload }

/-- The sending class of a frame (R326). -/
def hlClass (f : HlFrame) : Nat := if f.typ = hlTsync then 1 else if f.typ = hlAngle then 2 else if f.rsp then 3 else 4

/-- A frame becomes ready at a port (R326). -/
def State.hlQueue (s : State) (p : PortId) (f : HlFrame) (due : Stamp) (orig : Bool) : State :=
  s.modHlPort p fun x => { x with txq := x.txq ++ [⟨f, due, orig, none⟩] }

/-- A broadcast of this node leaves on the ports of HL_BCORIG (R331). -/
def State.hlBroadcast (s : State) (f : HlFrame) (orig : Bool) : State :=
  forAll (fun (p : PortId) s => if s.rbit Reg.hlBcorig p.val then s.hlQueue p f s.stamp orig else s) s

/-- The lowest transaction tag that neither a message nor a remote transaction uses. -/
def State.freeTag (s : State) : Option Byte :=
  ((List.range 256).map (BitVec.ofNat 8)).find? fun t =>
    !(s.hl.msgs.any (·.tag == t)) && !(s.hl.txns.any (·.tag == t))

/-! Messages (R335) -/

def State.setMsgs (s : State) (ms : List HlMsg) : State := { s with hl := { s.hl with msgs := ms } }

/-- A message for this node is delivered, unless delivery is off, its engine has no queue or the queue is full: then BUSY. -/
def State.msgDeliver (s : State) (src : NodeId) (lo hi : Word) : Bool × State :=
  let s := s.wakeSource 4 5
  if !s.rbit Reg.hlMsgeng 31 then (true, s)
  else
    match s.map[s.rfld Reg.hlMsgeng 0 4]? with
    | some (some e) => if s.inFull e then (true, s) else (false, s.inbound e 2 src.toNat lo hi)
    | _ => (true, s)

/-- A message is given up: counted, flagged at its sending engine and logged. A post has no sending engine; the log's UNIT is then a
free value. -/
def State.msgDiscard (s : State) (m : HlMsg) : State :=
  let s := s.incReg Reg.hlMsgdrop
  let s := if m.tries = 0 then s else s.setMsgs (s.hl.msgs.filter (·.tag != m.tag))
  match m.src with
  | some e => (s.orReg (Reg.teStat e) (bitW 2)).log 0x29 e.val m.node.toNat 0
  | none => let d := s.drawWord; d.2.log 0x29 (d.1.toNat % 256) m.node.toNat 0

/-- BUSY has come back: another attempt after HL_BUSYRT.WAIT fc, or the end after COUNT attempts beyond the first. -/
def State.msgBusy (s : State) (m : HlMsg) : State :=
  if s.rfld Reg.hlBusyrt 16 8 + 1 ≤ m.tries then s.msgDiscard m
  else s.setMsgs (s.hl.msgs.map fun x =>
    if x.tag = m.tag then { x with sent := none, wait := s.now + s.rfld Reg.hlBusyrt 0 16 } else x)

/-- The first message of a sender to a node: those behind it wait. -/
def State.msgFirst (s : State) (m : HlMsg) : Bool :=
  match s.hl.msgs.find? (fun x => x.src == m.src && x.node == m.node) with
  | some x => x.tag == m.tag
  | none => false

/-- A message is sent: into its port's queue, or, for this node's own number, on its way to delivery 60 fc later. -/
def State.msgSend (s : State) (m : HlMsg) : State :=
  let m := { m with tries := m.tries + 1, sent := some s.now }
  let s := s.setMsgs (s.hl.msgs.map fun x => if x.tag = m.tag then m else x)
  match s.route m.node with
  | .port p =>
    s.hlQueue p (s.hlFrame hlMsg false false false m.node m.tag 0 0 (bytesOf 4 m.lo.toNat ++ bytesOf 4 m.hi.toNat)) s.stamp false
  | .own => { s with hl := { s.hl with own := s.hl.own ++ [(s.now + 60, m.tag)] } }
  | .none => s

/-- The messages that stand first and have not been tried are sent, at most `n` of them. -/
def State.msgPump (s : State) : Nat → State
  | 0 => s
  | n + 1 =>
    match s.hl.msgs.find? (fun m => m.tries == 0 && s.msgFirst m) with
    | some m => (s.msgSend m).msgPump n
    | none => s

/-- A message from an engine or a ring leaves for a node (R335). With all 256 tags in use it is given up. -/
def State.msgPost (s : State) (src : Option EngId) (node : NodeId) (lo hi : Word) : State :=
  match s.freeTag with
  | none => s.msgDiscard ⟨0, src, node, lo, hi, 0, none, 0⟩
  | some t =>
    (s.setMsgs (s.hl.msgs ++ [⟨t, src, node, lo, hi, 0, none, 0⟩])).msgPump (s.hl.msgs.length + 1)

/-- The answer to a message (R335). -/
def State.msgAnswer (s : State) (tag : Byte) (busy : Bool) : State :=
  match s.hl.msgs.find? (fun m => m.tag == tag && m.sent.isSome) with
  | none => s
  | some m =>
    let s := if busy then s.msgBusy m else s.setMsgs (s.hl.msgs.filter (·.tag != tag))
    s.msgPump s.hl.msgs.length

/-- A message to this part's own number that is due is delivered, and answered at once (R335). -/
def State.msgOwn (s : State) (tag : Byte) : State :=
  match s.hl.msgs.find? (fun m => m.tag == tag && m.sent.isSome) with
  | none => s
  | some m => let r := s.msgDeliver s.hlId m.lo m.hi; r.2.msgAnswer tag r.1

/-- The messages to this part's own number whose fc has come. -/
def State.msgOwnDue (s : State) : State :=
  let due := s.hl.own.filter fun p => decide (p.1 ≤ s.now)
  due.foldl (fun s p => s.msgOwn p.2) { s with hl := { s.hl with own := s.hl.own.filter fun p => decide (s.now < p.1) } }

end Sys2Proof.Machine
end

