-- ==== Sys2Proof/Machine/Almanac.lean ====
section
/-! DEFINITION. The Almanac: walkers and lookahead (R57–R61), actions (R63, R64), prediction and commit (R65–R67), run-time writes
(R70, R71), steps (R73), dispatch (R75), lockstep (R87), and the delivery of an engine's outbound entries (R116). -/

namespace Sys2Proof.Machine

/-! Entries -/

/-- The fields of a slot (R62, R63). -/
def Look.en (h : Look) : Bool := bitOf h.ctl 31
def Look.once (h : Look) : Bool := bitOf h.ctl 30
def Look.defer (h : Look) : Bool := bitOf h.ctl 29
def Look.act (h : Look) : Nat := fldOf h.ctl 24 4
def Look.arg (h : Look) : Nat := fldOf h.ctl 0 16
/-- The phase for which the slot stands (R59). -/
def Look.phase (h : Look) : DWord := dword h.turn h.frac
/-- The slot acts when its phase is reached: it is live and not deferred (R62). -/
def Look.live (h : Look) : Bool := h.en && !h.defer
/-- A live edge. -/
def Look.isEdge (h : Look) : Bool := h.live && h.act == 2 && !h.failed
/-- The delay of an edge (R63). -/
def Look.delay (h : Look) : Nat := if h.isEdge then fldOf h.hi 0 24 else 0

/-- First slot and length of ring `r`. -/
def State.ringBase (s : State) (r : BaseId) : Nat := s.rfld (Reg.almRbase r) 0 14
def State.ringLen (s : State) (r : BaseId) : Nat := s.rfld (Reg.almRlen r) 0 15

/-- The place after a slot in ring order (R58, R59). -/
def State.ringAfter (s : State) (r : BaseId) (slot : Nat) (turn : Word) : Nat × Word :=
  if slot + 1 < s.ringBase r + s.ringLen r then (slot + 1, turn) else (s.ringBase r, turn + 1)

/-- The ring acts: it is enabled, the clocks of the Almanac run, and its base is valid and moves forward (R72). -/
def State.ringActs (s : State) (r : BaseId) : Bool := s.ringOn r && s.tmrOn && s.abValid r && !s.abReverse r

/-! Prediction (R61, R65) -/

/-- One entry's prediction in the present fc: its predicted time, kept while the entry is due, and the judgement whether it is late,
made in the later of the fc of its arrival and the first fc in which it has a prediction. An entry that the phase no longer reaches is
due no longer (R72, R73). -/
def State.lookPredict (s : State) (r : BaseId) (h : Look) : Look :=
  match s.predict r h.phase with
  | none => { h with tp := none, due := false }
  | some t =>
    let due := decide ((h.phase - s.phase r).toInt ≤ 0)
    let tp := if due then (match h.tp with | some p => if p.toNat ≤ t.toNat then p else t | none => t) else t
    { h with tp := some tp, due := due,
             late := match h.late with
               | some b => some b
               | none => some (decide (tp.toNat < 8 * (s.fc.toNat + 4))) }

/-- The predictions of a ring's lookahead. -/
def State.ringPredict (s : State) (r : BaseId) : State :=
  if s.ringActs r then s.setRing r { s.ring r with look := (s.ring r).look.map (s.lookPredict r) } else s

/-! The walker's reads (R59–R61) -/

/-- The slot that the walker of a ring reads next. -/
def State.walkNext (s : State) (r : BaseId) : Nat × Word :=
  match (s.ring r).look.getLast? with
  | some h => s.ringAfter r h.slot h.turn
  | none => (s.rfld (Reg.almRnext r) 0 14, s.reg (Reg.almRturn r))

/-- The response to a read of the walker, master 17: an injected code, or ECC on an uncorrectable unit (R297, R312, R315). -/
def State.walkResp (s : State) (slot : Nat) : Resp × State :=
  match s.mtx.inj.find? (·.1 == 17) with
  | some (_, c) => (c, { s with mtx := { s.mtx with inj := s.mtx.inj.filter (·.1 != 17) } })
  | none =>
    let x := s.eccRead 17 (slotAddr slot 0) 16
    (if x.1 then .eccErr else .okay, x.2)

/-- The FRAC of a slot lies below that of the slot before it in its ring and turn (R60). -/
def State.outOfOrder (s : State) (r : BaseId) (slot : Nat) (frac : Word) : Bool :=
  slot != s.ringBase r && frac.ult (s.memWord (slotAddr (slot - 1) 0))

/-- The walker can read for a ring: it is enabled, its base is valid, and it has a free lookahead place (R61, R72). -/
def State.walkable (s : State) (r : BaseId) : Bool :=
  s.ringOn r && s.tmrOn && s.abValid r && decide ((s.ring r).look.length < min 4 (s.ringLen r))

/-- The ring that the walker serves next, in round-robin order (R61). -/
def State.walkPick (s : State) : Option BaseId :=
  ((List.finRange 8).map fun k => s.alm.last + k + 1).find? s.walkable

/-- A matrix access waits at the table. -/
def State.tableWaits (s : State) : Bool :=
  s.mtx.reqs.any fun q => q.tgt == some 25 && (q.stage == .waiting || q.stage == .accepted)

/-- The walker can use the table port in this fc: it has not, another master has not, and of eight fc in which an access waits it
leaves one free (R61). -/
def State.walkFree (s : State) : Bool :=
  s.alm.walkAt != some s.now && s.alm.portAt != some s.now &&
  !(s.tableWaits && s.alm.walkAt == some (s.now - 1) && decide (s.alm.walkFrom + 7 ≤ s.now))

/-- A slot breaks the ring order: flagged and logged (R60). -/
def State.orderBroken (s : State) (r : BaseId) (slot : Nat) (frac : Word) : State :=
  (s.orReg Reg.almStat (bitW 9)).log 0x10 r.val slot frac

/-- The walker reads the next slot of the ring whose turn it is, one slot per fc (R61). A slot that breaks the ring order is flagged and
logged as it is taken up (R60). -/
def State.walkerRead (s : State) (r : BaseId) : State :=
  if s.walkPick ≠ some r ∨ s.walkFree = false then s
  else
    let n := s.walkNext r
    let x := s.walkResp n.1
    let s := x.2.errResp { id := 0, m := 17, addr := BitVec.ofNat 32 (slotAddr n.1 0), kind := .read, len := 16, data := [],
                           ordered := false, node := 0, orig := none, tgt := some 25, remap := false, stage := .done, beats := 0, accSeq := 0, resp := x.1,
                           rdata := [], issued := s.now }
    let frac := s.memWord (slotAddr n.1 0)
    let failed := x.1 != .okay
    let order := !failed && s.outOfOrder r n.1 frac
    let s := if order then s.orderBroken r n.1 frac else s
    let h : Look := { slot := n.1, turn := n.2, frac := frac, ctl := s.memWord (slotAddr n.1 1), lo := s.memWord (slotAddr n.1 2),
                      hi := s.memWord (slotAddr n.1 3), order := order, failed := failed, late := none, tp := none, due := false }
    let start := if s.alm.walkAt = some (s.now - 1) then s.alm.walkFrom else s.now
    { s with alm := { s.alm with last := r, walkAt := some s.now, walkFrom := start } }.setRing r
      { s.ring r with look := (s.ring r).look ++ [if s.ringActs r then s.lookPredict r h else h] }

/-! Performing (R59, R61, R66) -/

/-- The head of a ring leaves the lookahead, and the walker stands at the slot after it. A pass of R73 that has used up its slots ends
in a resync. -/
def State.ringPass (s : State) (r : BaseId) (h : Look) : State :=
  let n := s.ringAfter r h.slot h.turn
  let s := (s.setReg (Reg.almRnext r) (BitVec.ofNat 32 n.1)).setReg (Reg.almRturn r) n.2
  let x := s.ring r
  let s := s.setRing r { x with look := x.look.tail, actAt := some s.now, stepN := x.stepN.map (· - 1) }
  if (s.ring r).stepN = some 0 then s.resync r else s

/-- The head has been passed by a step of the phase (R73). -/
def State.stepped (s : State) (r : BaseId) (h : Look) : Bool :=
  match (s.ring r).stepTo with
  | some p => decide ((h.phase - p).toInt ≤ 0)
  | none => false

/-- The head that may be performed or passed in this fc: the ring acts and has not acted in this fc. -/
def State.ringHead (s : State) (r : BaseId) : Option Look :=
  if s.ringActs r && (s.ring r).actAt != some s.now then (s.ring r).look.head? else none

/-- An entry is late (R61). -/
def State.lateEntry (s : State) (r : BaseId) (h : Look) : Bool := h.late == some true || h.order || s.stepped r h

/-- A late entry or edge is counted and flagged (R61). -/
def State.countLate (s : State) (late : Bool) : State := if late then (s.incReg Reg.almLatecnt).orReg Reg.almStat (bitW 8) else s

/-- A live entry cannot be performed (R63). -/
def State.badEntry (s : State) (r : BaseId) (slot : Nat) (ctl : Word) : State :=
  (s.orReg Reg.almStat (bitW 10)).log 0x11 r.val slot ctl

/-- The walker writes the CTL word of a slot: part of a doubleword, which an uncorrectable error of the doubleword stops (R297). -/
def State.ctlWrite (s : State) (slot : Nat) (w : Word) : State :=
  let x := s.eccWrite 17 (slotAddr slot 1) 4
  if x.1 then x.2 else x.2.setMemWord (slotAddr slot 1) w

/-- ONCE clears EN in the table (R62). -/
def State.clearOnce (s : State) (h : Look) : State :=
  if h.once then s.ctlWrite h.slot (s.memWord (slotAddr h.slot 1) &&& ~~~(bitW 31)) else s

/-- The physical engine of a logical one, if the loader mapped it (R396). -/
def State.phys (s : State) (l : Nat) : Option EngId :=
  match s.map[l]? with
  | some (some e) => some e
  | _ => none

/-- One frame request to an engine, unless it is dropped or skipped (R75, R83, R84). DESIGN CHOICE (log 127): one that would be dropped and
skipped is dropped, and the skip waits for the next. -/
def State.frameSend (s : State) (e : EngId) (f : FReq) : State :=
  let x := s.frames e
  if s.elDrop && !f.strict then s.incReg Reg.almDropcnt
  else if x.skip.contains f.desc then (s.setFrames e { x with skip := x.skip.erase f.desc }).incReg Reg.almSkipcnt
  else s.setFrames e { x with transit := x.transit ++ [f] }

/-- A dispatch (R75); in Hold it is counted and not done (R17). -/
def State.dispatchEntry (s : State) (r : BaseId) (h : Look) (tp : Stamp) : State :=
  if s.power = .hold then s.incReg Reg.pwrHoldskip
  else
    let d := fldOf h.ctl 0 10
    let w (k : Nat) : Word := s.reg (Reg.almFd d k)
    let f : FReq := { desc := d, entry := w 0, budget := w 1, dloff := w 2, policy := w 3, arg := h.hi, phase := h.phase, time := tp,
                      fire := s.now, base := r, gust := 0, missed := false, gover := false, start := 0,
                      late := false }
    (List.range 16).foldl (fun s l => if bitOf h.lo l then (match s.phys l with | some e => s.frameSend e f | none => s) else s) s

/-- A dispatch names a logical engine that is not mapped (R63). -/
def State.dispatchBad (s : State) (mask : Word) : Bool := (List.range 16).any fun l => bitOf mask l && (s.phys l).isNone

/-- A post to a logical engine (R64, R116). -/
def State.postEntry (s : State) (r : BaseId) (e : EngId) (lo hi : Word) : State :=
  if s.inFull e then ((s.incReg (Reg.teXiodrop e)).orReg (Reg.teStat e) (bitW 1)).log 0x1D e.val r.val lo
  else s.inbound e 1 r.val lo hi

/-- A capture (R64): the record goes to the matrix through the walker's master. -/
def State.captureEntry (s : State) (r : BaseId) (h : Look) (tp : Stamp) : State :=
  let x := s.issueReq 17 { addr := h.lo, kind := .write, len := 16, ordered := false, node := 0
                           data := bytesOf 8 tp.toNat ++ bytesOf 8 (s.phase (Fin.ofNat 8 (fldOf h.ctl 0 3))).toNat }
  { x.1 with alm := { x.1.alm with caps := x.1.alm.caps ++ [⟨x.2, r.val, h.slot, h.ctl⟩] } }

/-- The action of a live entry other than an edge; `none` where it cannot be performed (R63, R64). -/
def State.entryAction (s : State) (r : BaseId) (h : Look) (tp : Stamp) : Option State :=
  match h.act with
  | 0 => some s
  | 1 => if s.dispatchBad h.lo then none else some (s.dispatchEntry r h tp)
  | 3 => if h.lo.toNat % 16 = 0 then some (s.captureEntry r h tp) else none
  | 4 =>
    if bitOf h.ctl 15 then some (s.msgPost none (BitVec.ofNat 12 (fldOf h.ctl 0 12)) h.lo h.hi)
    else (s.phys (fldOf h.ctl 0 4)).map fun e => s.postEntry r e h.lo h.hi
  | 5 =>
    let m : WcId := Fin.ofNat 32 (fldOf h.ctl 0 5)
    some (s.wcByEvent m (match fldOf h.ctl 8 2 with | 0 => [.start] | 1 => [.stop] | 2 => [.reset] | _ => [.reset, .start]))
  | _ => none

/-- The time at which an entry without a usable prediction is performed: now. -/
def State.entryTime (s : State) (h : Look) : Stamp := match h.tp with | some t => t | none => s.stamp

/-- The head's moment has come (R66, R67): its predicted time and delay lie before the end of fc now + `n`, or it is due at once. -/
def State.slotDue (s : State) (r : BaseId) (h : Look) (n : Nat) : Bool :=
  h.order || h.failed || s.stepped r h ||
  (match h.tp with | some t => decide (t.toNat + h.delay < 8 * (s.fc.toNat + n)) | none => false)

/-- A slot that does not act is passed, and its DEFER cleared (R62). -/
def State.passIdle (s : State) (r : BaseId) (h : Look) : State :=
  (if h.defer then s.ctlWrite h.slot (s.memWord (slotAddr h.slot 1) &&& ~~~(bitW 29)) else s).ringPass r h

/-- ENTRY_PERFORM: the head, if it is no live edge, is performed or passed (R59, R62, R63, R66, R73). DESIGN CHOICE (log 101): a dispatch
that Hold suppresses is performed for ONCE, and its EN clears. -/
def State.entryPerform (s : State) (r : BaseId) : State :=
  let s := s.ringPredict r
  match s.ringHead r with
  | none => s
  | some h =>
    if h.isEdge || !s.slotDue r h 1 then s
    else if h.failed then (s.badEntry r h.slot h.ctl).ringPass r h
    else if !h.live then s.passIdle r h
    else if s.stepped r h && s.rbit (Reg.almRctl r) 1 then (s.incReg Reg.almSkipcnt).ringPass r h
    else
      match s.entryAction r h (s.entryTime h) with
      | none => (s.badEntry r h.slot h.ctl).ringPass r h
      | some t => ((t.countLate (s.lateEntry r h)).clearOnce h).ringPass r h

/-! Lockstep (R87) -/

/-- The copies differ: reported once until the Almanac has been disabled and enabled. -/
def State.almLockstep (s : State) : State :=
  if s.alm.lsOff then s
  else
    let s := { (s.orReg Reg.almStat (bitW 14)).log 0x14 0 0 0 with alm := { s.alm with lsOff := true } }
    let s := s.raiseAll (s.reg Reg.almLsdest &&& 0xFFFF) 12
    if s.rbit Reg.almCtl 1 then
      forAll (fun (p : PinId) s => if (s.pin p).owner = .almanac then s.makeSafe p else s)
        { s with alm := { s.alm with lsSafe := true } }
    else s

/-- An injected difference shows at the next commit (R91). -/
def State.meetLs (s : State) : State :=
  if s.alm.injLs then { s with alm := { s.alm with injLs := false } }.almLockstep else s

/-- EDGE_COMMIT: a live edge at the head goes to its placement unit (R67), or is passed as not performable or skipped (R63, R73). -/
def State.edgeCommit (s : State) (r : BaseId) : State :=
  let s := s.ringPredict r
  match s.ringHead r with
  | none => s
  | some h =>
    if !h.isEdge || !s.slotDue r h 4 then s
    else if s.stepped r h && s.rbit (Reg.almRctl r) 1 then (s.incReg Reg.almSkipcnt).ringPass r h
    else
      let p : PinId := Fin.ofNat 64 (fldOf h.ctl 0 6)
      if (s.pin p).owner ≠ .almanac then (s.badEntry r h.slot h.ctl).ringPass r h
      else
        let t := (s.entryTime h).toNat + h.delay
        let first := 8 * (s.fc.toNat + 2)
        let late := s.lateEntry r h || decide (t < first)
        let s := s.meetLs.placeEdge p (BitVec.ofNat 64 (max t first)) (fldOf h.ctl 8 2) (fldOf h.lo 0 24)
        ((s.countLate late).clearOnce h).ringPass r h

/-! Writes at run time (R70, R71) -/

/-- The enabled ring that holds a slot (R58). -/
def State.ringOf (s : State) (slot : Nat) : Option BaseId :=
  (List.finRange 8).find? fun r =>
    s.rbit (Reg.almRctl r) 0 && decide (s.ringBase r ≤ slot) && decide (slot < s.ringBase r + s.ringLen r)

/-- The lookahead copy of a rewritten slot (R71), which may break the ring order now (R60). -/
def State.lookReload (s : State) (r : BaseId) (slot : Nat) : State :=
  let again (h : Look) : Look :=
    if h.slot ≠ slot then h
    else
      let frac := s.memWord (slotAddr slot 0)
      let h' : Look := { h with frac := frac, ctl := s.memWord (slotAddr slot 1), lo := s.memWord (slotAddr slot 2),
                                hi := s.memWord (slotAddr slot 3), order := s.outOfOrder r slot frac, failed := false,
                                late := none, tp := none, due := false }
      if s.ringActs r then s.lookPredict r h' else h'
  let frac := s.memWord (slotAddr slot 0)
  let fresh := (s.ring r).look.any fun h => h.slot == slot && !h.order && s.outOfOrder r slot frac
  let s := s.setRing r { s.ring r with look := (s.ring r).look.map again }
  if fresh then s.orderBroken r slot frac else s

/-- A write has landed in a slot: a live entry gets DEFER where it stands at or after NEXT and the phase has passed it, and loses it
elsewhere, and a lookahead copy is replaced (R70, R71). While the ring does not walk, no present turn is there to judge by, and DEFER
stays. -/
def State.slotWritten (s : State) (slot : Nat) : State :=
  match s.ringOf slot with
  | none => s
  | some r =>
    let ctl := s.memWord (slotAddr slot 1)
    let p := dword (s.reg (Reg.almRturn r)) (s.memWord (slotAddr slot 0))
    let defer := decide (s.rfld (Reg.almRnext r) 0 14 ≤ slot) && decide ((p - s.phase r).toInt ≤ 0)
    let ctl' := if defer then ctl ||| bitW 29 else ctl &&& ~~~(bitW 29)
    (if bitOf ctl 31 && s.ringOn r && s.abValid r && ctl' != ctl then s.ctlWrite slot ctl' else s).lookReload r slot

/-- Bytes written to the table, within one slot (R57, R70). -/
def State.tableWrite (s : State) (a : Nat) (bs : List Byte) : State := (s.writeBytes a bs).slotWritten ((a - slotAddr 0 0) / 16)

/-- Bytes that `master` writes to the table, which an uncorrectable unit written in part stops (R297). -/
def State.tableStore (s : State) (master a : Nat) (bs : List Byte) : State :=
  let x := s.eccWrite master a bs.length
  if x.1 then x.2 else x.2.tableWrite a bs

/-- The width of a table access in bytes. -/
def tableBytes : TableSize → Nat
  | .w32 => 4 | .w64 => 8 | .w128 => 16

/-! Rings and the Almanac as a whole (R58, R59, R91) -/

/-- A ring of enabled slots overlaps ring `r`, or its slots pass the last one (R58). -/
def State.ringRefused (s : State) (r : BaseId) : Bool :=
  let b := s.ringBase r
  let n := s.ringLen r
  n != 0 && (decide (16384 < b + n) ||
    (List.finRange 8).any fun q =>
      q != r && s.rbit (Reg.almRctl q) 0 && s.ringLen q != 0 &&
      decide (s.ringBase q < b + n) && decide (b < s.ringBase q + s.ringLen q))

/-- EN of a ring set from 0 to 1 (R58, R59). -/
def State.ringEnable (s : State) (r : BaseId) : State :=
  if s.rbit (Reg.almRctl r) 0 then s
  else if s.ringRefused r then s.orReg Reg.almStat (bitW 10)
  else ((s.orReg (Reg.almRctl r) (bitW 0)).resync r).invSafe r

/-- EN of a ring cleared (R58). -/
def State.ringDisable (s : State) (r : BaseId) : State :=
  (s.clrReg (Reg.almRctl r) (bitW 0)).setRing r { s.ring r with look := [], stepTo := none, stepN := none }

/-- ALM_CTL.EN set from 0 to 1: every enabled ring resyncs, the copies agree again, and the pins that the Almanac owns leave the
safe states of R87 and of Retain and Off (R59, R87, R418). -/
def State.almEnable (s : State) : State :=
  if s.rbit Reg.almCtl 0 then s
  else
    let s := { s.orReg Reg.almCtl (bitW 0) with alm := { s.alm with lsOff := false, lsSafe := false } }
    let s := forAll (fun (p : PinId) s =>
      if (s.pin p).owner = .almanac then s.modPin p fun x => { x with down := false } else s) s
    forAll (fun (r : BaseId) s => if s.rbit (Reg.almRctl r) 0 then (s.resync r).invSafe r else s) s

/-- ALM_CTL.EN cleared: all rings stop (R91). -/
def State.almDisable (s : State) : State :=
  forAll (fun (r : BaseId) s => s.setRing r { s.ring r with look := [], stepTo := none, stepN := none })
    (s.clrReg Reg.almCtl (bitW 0))

/-! Outbound entries (R116) -/

/-- An address lies in the Almanac table. -/
def inTable (a : Nat) : Bool := decide (0x3800_0000 ≤ a) && decide (a < 0x3804_0000)

/-- A store of the engine to the table that is older than a place in its order has not yet been performed there, or not yet left the far
port (R116). -/
def State.tableStoreOpen (s : State) (e : EngId) (seq : Nat) : Bool :=
  ((s.eng e).far.any fun o => decide (o.seq < seq) && o.halves.any fun h =>
    inTable h.addr.toNat && h.resp.isNone &&
    (match s.findReq h.id with | some r => reqWrites r.kind && r.stage != .done | none => false)) ||
  (s.eng e).farq.any fun f => decide (f.seq < seq) && inTable f.spec.addr.toNat && reqWrites f.spec.kind

/-- The head of an engine's outbound queue is delivered once its destination accepts it (R115, R116). -/
def State.outbound (s : State) (e : EngId) : State :=
  match (s.eng e).outq with
  | [] => s
  | m :: rest =>
    let gone (s : State) : State := s.modEng e fun x => { x with outq := rest, outAt := some s.now }
    if s.now ≤ m.trig || (s.eng e).outAt == some s.now || (s.eng e).outHeld then s
    else if m.alw then
      (if s.tableStoreOpen e m.seq then s else (gone s).tableStore e.val (slotAddr (fldOf m.dst 0 14) 1) (bytesOf 4 m.lo.toNat))
    else if bitOf m.dst 15 then
      (if s.freeTag.isNone then s else (gone s).msgPost (some e) (BitVec.ofNat 12 (fldOf m.dst 0 12)) m.lo m.hi)
    else
      match s.phys (fldOf m.dst 0 4) with
      | none => ((gone s).orReg (Reg.teStat e) (bitW 2)).log 0x1C e.val (fldOf m.dst 0 16) 0
      | some d => if s.inFull d then s else (gone s).inbound d 0 (s.logical e) m.lo m.hi

/-! The meanings -/

/-- WALKER_READ (R61). -/
def execWalkerRead (r : BaseId) (s : State) : Host.Outcome State Fault Refusal := .next (s.walkerRead r)
/-- ENTRY_PERFORM (R66). -/
def execEntryPerform (r : BaseId) (s : State) : Host.Outcome State Fault Refusal := .next (s.entryPerform r)
/-- EDGE_COMMIT (R67). -/
def execEdgeCommit (r : BaseId) (s : State) : Host.Outcome State Fault Refusal := .next (s.edgeCommit r)
/-- TABLE_WRITE (R57, R70): one that is not naturally aligned or leaves its slot is refused and changes nothing. The command names no
master; the one that the Error Log would show is free (R297). -/
def execTableWrite (slot : Slot) (off : SlotOffset) (size : TableSize) (data : Quad) (s : State) :
    Host.Outcome State Fault Refusal :=
  .next (if off.val % tableBytes size = 0 then
      s.drawWord.2.tableStore (s.drawWord.1.toNat % 33) (slotAddr slot.val 0 + off.val) (bytesOf (tableBytes size) data.toNat) else s)
/-- RING_ENABLE (R58). -/
def execRingEnable (r : BaseId) (s : State) : Host.Outcome State Fault Refusal := .next (s.ringEnable r)
/-- RING_DISABLE (R58). -/
def execRingDisable (r : BaseId) (s : State) : Host.Outcome State Fault Refusal := .next (s.ringDisable r)
/-- ALMANAC_ENABLE (R59). -/
def execAlmanacEnable (s : State) : Host.Outcome State Fault Refusal := .next s.almEnable
/-- ALMANAC_DISABLE (R91). -/
def execAlmanacDisable (s : State) : Host.Outcome State Fault Refusal := .next s.almDisable
/-- ALMANAC_LOCKSTEP_MISMATCH (R87). -/
def execAlmanacLockstepMismatch (s : State) : Host.Outcome State Fault Refusal := .next s.almLockstep
/-- ALM_INJ_LS (R91): the second copy's next commit differs. -/
def execAlmInjLs (s : State) : Host.Outcome State Fault Refusal :=
  .next { s with alm := { s.alm with injLs := true } }
/-- OUTBOUND_DELIVERY (R116). -/
def execOutboundDelivery (e : EngId) (s : State) : Host.Outcome State Fault Refusal := .next (s.outbound e)

end Sys2Proof.Machine
end

