-- ==== Sys2Proof/Machine/Hatorlink.lean ====
section
/-! DEFINITION. The Hatorlink ports: training (R320–R322), sending, acknowledgement and replay (R326–R328), routing (R330, R331),
time (R332), angle broadcasts (R334, R44), messages (R335), remote memory (R336), configuration frames (R339) and violations
(R340–R342). -/

namespace Sys2Proof.Machine

/-! Ports up and down -/

/-- A port starts to train (R320). -/
def State.hlTrain (s : State) (p : PortId) : State :=
  (s.setFld (Reg.hlStat p) 0 2 1).modHlPort p fun x => { x with retryAt := none }

/-- A port goes down and, with AUTO = 1 and EN = 1, trains again at once; one that only trains goes down without the flag (R322). -/
def State.hlDown (s : State) (p : PortId) : State :=
  let s := if s.hlState p = 2 then s.orReg (Reg.hlStat p) (bitW 9) else s
  let s := s.setFld (Reg.hlStat p) 0 2 0
  if s.rbit (Reg.hlCtl p) 1 && s.rbit (Reg.hlCtl p) 0 then s.hlTrain p else s

/-- EN = 1: a port that is down trains (R320). -/
def State.hlEnable (s : State) (p : PortId) : State :=
  let s := s.orReg (Reg.hlCtl p) (bitW 0)
  if s.hlState p = 0 then s.hlTrain p else s

/-- EN = 0: the port goes down (R322); a port in quarantine stays there (R341). -/
def State.hlDisable (s : State) (p : PortId) : State :=
  let s := (s.clrReg (Reg.hlCtl p) (bitW 0)).modHlPort p fun x => { x with retryAt := none }
  if s.hlState p = 3 then s else s.hlDown p

/-- RETRAIN = 1: the port goes down and trains while EN = 1; out of quarantine with an empty replay buffer (R322, R341). -/
def State.hlRetrain (s : State) (p : PortId) : State :=
  let quar := s.hlState p == 3
  let s := if s.hlState p = 2 then s.orReg (Reg.hlStat p) (bitW 9) else s
  let s := if quar then s.modHlPort p fun x => { x with sent := [] } else s
  let s := s.setFld (Reg.hlStat p) 0 2 0
  if s.rbit (Reg.hlCtl p) 0 then s.hlTrain p else s

/-- HL_PARTNER after a training that exchanged IDs, or did not (R320, R345). -/
def State.hlPartner (s : State) (p : PortId) (partner : Option NodeId) : State :=
  match partner with
  | some n => s.setReg (Reg.hlPartner p) (bitW 31 ||| n.setWidth 32)
  | none => s.clrReg (Reg.hlPartner p) (bitW 31)

/-- Training ends with STATE up (R320): the partner's ID is recorded, what the partner has received leaves the replay buffer and the
rest is sent again (R322). A new partner buffer is empty: 16 places are free (R328). -/
def State.hlUp (s : State) (p : PortId) (partner : NodeId) (nextSeq : Byte) : State :=
  if s.hlState p ≠ 1 then s
  else
    let s := (s.setFld (Reg.hlStat p) 0 2 2).orReg (Reg.hlStat p) (bitW 8)
    let s := s.hlPartner p (some partner)
    s.modHlPort p fun x =>
      { x with sent := (x.sent.filter fun q => decide ((q.f.lseq - nextSeq).toNat < 128)).map fun q => { q with again := true },
               txSeq := if x.sent.isEmpty then nextSeq else x.txSeq, cred := 16, retryAt := none }

/-- Training fails (R320): TRFAIL, the cause, and a new start after 1 ms. Causes 0x1 to 0x3 come before the IDs are exchanged. -/
def State.hlTrainFail (s : State) (p : PortId) (cause : Nibble) (partner : Option NodeId) : State :=
  if s.hlState p ≠ 1 then s
  else
    let s := s.hlPartner p (if cause.toNat < 4 then none else partner)
    let s := (s.setFld (Reg.hlStat p) 0 2 0).orReg (Reg.hlStat p) (bitW 10)
    (s.setFld (Reg.hlTrinfo p) 0 4 cause.toNat).modHlPort p fun x => { x with retryAt := some (s.now + 1000000) }

/-! Violations (R340, R341) -/

/-- An outstanding request of this part is answered (R336): the response waits at target 28 for its turn (R307). -/
def State.txnEnd (s : State) (t : HlTxn) (c : Resp) (data : List Byte) : State :=
  { s.modReq t.id fun r => { r with stage := .done, resp := c, rdata := data } with
    hl := { s.hl with txns := s.hl.txns.filter (·.tag != t.tag) } }

/-- A port enters quarantine (R341): outstanding requests over it get LINK at once. -/
def State.hlQuarantine (s : State) (p : PortId) : State :=
  let s := (s.setFld (Reg.hlStat p) 0 2 3).orReg (Reg.hlStat p) (bitW 15)
  let s := s.log 0x28 p.val (s.rfld (Reg.hlViol p) 0 8) 0
  (s.hl.txns.filter (·.port == p)).foldl (fun s t => s.txnEnd t .link []) s

/-- The number of the present window of HL_QCFG.WIN µs from the start of the Time Base; WIN = 0 acts as 1 (R341, R345). -/
def State.hlWindow (s : State) (p : PortId) : Nat := s.fc.toNat / (1000 * max 1 (s.rfld (Reg.hlQcfg p) 16 16))

/-- A window that begins counts from 0 (R341). -/
def State.hlRoll (s : State) (p : PortId) : State :=
  let w := s.hlWindow p
  if (s.hlPort p).win = w then s else (s.setReg (Reg.hlViol p) 0).modHlPort p fun x => { x with win := w }

/-- One violation of the partner: counted in the present window, and quarantine at the threshold (R341). -/
def State.hlViolate (s : State) (p : PortId) : State :=
  let s := s.hlRoll p
  let n := min 0xFF (s.rfld (Reg.hlViol p) 0 8 + 1)
  let s := s.setFld (Reg.hlViol p) 0 8 n
  let thr := s.rfld (Reg.hlQcfg p) 0 8
  if thr ≠ 0 ∧ thr ≤ n ∧ s.hlState p ≠ 3 then s.hlQuarantine p else s

/-- An error counter, its flag and a violation (R340). -/
def State.hlError (s : State) (p : PortId) (counter flag : Nat) : State :=
  ((s.incReg counter).orReg (Reg.hlStat p) (bitW flag)).hlViolate p

/-- The receive buffers of a port that hold a frame (R328): requests of other nodes that have not been answered, and frames that wait for
the port on which they go on. -/
def State.hlHeld (s : State) (p : PortId) : Nat :=
  (s.hl.inb.filter (·.port == p)).length + ((List.finRange 4).map fun (q : PortId) => ((s.hlPort q).txq.filter (·.inp == some p)).length).sum

/-- A link control set with CRED, the free ones of the 16 receive buffers (R328). Whether the frame that it answers still stands in its
buffer when the set leaves is not stated: a free value (log 131). -/
def State.hlLcs (s : State) (p : PortId) (ack : Bool) (seq : Byte) : State :=
  (s.drawn 1).modHlPort p fun x =>
    { x with lcs := some (ack, seq, BitVec.ofNat 8 (16 - s.hlHeld p - (Config.freeWord s.free).toNat % 2)) }

/-- The port answers with ACK of an LSEQ, or NAK of the LSEQ it expects (R327). -/
def State.hlAck (s : State) (p : PortId) (seq : Byte) : State := s.hlLcs p true seq
def State.hlNak (s : State) (p : PortId) : State := s.hlLcs p false (s.hlPort p).rxSeq

/-! Replay (R327, R328) -/

/-- RETRY; 0 acts as 1 (R345). -/
def State.hlRetry (s : State) (p : PortId) : Nat := max 1 (s.rfld (Reg.hlCfg p) 0 4)

/-- Every unacknowledged frame from an LSEQ on is to be sent again. A frame already sent RETRY + 1 times is the replay limit: the port
goes down and trains again, which is one violation (R328). -/
def State.hlReplay (s : State) (p : PortId) (seq : Byte) : State :=
  let x := s.hlPort p
  let hit (q : HlSent) : Bool := decide ((q.f.lseq - seq).toNat < 128)
  if x.sent.any fun q => hit q && decide (s.hlRetry p + 1 ≤ q.tries) then
    let s := (s.setFld (Reg.hlStat p) 0 2 0).orReg (Reg.hlStat p) (bitW 9)
    (s.hlTrain p).hlError p (Reg.hlReplay p) 12
  else s.setHlPort p { x with sent := x.sent.map fun q => if hit q then { q with again := true } else q }

/-- What an ACK or NAK covers: the frames before an LSEQ leave the replay buffer, and the partner's free buffers are known (R327,
R328). Answers whether the LSEQ was outstanding. -/
def State.hlCover (s : State) (p : PortId) (seq cred : Byte) (incl : Bool) : Bool × State :=
  let x := s.hlPort p
  if !(x.sent.any (·.f.lseq == seq)) then (false, s)
  else
    let before (q : HlSent) : Bool := decide ((seq - q.f.lseq).toNat < 128) && (incl || q.f.lseq != seq)
    (true, s.setHlPort p { x with sent := x.sent.filter (fun q => !before q), cred := cred.toNat })

/-- An ACK (R327). One that names no outstanding LSEQ is ignored and counts (R340); an injected loss ignores it (R345). -/
def State.hlAckIn (s : State) (p : PortId) (seq cred : Byte) : State :=
  if s.hlState p ≠ 2 then s
  else if (s.hlPort p).injAck then s.modHlPort p fun x => { x with injAck := false }
  else
    let r := s.hlCover p seq cred true
    if r.1 then r.2 else s.hlError p (Reg.hlSeqerr p) 12

/-- A NAK (R327). -/
def State.hlNakIn (s : State) (p : PortId) (seq cred : Byte) : State :=
  if s.hlState p ≠ 2 then s
  else
    let r := s.hlCover p seq cred false
    if r.1 then r.2.hlReplay p seq else s.hlError p (Reg.hlSeqerr p) 12

/-- ACKTO in fc; below 500 acts as 500 (R345). -/
def State.hlAckto (s : State) (p : PortId) : Nat := max 500 (s.rfld (Reg.hlCfg p) 8 16)

/-- No ACK of the oldest frame for ACKTO fc (R327). -/
def State.hlAckTimeout (s : State) (p : PortId) : State :=
  match (s.hlPort p).sent with
  | q :: _ =>
    if s.hlState p = 2 ∧ q.again = false ∧ q.since + s.hlAckto p ≤ s.now then s.hlReplay p q.f.lseq else s
  | [] => s

/-! Sending (R326) -/

/-- The frame time in fc (R323). -/
def hlFrameTime (f : HlFrame) : Nat := (16 * (24 + f.payload.length) + 9) / 10

/-- A TSYNC frame as its SOF leaves: the origin stamps it, a relay adds the time by which it is late (R332). -/
def State.hlStampOut (s : State) (i : HlItem) : HlFrame :=
  if i.orig then { i.f with payload := bytesOf 8 s.stamp.toNat }
  else { i.f with w2 := i.f.w2 + BitVec.ofInt 32 (max 0 (s.stamp - i.due).toInt) }

/-- A frame leaves on the line. -/
def State.hlLeave (s : State) (p : PortId) (f : HlFrame) : State :=
  s.modHlPort p fun x => { x with busy := s.now + hlFrameTime f, out := some f, eob := false }

/-- The clock of a transaction or message of this node starts as its request leaves (R336); a replay does not start it again. -/
def State.hlClock (s : State) (f : HlFrame) : State :=
  if f.rsp || f.bc || f.src ≠ s.hlId then s
  else
    { s with hl := { s.hl with
        txns := s.hl.txns.map fun t => if t.tag = f.tag ∧ t.node = f.dst then { t with since := s.now } else t
        msgs := s.hl.msgs.map fun m =>
          if m.tag = f.tag ∧ m.node = f.dst ∧ m.sent.isSome then { m with sent := some s.now } else m } }

/-- A new sequenced frame leaves with the next LSEQ and enters the replay buffer (R327). -/
def State.hlSendNew (s : State) (p : PortId) (i : HlItem) : State :=
  let x := s.hlPort p
  let f := { i.f with lseq := x.txSeq }
  ((s.setHlPort p { x with txq := x.txq.erase i, txSeq := x.txSeq + 1, sent := x.sent ++ [⟨f, 1, s.now, false⟩] }).hlLeave p f).hlClock f

/-- The next frame that a port may send (R326, R328): a TSYNC; a replay, which goes before new sequenced frames; then by class, while
the partner has a buffer free for the class. -/
def State.frameOut (s : State) (p : PortId) : State :=
  let x := s.hlPort p
  if s.hlState p ≠ 2 ∨ s.now < x.busy then s
  else
    match x.txq.find? (fun i => hlClass i.f == 1) with
    | some i => (s.setHlPort p { x with txq := x.txq.erase i }).hlLeave p (s.hlStampOut i)
    | none =>
      match x.sent.find? (·.again) with
      | some q =>
        let q' := { q with tries := q.tries + 1, since := s.now, again := false }
        ((s.setHlPort p { x with sent := x.sent.map fun y => if y = q then q' else y }).hlLeave p q.f).incReg (Reg.hlReplay p)
      | none =>
        let free := x.cred - x.sent.length
        let pick (c : Nat) : Option HlItem := x.txq.find? (fun i => hlClass i.f == c)
        match (if 0 < free then pick 2 else none) with
        | some i => s.hlSendNew p i
        | none =>
          if free ≤ 2 then s
          else match pick 3 with
            | some i => s.hlSendNew p i
            | none => match pick 4 with
              | some i => s.hlSendNew p i
              | none => s

/-! Receiving (R327, R330, R331, R340) -/

/-- SIZE of a remote request (R325). -/
def hlSize (f : HlFrame) : Nat := fldOf f.w3 0 9

/-- The fields of a frame agree with the table of R325. -/
def hlGood (f : HlFrame) : Bool :=
  let n := f.payload.length
  let sized := decide (1 ≤ hlSize f) && decide (hlSize f ≤ 256)
  let code := decide (f.w3 &&& ~~~(0x0700_0000 : Word) = 0) && decide (fldOf f.w3 24 3 ≤ 4)
  let ok := decide (fldOf f.w3 24 3 = 0)
  decide (f.hops.toNat ≤ 64) && (!f.bc || f.dst == 0) && (!f.noseq || f.lseq == 0) &&
  (match f.typ.toNat with
   | 1 => f.bc && !f.rsp && f.noseq && n == 8 && f.w3 == 0
   | 2 => f.bc && !f.rsp && !f.noseq && n == 32 && f.w3 == 0 && decide (f.w2 &&& ~~~(0x37 : Word) = 0)
   | 3 => !f.bc && !f.noseq && f.w2 == 0 && (if f.rsp then n == 0 && decide (f.w3 &&& ~~~(1 : Word) = 0) else n == 8 && f.w3 == 0)
   | 4 => !f.bc && !f.noseq &&
       (if f.rsp then code && (if ok then decide (8 ≤ n) && decide (n ≤ 256) else n == 0)
        else n == 0 && sized && decide (f.w3 &&& ~~~(0x1_01FF : Word) = 0))
   | 5 => !f.bc && !f.noseq &&
       (if f.rsp then code && n == 0 else sized && n == max (hlSize f) 8 && decide (f.w3 &&& ~~~(0x1_01FF : Word) = 0))
   | 6 => !f.bc && !f.noseq &&
       (if f.rsp then code && (if ok then n == 8 else n == 0) else n == 8 && decide (f.w3 &&& ~~~(0x1_1000 : Word) = 0))
   | 7 => !f.bc && !f.noseq && fldOf f.w2 0 8 == 1 && decide (1 ≤ fldOf f.w2 8 9) && decide (fldOf f.w2 8 9 ≤ 256) &&
       decide (f.w2 &&& ~~~(0x0701_FFFF : Word) = 0) && decide (fldOf f.w2 24 3 ≤ 4) &&
       (if f.rsp then n == (if fldOf f.w2 24 3 = 0 then fldOf f.w2 8 9 else 0) else n == 0 && fldOf f.w2 24 3 == 0)
   | _ => false)

/-- A frame breaks a rule of R330 or R339. -/
def State.hlStray (s : State) (f : HlFrame) : Bool :=
  !f.bc && (f.src == s.hlId ||
    (if f.typ = hlConfig then f.hops != 0
     else match s.route f.dst with | .own => false | .port _ => decide (64 ≤ f.hops.toNat) | .none => true))

/-- A node has a port on its route (R330). -/
def State.hasRoute (s : State) (n : NodeId) : Bool := match s.route n with | .port _ => true | _ => false

/-- A response leaves for the node that asked (R336): by its route, or back over the port for a configuration frame (R339). -/
def State.hlRespond (s : State) (p : PortId) (typ : Nibble) (dst : NodeId) (tag : Byte) (w2 w3 : Word) (data : List Byte) : State :=
  let f := s.hlFrame typ false true false dst tag w2 w3 data
  if typ = hlConfig then s.hlQueue p f s.stamp false
  else match s.route dst with
    | .port q => s.hlQueue q f s.stamp false
    | _ => s

/-- An unexpected node (R340): discarded and acknowledged; a request whose SRC has a route is answered with RESP 0x1. -/
def State.hlStrayIn (s : State) (p : PortId) (f : HlFrame) : State :=
  let s := s.hlError p (Reg.hlNodeerr p) 14
  if f.rsp || f.bc || f.typ == hlMsg || !s.hasRoute f.src then s
  else if f.typ = hlConfig then s.hlRespond p f.typ f.src f.tag (f.w2 ||| 0x0100_0000) f.w3 []
  else s.hlRespond p f.typ f.src f.tag f.w2 0x0100_0000 []

/-- The receiver takes the LSEQ it expected (R327). -/
def State.hlTake (s : State) (p : PortId) (f : HlFrame) : State :=
  if f.noseq then s
  else (s.modHlPort p fun x => { x with rxSeq := f.lseq + 1 }).hlAck p f.lseq

/-- A frame of port `p` waits at port `q` for its relay, in its receive buffer (R328). -/
def State.hlPass (s : State) (p q : PortId) (f : HlFrame) (due : Stamp) : State :=
  s.modHlPort q fun x => { x with txq := x.txq ++ [⟨f, due, false, some p⟩] }

/-- A frame is relayed as R330 and R331 state: `due` is when its SOF leaves an idle port. -/
def State.hlRelay (s : State) (p : PortId) (f : HlFrame) (due : Stamp) : State :=
  let g := { f with hops := f.hops + 1, lseq := 0 }
  if f.bc then
    if 64 ≤ f.hops.toNat then s
    else forAll (fun (q : PortId) s => if q ≠ p ∧ s.rbit (Reg.hlBcfwd p) q.val then s.hlPass p q g due else s) s
  else match s.route f.dst with
    | .port q => s.hlPass p q g due
    | _ => s

/-- A frame is delivered on this node: a broadcast under LOCAL, another by the route of its destination (R330, R331). -/
def State.hlLocal (s : State) (p : PortId) (f : HlFrame) : Bool :=
  if f.bc then s.rbit (Reg.hlBcfwd p) 4 else f.typ == hlConfig || s.route f.dst == .own

/-- A FRAME IS RECEIVED (R327, R330, R331, R340, R345): `act` is what its delivery does. -/
def State.hlReceive (s : State) (p : PortId) (f : HlFrame) (due : Stamp) (act : State → State) : State :=
  if s.hlState p ≠ 2 then s
  else
    let x := s.hlPort p
    let d := (f.lseq - x.rxSeq).toNat
    if x.injCrc then ((s.setHlPort p { x with injCrc := false }).hlNak p).hlError p (Reg.hlCrcerr p) 11
    else if x.injSeq then ((s.setHlPort p { x with injSeq := false }).hlNak p).hlError p (Reg.hlSeqerr p) 12
    else if !f.noseq && d != 0 then
      (if d < 128 then (s.hlNak p).hlError p (Reg.hlSeqerr p) 12 else s.hlAck p f.lseq)
    else
      let s := s.hlTake p f
      if x.injUnk then (s.modHlPort p fun x => { x with injUnk := false }).hlError p (Reg.hlUnkerr p) 13
      else if !hlGood f then s.hlError p (Reg.hlUnkerr p) 13
      else if x.injNode then (s.modHlPort p fun x => { x with injNode := false }).hlStrayIn p f
      else if s.hlStray f then s.hlStrayIn p f
      else
        let s := if f.bc || !s.hlLocal p f then s.hlRelay p f due else s
        if s.hlLocal p f then act s else s

/-- The copy of a bad frame that a relay has begun to send on an idle port ends there with EOB, under an LSEQ that stays free (R327). -/
def State.hlCutOff (s : State) (p : PortId) (f : HlFrame) : State :=
  let cut (s : State) (q : PortId) : State :=
    if s.hlState q = 2 ∧ (s.hlPort q).busy ≤ s.now then
      s.modHlPort q fun x =>
        { x with out := some { f with hops := f.hops + 1, lseq := if f.noseq then 0 else x.txSeq }, eob := true }
    else s
  if f.typ = hlConfig ∨ 64 ≤ f.hops.toNat then s
  else if f.bc then forAll (fun (q : PortId) s => if q ≠ p ∧ s.rbit (Reg.hlBcfwd p) q.val then cut s q else s) s
  else match s.route f.dst with
    | .port q => cut s q
    | _ => s

/-- The next expected frame is taken, whatever it holds (R327, R340). -/
def State.hlSkip (s : State) (p : PortId) : State :=
  (s.modHlPort p fun x => { x with rxSeq := x.rxSeq + 1 }).hlAck p (s.hlPort p).rxSeq

/-- A frame that is not good (R327, R340), or a link control set with a wrong CHK, which is ignored and counted (R319). -/
def State.hlBadFrame (s : State) (p : PortId) (err : FrameError) : State :=
  if err = .badLcs then (if s.hlState p = 1 ∨ s.hlState p = 2 then s.incReg (Reg.hlCrcerr p) else s)
  else if s.hlState p ≠ 2 then s
  else match err with
    | .badLcs => s
    | .badCrc => (s.hlNak p).hlError p (Reg.hlCrcerr p) 11
    | .truncated => (s.hlNak p).hlError p (Reg.hlCrcerr p) 11
    | .endedBad => s
    | .duplicate => s.hlAck p ((s.hlPort p).rxSeq - 1)
    | .laterSeq => (s.hlNak p).hlError p (Reg.hlSeqerr p) 12
    | .strayAck => s.hlError p (Reg.hlSeqerr p) 12
    | .unknownFrame => (s.hlSkip p).hlError p (Reg.hlUnkerr p) 13
    | .wrongNode f => (s.hlSkip p).hlStrayIn p f

/-- What a frame that is not good leaves: its answer, and the end of the copy that is leaving (R327). -/
def State.hlBad (s : State) (p : PortId) (err : FrameError) (copy : Option HlFrame) : State :=
  let cut := s.hlState p == 2 && (err == .badCrc || err == .truncated || err == .endedBad)
  (match copy with | some f => if cut then s.hlCutOff p f else s | none => s).hlBadFrame p err

/-! Time (R332, R267, R268) -/

/-- HL_TSPER; below 1,000 acts as 1,000. -/
def State.tsPeriod (s : State) : Nat := max 1000 (s.reg Reg.hlTsper).toNat

/-- A source's period has passed: one TSYNC frame on the ports of HL_BCORIG. -/
def State.tsyncSend (s : State) : State :=
  if s.rfld Reg.tmrTbctl 0 2 ≠ 2 ∨ s.tmrOn = false ∨ s.now < s.hl.tsAt + s.tsPeriod then s
  else { s with hl := { s.hl with tsAt := s.now } }.hlBroadcast (s.hlFrame hlTsync true false true 0 0 0 0 (bytesOf 8 0)) true

/-- An offset e reaches a follower: a step when it is behind by STEPTHR fc or more, which shows from the next fc on, else a slew; then
SYNCD and AHEAD (R265, R267, R268). -/
def State.tbCorrect (s : State) (e : Int) : State :=
  let thr : Int := max 1 (s.rfld Reg.tmrTbsync 8 8) * 8
  let win : Int := s.rfld Reg.tmrTbsync 0 8
  let old := s
  let s := s.setReg Reg.tmrTberr (BitVec.ofInt 32 (max (-2 ^ 31) (min e (2 ^ 31 - 1))))
  let s := if thr ≤ -e then
      { s.orReg Reg.tmrTbstat (bitW 9) with time := { s.time with jump := BitVec.ofInt 64 (-e), slew := 0 } }
    else { s with time := { s.time with slew := BitVec.ofInt 64 (-e) } }
  let s := s.putBit Reg.tmrTbstat 1 (decide (win < e))
  ({ s.putBit Reg.tmrTbstat 0 (decide (-win ≤ e ∧ e ≤ win)) with time := { s.time with quiet := 0 } }).almSeesAll old

/-- A follower uses a TSYNC frame of its source from its port, the first copy only (R331, R332). -/
def State.tsyncUse (s : State) (p : PortId) (f : HlFrame) (rx : Stamp) : State :=
  let orig : Stamp := BitVec.ofNat 64 (ofBytes f.payload)
  if !s.follower || f.src.toNat != s.rfld Reg.hlTsctl 12 12 || p.val != s.rfld Reg.hlTsctl 0 2
      || s.hl.tsSeen.contains (f.src, orig) then s
  else
    { s with hl := { s.hl with tsSeen := s.hl.tsSeen ++ [(f.src, orig)] } }.tbCorrect
      ((rx.toNat : Int) - (orig.toNat + 768 * f.hops.toNat + f.w2.toNat))

/-! Angle broadcasts (R44, R334) -/

/-- The snapshot of a base (R44). -/
def State.snapshot (s : State) (b : BaseId) : Snap :=
  let limit : DWord :=
    match s.abSrc b with
    | 5 => match s.abSnap b s.fc with | some (n, _) => n.limit | none => 0
    | 6 => if s.abReverse b then 0x8000_0000_0000_0000 + s.phase b else 0x7FFF_FFFF_FFFF_FFFF + s.phase b
    | _ => (s.base b).limit
  { t := s.fc, phase := s.phase b, vel := s.velAt b s.stamp, limit := limit, dir := s.abReverse b, valid := s.abValid b }

/-- AB_BC.PER; below 1,000 acts as 1,000 (R44). -/
def State.bcPeriod (s : State) (b : BaseId) : Nat := max 1000 (s.rfld (Reg.abBc b) 8 24)

/-- A received base follows node `n` and base `k` (R45). -/
def State.followsBase (s : State) (q : BaseId) (n : NodeId) (k : Nat) : Bool :=
  s.takes q 5 && s.rfld (Reg.abSrc1 q) 0 12 == n.toNat && s.rfld (Reg.abSrc1 q) 12 3 == k

/-- A broadcast source takes a snapshot every PER fc (R44): one ANGLE frame, and a local copy for bases that follow this node. -/
def State.angleSnapshot (s : State) (b : BaseId) : State :=
  let due := match (s.base b).bcAt with | some t => decide (t.toNat + s.bcPeriod b ≤ s.fc.toNat) | none => true
  if !s.rbit (Reg.abBc b) 0 || !s.tmrOn || !due then s
  else
    let n := s.snapshot b
    let s := s.modBase b fun x => { x with bcAt := some s.fc }
    let w2 := BitVec.ofNat 32 (b2n n.valid * 32 + b2n n.dir * 16 + b.val)
    let bytes := bytesOf 8 n.t.toNat ++ bytesOf 8 n.phase.toNat ++ bytesOf 8 n.vel.toNat ++ bytesOf 8 n.limit.toNat
    let s := s.hlBroadcast (s.hlFrame hlAngle true false false 0 0 w2 0 bytes) false
    { s with hl := { s.hl with loop := s.hl.loop ++ [(s.now + 2, b, n)] } }

/-- A snapshot for every base that follows node `n` and base `k`; a second copy is not used (R331). -/
def State.angleDeliver (s : State) (n : NodeId) (k : Nat) (x : Snap) : State :=
  if s.hl.anSeen.contains (n, k, x.t) then s
  else
    forAll (fun (q : BaseId) s => if s.followsBase q n k then s.snapArrive q x else s)
      { s with hl := { s.hl with anSeen := s.hl.anSeen ++ [(n, k, x.t)] } }

/-- The snapshot in an ANGLE frame (R325). -/
def angleSnap (f : HlFrame) : Snap :=
  let d (k : Nat) : DWord := BitVec.ofNat 64 (ofBytes ((f.payload.drop (8 * k)).take 8))
  { t := d 0, phase := d 1, vel := d 2, limit := d 3, dir := bitOf f.w2 4, valid := bitOf f.w2 5 }

/-! Remote memory (R336) -/

/-- The address of a window offset on this part (R180). -/
def remoteAddr (x : Word) : Option Word :=
  if x.toNat < 0x100_0000 then some (0x1000_0000 + x)
  else if x.toNat < 0x200_0000 then some (0x2000_0000 + (x - 0x100_0000))
  else none

/-- A request of another node goes to the inbound master of its port (R336). -/
def State.remoteIn (s : State) (p : PortId) (f : HlFrame) (kind : ReqKind) (size : Nat) (data : List Byte) : State :=
  let bad (c : Nat) : State := s.hlRespond p f.typ f.src f.tag f.w2 (BitVec.ofNat 32 (c * 2 ^ 24)) []
  match remoteAddr f.w2 with
  | none => bad 1
  | some a =>
    if 256 < a.toNat % 256 + size then bad 2
    else
      let r := s.issueReq (29 + p.val)
        { addr := a, kind := kind, len := size, data := data, ordered := bitOf f.w3 16, node := 0 }
      { r.1 with hl := { r.1.hl with inb := r.1.hl.inb ++ [⟨[(r.2, none)], p, f.src, f.tag, f.typ, f.w2, f.w3, size⟩] } }

/-- The matrix has answered a part of the inbound request of another node; with the last one its response frame leaves (R336, R325,
R339). -/
def State.remoteDone (s : State) (id : Nat) (c : Resp) (data : List Byte) : State :=
  let hit (q : HlIn) : Bool := q.parts.any (·.1 == id)
  match s.hl.inb.find? hit with
  | none => s
  | some q =>
    let parts := q.parts.map (partTake id c data)
    let done := parts.all (·.2.isSome)
    let inb := s.hl.inb.filterMap fun x => if hit x then (if done then none else some { x with parts := parts }) else some x
    let s := { s with hl := { s.hl with inb := inb } }
    if !done then s
    else
      let r := partsAnswer parts
      let good := decide (r.1 = .okay)
      if q.typ = hlConfig then
        s.hlRespond q.port q.typ q.src q.tag (if good then q.x else putFld q.x 24 3 r.1.code) q.w3 (if good then r.2 else [])
      else
        s.hlRespond q.port q.typ q.src q.tag q.x (BitVec.ofNat 32 (r.1.code * 2 ^ 24))
          (if r.1 ≠ .okay ∨ q.typ = hlRwrite then [] else r.2 ++ List.replicate (8 - r.2.length) 0)

/-- The response of a code; a code that R311 does not give counts as LINK. -/
def respIn (c : Nat) : Resp := if c = 0 then .okay else match respOfCode c with | some r => r | none => .link

/-- The type of frame that carries a request (R325). -/
def kindTyp : ReqKind → Nibble
  | .read => hlRread
  | .write => hlRwrite
  | _ => hlRatom

/-- A response frame completes its request, or is stale (R336, R342). One whose type or length does not fit its request disagrees with
R325: it is unknown, and the request is left to its timeout (R340). -/
def State.remoteResponse (s : State) (p : PortId) (f : HlFrame) : State :=
  match s.hl.txns.find? (fun t => t.tag == f.tag && t.node == f.src) with
  | none => s.incReg Reg.hlStale
  | some t =>
    match s.findReq t.id with
    | none => s.txnEnd t (respIn (fldOf f.w3 24 3)) []
    | some r =>
      if f.typ ≠ kindTyp r.kind ∨ (r.kind = .read ∧ fldOf f.w3 24 3 = 0 ∧ f.payload.length ≠ max r.len 8) then
        s.hlError p (Reg.hlUnkerr p) 13
      else s.txnEnd t (respIn (fldOf f.w3 24 3)) (f.payload.take r.len)

/-- HL_TXTO; below 1,000 acts as 1,000. -/
def State.txto (s : State) : Nat := max 1000 (s.reg Reg.hlTxto).toNat

/-- No response within HL_TXTO: LINK for a request, the end of a message (R335, R336). -/
def State.tagTimeout (s : State) (tag : Byte) : State :=
  match s.hl.txns.find? (·.tag == tag) with
  | some t => if t.since + s.txto ≤ s.now then s.txnEnd t .link [] else s
  | none =>
    match s.hl.msgs.find? (·.tag == tag) with
    | some m =>
      (match m.sent with
       | some t => if t + s.txto ≤ s.now then (s.msgDiscard m).msgPump s.hl.msgs.length else s
       | none => s)
    | none => s

/-- A request accepted at target 28 (R336): answered at once without a route, over a quarantined port and beyond the window; served on
this part by its own number; else a frame. `own` carries a request out on this part. -/
def State.remoteOut (s : State) (r : Req) (own : Word → State) : State :=
  let x := r.addr - 0x6000_0000
  let fin (c : Resp) : State := s.modReq r.id fun q => { q with stage := .done, resp := c }
  match s.route r.node with
  | .none => fin .decErr
  | .own => (match remoteAddr x with | some a => own a | none => fin .decErr)
  | .port p =>
    if s.hlState p = 3 then fin .link
    else
      match s.freeTag with
      | none => s
      | some tag =>
        let ord := b2n r.ordered * 2 ^ 16
        let pad := r.data ++ List.replicate (8 - r.data.length) 0
        let f :=
          match r.kind with
          | .read => s.hlFrame hlRread false false false r.node tag x (BitVec.ofNat 32 (ord + r.len)) []
          | .write => s.hlFrame hlRwrite false false false r.node tag x (BitVec.ofNat 32 (ord + r.len)) pad
          | .atomAdd => s.hlFrame hlRatom false false false r.node tag x (BitVec.ofNat 32 ord) pad
          | .atomSwap => s.hlFrame hlRatom false false false r.node tag x (BitVec.ofNat 32 (ord + 2 ^ 12)) pad
        let s := (s.hlQueue p f s.stamp false).modReq r.id fun q => { q with stage := .passed }
        { s with hl := { s.hl with txns := s.hl.txns ++ [⟨tag, r.id, r.node, p, s.now⟩] } }

/-! The meanings -/

/-- A command of a frame type acts on frames of that type. -/
def isFrame (f : HlFrame) (typ : Nibble) (rsp : Bool) : Bool := f.typ == typ && f.rsp == rsp

/-- PORT_ENABLE (R320). -/
def execPortEnable (p : PortId) (s : State) : Host.Outcome State Fault Refusal := .next (s.hlEnable p)
/-- PORT_RETRAIN (R322, R341). -/
def execPortRetrain (p : PortId) (s : State) : Host.Outcome State Fault Refusal := .next (s.hlRetrain p)
/-- TRAINING_FAILURE (R320). -/
def execTrainingFailure (p : PortId) (why : TrainingEnd) (s : State) : Host.Outcome State Fault Refusal :=
  .next (s.hlTrainFail p why.cause why.partner)
/-- TRAINING_RETRY (R320): 1 ms after a failure, while EN = 1. -/
def execTrainingRetry (p : PortId) (s : State) : Host.Outcome State Fault Refusal :=
  .next (match (s.hlPort p).retryAt with
    | some t => if t ≤ s.now ∧ s.rbit (Reg.hlCtl p) 0 ∧ s.hlState p = 0 then s.hlTrain p else s
    | none => s)
/-- DELAY_MEASUREMENT (R320, R321): the measured delay of a port that trains or is up. -/
def execDelayMeasurement (p : PortId) (delay : LinkDelay) (s : State) : Host.Outcome State Fault Refusal :=
  .next (if s.hlState p = 1 ∨ s.hlState p = 2 then s.setFld (Reg.hlTrinfo p) 16 9 delay.toNat else s)
/-- LINK_DOWN (R322). -/
def execLinkDown (p : PortId) (s : State) : Host.Outcome State Fault Refusal :=
  .next (if s.hlState p = 2 then s.hlDown p else s)
/-- FRAME_SEND (R326). -/
def execFrameSend (p : PortId) (s : State) : Host.Outcome State Fault Refusal := .next (s.frameOut p)
/-- LINK_FRAME_ERROR (R327, R340): `copy` is the header of a frame whose copy a relay has begun to send. -/
def execLinkFrameError (p : PortId) (bad : BadFrame) (s : State) : Host.Outcome State Fault Refusal :=
  .next (s.hlBad p bad.err bad.copy)
/-- VIOLATION_WINDOW (R341): a new window has begun. -/
def execViolationWindow (p : PortId) (s : State) : Host.Outcome State Fault Refusal := .next (s.hlRoll p)
/-- ACK_RECEIVE (R327). -/
def execAckReceive (p : PortId) (seq : Byte) (cred : Byte) (s : State) : Host.Outcome State Fault Refusal :=
  .next (s.hlAckIn p seq cred)
/-- NAK_RECEIVE (R327). -/
def execNakReceive (p : PortId) (seq : Byte) (cred : Byte) (s : State) : Host.Outcome State Fault Refusal :=
  .next (s.hlNakIn p seq cred)
/-- ACK_TIMEOUT (R327). -/
def execAckTimeout (p : PortId) (s : State) : Host.Outcome State Fault Refusal := .next (s.hlAckTimeout p)
/-- TSYNC_SEND (R332). -/
def execTsyncSend (s : State) : Host.Outcome State Fault Refusal := .next s.tsyncSend
/-- TSYNC_RECEIVE (R332): `rx` is when the SOF would have left this node. -/
def execTsyncReceive (p : PortId) (f : HlFrame) (rx : Stamp) (s : State) : Host.Outcome State Fault Refusal :=
  .next (if isFrame f hlTsync false then s.hlReceive p f rx (·.tsyncUse p f rx) else s)
/-- ANGLE_RECEIVE (R334). -/
def execAngleReceive (p : PortId) (f : HlFrame) (s : State) : Host.Outcome State Fault Refusal :=
  .next (if isFrame f hlAngle false then
      s.hlReceive p f s.stamp (·.angleDeliver f.src (fldOf f.w2 0 3) (angleSnap f)) else s)
/-- MSG_RECEIVE (R335): delivered or not, the message is answered. -/
def execMsgReceive (p : PortId) (f : HlFrame) (s : State) : Host.Outcome State Fault Refusal :=
  .next (if isFrame f hlMsg false then
      s.hlReceive p f s.stamp fun s =>
        let r := s.msgDeliver f.src (wordOf (f.payload.take 4)) (wordOf (f.payload.drop 4))
        r.2.hlRespond p hlMsg f.src f.tag 0 (boolW r.1) []
    else s)
/-- MSG_RESPONSE (R335, R342). -/
def execMsgResponse (p : PortId) (f : HlFrame) (s : State) : Host.Outcome State Fault Refusal :=
  .next (if isFrame f hlMsg true then
      s.hlReceive p f s.stamp fun s =>
        if s.hl.msgs.any (fun m => m.tag == f.tag && m.node == f.src && m.sent.isSome) then s.msgAnswer f.tag (bitOf f.w3 0)
        else s.incReg Reg.hlStale
    else s)
/-- MSG_RESEND (R335). -/
def execMsgResend (tag : Byte) (s : State) : Host.Outcome State Fault Refusal :=
  .next (match s.hl.msgs.find? (·.tag == tag) with
    | some m => if m.sent.isNone ∧ m.tries ≠ 0 ∧ m.wait ≤ s.now then s.msgSend m else s
    | none => s)
/-- RREAD_REQUEST (R336). -/
def execRreadRequest (p : PortId) (f : HlFrame) (s : State) : Host.Outcome State Fault Refusal :=
  .next (if isFrame f hlRread false then s.hlReceive p f s.stamp (·.remoteIn p f .read (hlSize f) []) else s)
/-- RWRITE_REQUEST (R336). -/
def execRwriteRequest (p : PortId) (f : HlFrame) (s : State) : Host.Outcome State Fault Refusal :=
  .next (if isFrame f hlRwrite false then
      s.hlReceive p f s.stamp (·.remoteIn p f .write (hlSize f) (f.payload.take (hlSize f))) else s)
/-- RATOM_REQUEST (R336). -/
def execRatomRequest (p : PortId) (f : HlFrame) (s : State) : Host.Outcome State Fault Refusal :=
  .next (if isFrame f hlRatom false then
      s.hlReceive p f s.stamp
        (·.remoteIn p f (if bitOf f.w3 12 then .atomSwap else .atomAdd) 4 (f.payload.take 4)) else s)
/-- REMOTE_RESPONSE (R336, R342). -/
def execRemoteResponse (p : PortId) (f : HlFrame) (s : State) : Host.Outcome State Fault Refusal :=
  .next (if isFrame f hlRread true || isFrame f hlRwrite true || isFrame f hlRatom true then
      s.hlReceive p f s.stamp (·.remoteResponse p f) else s)
/-- TRANSACTION_TIMEOUT (R335, R336). -/
def execTransactionTimeout (tag : Byte) (s : State) : Host.Outcome State Fault Refusal := .next (s.tagTimeout tag)
/-- ANGLE_SNAPSHOT (R44). -/
def execAngleSnapshot (b : BaseId) (s : State) : Host.Outcome State Fault Refusal := .next (s.angleSnapshot b)
/-- HL_INJ_DROPACK (R345). -/
def execHlInjDropack (p : PortId) (s : State) : Host.Outcome State Fault Refusal :=
  .next (s.modHlPort p fun x => { x with injAck := true })
/-- HL_INJ_RXNODE (R345). -/
def execHlInjRxnode (p : PortId) (s : State) : Host.Outcome State Fault Refusal :=
  .next (s.modHlPort p fun x => { x with injNode := true })
/-- HL_INJ_RXUNK (R345). -/
def execHlInjRxunk (p : PortId) (s : State) : Host.Outcome State Fault Refusal :=
  .next (s.modHlPort p fun x => { x with injUnk := true })
/-- HL_INJ_RXSEQ (R345). -/
def execHlInjRxseq (p : PortId) (s : State) : Host.Outcome State Fault Refusal :=
  .next (s.modHlPort p fun x => { x with injSeq := true })
/-- HL_INJ_RXCRC (R345). -/
def execHlInjRxcrc (p : PortId) (s : State) : Host.Outcome State Fault Refusal :=
  .next (s.modHlPort p fun x => { x with injCrc := true })
/-- PORT_UP (R320, R322). -/
def execPortUp (p : PortId) (partner : NodeId) (nextSeq : Byte) (s : State) : Host.Outcome State Fault Refusal :=
  .next (s.hlUp p partner nextSeq)

end Sys2Proof.Machine
end

