-- ==== Sys2Proof/Machine/Access.lean ====
section
/-! DEFINITION. What a target does with one beat of a request at a store (R290, R297, R303, R457), and the reset of a master (R313). -/

namespace Sys2Proof.Machine

/-! Beats -/

/-- The beats of `n` bytes at `a` at a target of beat width `w`: the aligned beats that the bytes touch (R303). -/
def beatsOf (w a n : Nat) : Nat := (a + n - 1) / w - a / w + 1

/-- The bytes of beat `k` of `n` bytes at `a`: the offset in the request and the length. -/
def beatSpan (w a n k : Nat) : Nat × Nat :=
  let lo := if k = 0 then a else (a / w + k) * w
  let hi := min (a + n) ((a / w + k + 1) * w)
  (lo - a, hi - lo)

/-- The beats of a request at its target. -/
def Req.total (r : Req) : Nat := beatsOf (beatWidth (match r.tgt with | some t => t | none => 0)) r.addr.toNat r.len

/-- The address at which a request acts: the low range as SYS_CTL.REMAP gave it at its decode (R285, R288). -/
def Req.site (r : Req) : Nat :=
  let a := r.addr.toNat
  if a < 0x10_0000 then (if r.remap then 0x1000_0000 else 0x3000_0000) + a else a

/-- The bytes of a beat of a request. -/
def Req.span (r : Req) (k : Nat) : Nat × Nat :=
  beatSpan (beatWidth (match r.tgt with | some t => t | none => 0)) r.addr.toNat r.len k

/-- `n` bytes read from a store for master `m`: whether an uncorrectable unit was met, and the bytes. -/
def State.storeRead (s : State) (m a n : Nat) : Bool × List Byte × State :=
  let r := s.eccRead m a n
  if r.1 then (true, [], r.2)
  else
    match r.2.region a with
    | .tile e => let x := r.2.portRead e false a n; (false, x.1, x.2)
    | _ => (false, r.2.readBytes a n, r.2)

/-- Bytes written to a store by master `m`, `atom` as the second half of an atomic: whether an uncorrectable unit stopped it. -/
def State.storeWrite (s : State) (m a : Nat) (bs : List Byte) (atom : Bool) : Bool × State :=
  let r := s.eccWrite m a bs.length
  if r.1 then r
  else
    match r.2.region a with
    | .tile e => (false, r.2.portWrite e false atom a bs)
    | .table => (false, r.2.tableWrite a bs)
    | _ => (false, r.2.storeBytes a bs)

/-- An atomic at a bank (R190, R294): one step; an uncorrectable doubleword stops it and nothing is written (R297). -/
def State.storeAtomic (s : State) (m : Nat) (kind : ReqKind) (a : Nat) (o : Word) : Bool × List Byte × State :=
  let r := s.eccRead m a 4
  if r.1 then (true, [], r.2)
  else
    let old := r.2.readBytes a 4
    let w := r.2.storeWrite m a (bytesOf 4 (atomNew kind (wordOf old) o).toNat) true
    (w.1, if w.1 then [] else old, w.2)

/-- The store access of a request must wait a fc: a borrowed Vitrine (R405) or an atomic of the near port (R291). -/
def State.storeWaits (s : State) (a n : Nat) (kind : ReqKind) : Bool × State :=
  let v := s.vitrines a n (reqWrites kind)
  if v.1 then v
  else
    match v.2.region a with
    | .tile e => (v.2.meetsAtomic e a n (kindAtomic kind), v.2)
    | _ => v

/-- A request at a store is answered with a code; the data of a read that failed is not delivered (R311). -/
def Req.answered (r : Req) (c : Resp) : Req :=
  { r with stage := .done, resp := c, rdata := if c = .okay then r.rdata else [] }

/-- One beat of an accepted request at a store; nothing happens where it must wait. A write that meets an uncorrectable unit in part
changes nothing (R297, R311). -/
def State.storeBeat (s : State) (r : Req) : State :=
  let p := r.span r.beats
  let a := r.site + p.1
  let w := s.storeWaits a p.2 r.kind
  if w.1 then w.2
  else
    let last := decide (r.total ≤ r.beats + 1)
    let put (s : State) (q : Req) : State := s.modReq r.id fun _ => if last then { q with stage := .done } else q
    match r.kind with
    | .read =>
      let x := w.2.storeRead r.m a p.2
      if x.1 then x.2.2.modReq r.id fun _ => { r.answered .eccErr with beats := r.beats + 1 }
      else put x.2.2 { r with beats := r.beats + 1, rdata := r.rdata ++ x.2.1 }
    | .write =>
      let all := w.2.eccWrite r.m r.site r.len
      if r.beats == 0 && all.1 then all.2.modReq r.id fun _ => { r.answered .eccErr with beats := 1 }
      else
        let x := w.2.storeWrite r.m a ((r.data.drop p.1).take p.2) false
        put x.2 { r with beats := r.beats + 1, resp := if x.1 then .eccErr else r.resp }
    | k =>
      let x := w.2.storeAtomic r.m k a (wordOf r.data)
      x.2.2.modReq r.id fun _ => { (if x.1 then r.answered .eccErr else { r with stage := .done, rdata := x.2.1 }) with beats := 1 }

/-! Master reset (R313) -/

/-- A request that is in progress at its target: some of its beats are done and some are not. -/
def Req.cut (r : Req) : Bool := r.stage == .accepted && decide (0 < r.beats) && decide (r.beats < r.total)

/-- The first byte of a request that was not carried out. -/
def Req.firstLeft (r : Req) : Word := r.named.1 + BitVec.ofNat 32 (r.span r.beats).1

/-- Beats dropped and done, as MTX_RSTINFO and the log entry give them (R315, R416). -/
def Req.dropDone (r : Req) : Nat := (r.total - r.beats) % 128 * 2 ^ 8 + r.beats % 128

/-- A cut request is recorded. -/
def State.recordCut (s : State) (r : Req) : State :=
  let s := s.orReg Reg.mtxStat (bitW 12)
  if s.rbit Reg.mtxRstinfo 31 then s.orReg Reg.mtxRstinfo (bitW 30)
  else
    let t := match r.named.2 with | some t => t | none => 0x1F
    (s.setReg Reg.mtxRstaddr r.firstLeft).setReg Reg.mtxRstinfo
      (bitW 31 ||| (s.reg Reg.mtxRstinfo &&& bitW 30) |||
       BitVec.ofNat 32 (b2n (reqWrites r.kind) * 2 ^ 29 + t * 2 ^ 24 + r.m * 2 ^ 16 + r.dropDone))

/-- An accepted atomic of the master completes wholly: at its store, or through the remote window, whose answer nobody waits for. -/
def State.finishAtomic (s : State) (r : Req) : State :=
  if r.stage != .accepted then s
  else
    match r.kind with
    | .read => s
    | .write => s
    | k =>
      (match r.tgt with
       | some t =>
         if t < 24 then (s.storeAtomic r.m k r.site (wordOf r.data)).2.2
         else if t = 28 then
           s.remoteOut r fun a =>
             (match s.target a.toNat with
              | some t => if t < 24 then (s.storeAtomic r.m k a.toNat (wordOf r.data)).2.2 else s
              | none => s)
         else s
       | none => s)

/-- A reset cuts or discards a request: one that has been carried out, and an accepted atomic, which completes, are neither. -/
def Req.lost (r : Req) : Bool :=
  match r.stage with
  | .accepted => !kindAtomic r.kind
  | .passed => false
  | .done => false
  | .dropped _ => false
  | _ => true

/-- A request after the reset of its master: it keeps its place at the master, and at its target where that has accepted it, up to the
end of the fc; one that was not issued has none. -/
def Req.drop (r : Req) : Option Req :=
  match r.stage with
  | .queued => none
  | .dropped _ => some r
  | k => some { r with stage := .dropped (k == .accepted || k == .passed) }

/-- The reset of a master reaches the matrix: accepted atomics complete, cut requests are recorded, everything of the master is
discarded and no response reaches it. The places are released with the next fc. -/
def State.masterReset (s : State) (m : Nat) : State :=
  let mine := s.mtx.reqs.filter fun r => r.m == m
  let s := mine.foldl State.finishAtomic s
  let cuts := mine.filter Req.cut
  let s := cuts.foldl State.recordCut s
  let s := match cuts ++ mine.filter Req.lost with
    | r :: _ => (s.incReg Reg.mtxRstcnt).log 0x21 m r.dropDone r.firstLeft
    | [] => s
  let gone (id : Nat) : Bool := mine.any (·.id == id)
  { s with
      mtx := { s.mtx with reqs := s.mtx.reqs.filterMap fun r => if r.m = m then r.drop else some r },
      hl := { s.hl with inb := s.hl.inb.filter fun q => !q.parts.any fun x => gone x.1 },
      pcie := { s.pcie with inb := s.pcie.inb.filter fun q => !q.parts.any fun x => gone x.1 } }

/-- The requests of a master that find a place are issued, at most `n` of them (R137, R305). -/
def State.pumpReqs (s : State) (m : Nat) : Nat → State
  | 0 => s
  | n + 1 => (s.pumpReq m).pumpReqs m n

/-- The fc after a master's reset begins: the places that its requests held are free (R313). -/
def State.dropsEnd (s : State) : State :=
  forAll (fun (m : MasterId) s => s.pumpReqs m.val 32)
    { s with mtx := { s.mtx with reqs := s.mtx.reqs.filter fun r => !r.gone } }

/-! The meanings -/

/-- MASTER_RESET (R313, R315): values 18–32 act. -/
def execMasterReset (m : MasterNum) (s : State) : Host.Outcome State Fault Refusal :=
  .next (if 18 ≤ m.toNat ∧ m.toNat ≤ 32 then s.masterReset m.toNat else s)

end Sys2Proof.Machine
end

