-- ==== Sys2Proof/Machine/Exceptions.lean ====
section
/-! DEFINITION. Taking an exception, interrupt or trap, and returning from one (R202–R221). -/

namespace Sys2Proof.Machine

/-! What a register takes -/

/-- SYS_CTL.LOCK (R402) and TE_CFG.SEGM, TE_MEMCTL.SEGCHK. -/
def State.locked (s : State) : Bool := s.rbit Reg.sysCtl 1
def State.segm (s : State) (e : EngId) : Bool := s.rbit (Reg.teCfg e) 8
def State.segchk (s : State) (e : EngId) : Bool := s.rbit (Reg.teMemctl e) 0

/-- PEND of ESTAT for a sync-class register, and back (R205). -/
def pendCode (k : Nat) : Nat := if k = sVBASE then 1 else if k = sEMUBASE then 2 else if k = sMPC then 3 else 4
def pendReg (c : Nat) : Nat := if c = 1 then sVBASE else if c = 2 then sEMUBASE else if c = 3 then sMPC else sUPC

/-- ECAUSE (R205). -/
def causeWord (nest : Bool) (pri num vec : Nat) : Word :=
  BitVec.ofNat 32 (b2n nest * 2 ^ 31 + pri % 8 * 2 ^ 16 + num % 256 * 2 ^ 8 + vec % 256)

/-- The context of the sequencer: a microroutine or dispatch, in emulation or call mode (R240). -/
def State.inSeq (s : State) (e : EngId) : Bool := (s.eng e).useq.run

/-- ESTAT at an entry (R205, R207). RPT is 1 before any iteration of a repeated group, its first one included: the return issues that
iteration, and the start-of-iteration test follows it. -/
def State.estat (s : State) (e : EngId) : Word :=
  let x := s.eng e
  let q := s.inSeq e
  let lpend := match x.owe with | some b => b | none => decide (x.dly = 0) && s.atLoopEnd e x.pc
  BitVec.ofNat 32 (b2n s.locked * 2 ^ 10 + b2n (s.segchk e) * 2 ^ 9 + b2n (s.segm e) * 2 ^ 8 + b2n q * 2 ^ 7 +
    (match x.pend with | some (k, _) => pendCode k | none => 0) * 2 ^ 4 +
    (if q then 0 else b2n (x.rep == 3 || x.rep == 1) * 2 ^ 3 + b2n lpend * 2 ^ 2 + x.dly % 4))

/-! Vector and handler -/

/-- The handler of vector `vec` is found at an address: its first line is requested from fc `t` on (R202, R213). -/
def State.startHandler (s : State) (e : EngId) (w : Word) (t : Nat) : State :=
  s.modEng e fun x =>
    { x.discard with pc := w &&& 0xFFFF_FFF0, tgt := 0, dly := 0, first := true, fetchAt := t, free := max x.free (t + 2),
                     vreq := none, vecRd := none, ahead := none }

/-- A vector word as read; through a wrapping descriptor it is free (R9, R199). -/
def State.vecWord (s : State) (e : EngId) (vec : Nat) (w : Word) : Word × State :=
  if s.wildSeg e (s.port e sVBASE + BitVec.ofNat 32 (4 * vec)) then s.drawWord else (w, s)

/-- The near-port read of a vector word meets a borrowed Vitrine (R133, R405): whether it must wait, with what the Curator then does. -/
def State.vecHeld (s : State) (e : EngId) (vec : Nat) : Bool × State :=
  let x := s.xlatNow e (s.port e sVBASE + BitVec.ofNat 32 (4 * vec)) 0 4 permR
  if x.2 = 0 && ownWindow e x.1 then s.vitrines x.1 4 false else (false, s)

/-- The vector word of `vec` is read as a load (R213): through the near port, the handler line then requested 3 fc later; through the far
port otherwise; and a read that faults halts the engine (R216). -/
def State.vectorRead (s : State) (e : EngId) (vec : Nat) : State :=
  let s := s.modEng e fun g => { g.discard with vecRd := none }
  let a := s.port e sVBASE + BitVec.ofNat 32 (4 * vec)
  let x := s.xlatNow e a 0 4 permR
  if x.2 ≠ 0 ∨ s.regionKey x.1 ≠ s.regionKey ((x.1 + 3) % 2 ^ 32) then s.halt e
  else if ownWindow e x.1 then
    let r := (s.claimNear e s.now).nearRead e x.1 4
    let w := r.2.2.vecWord e vec (wordOf r.2.1)
    if r.1 then r.2.2.halt e else w.2.startHandler e w.1 (s.now + 3)
  else
    let r := s.issueReq e.val
      { addr := BitVec.ofNat 32 x.1, kind := .read, len := 4, data := [], ordered := s.farOrdered e a, node := s.farNode e a }
    r.1.modEng e fun g => { g with vreq := some (r.2, vec, true) }

/-- The vector word of `vec` is to be read in model fc `t`. -/
def State.readVector (s : State) (e : EngId) (vec t : Nat) : State :=
  s.modEng e fun g => { g.discard with vecRd := some (t, vec), vreq := none }

/-- The vector word whose fc has come is read. -/
def State.vectorDue (s : State) (e : EngId) : State :=
  match (s.eng e).vecRd with
  | some (t, v) =>
    if s.live e && decide (t ≤ s.now) && s.nearFree e then
      let h := s.vecHeld e v
      if h.1 then h.2 else h.2.vectorRead e v
    else s
  | none => s

/-- The handler of a chained entry (R219): its line is requested 2 fc later where its word has been read in advance and has arrived by
then, else in the fc in which the word arrives. -/
def State.toHandler (s : State) (e : EngId) (vec : Nat) : State :=
  let x := s.eng e
  match x.ahead, x.vreq with
  | some (v, w, t), r =>
    if v = vec then s.startHandler e w (max (s.now + 2) t)
    else match r with
      | some (id, u, _) =>
        if u = vec then s.modEng e fun g => { g.discard with vreq := some (id, u, true) } else (s.readVector e vec s.now).vectorDue e
      | none => (s.readVector e vec s.now).vectorDue e
  | none, some (id, u, _) =>
    if u = vec then s.modEng e fun g => { g.discard with vreq := some (id, u, true) } else (s.readVector e vec s.now).vectorDue e
  | none, none => (s.readVector e vec s.now).vectorDue e

/-! Entries -/

/-- What an entry leaves behind of the interrupted code: nothing of a branch, repetition, hold or pending write (R205–R208). -/
def State.clearCode (s : State) (e : EngId) : State :=
  (((s.setPort e sRPTC 0).setPort e (sLPC 0) 0).setPort e (sLPC 1) 0).modEng e fun x =>
    { x.discard with tgt := 0, dly := 0, rep := 0, owe := none, pend := none, hold := none, sync := none, trap := none,
                     mcall := none, lwait := [], useq := { x.useq with run := false, intPt := false, fin := none } }

/-- The exception shadow receives RPTC and the loop registers (R208). -/
def State.saveShadow (s : State) (e : EngId) : State :=
  let s := s.setReg (Reg.teShrptc e) (s.port e sRPTC)
  (List.range 6).foldl (fun s i => s.setReg (Reg.teShlp e i) (s.port e (0x041 + i))) s

/-- The vector of the running handler, and that one runs (R220). -/
def State.setHandler (s : State) (e : EngId) (vec : Nat) : State :=
  (s.setFld (Reg.teExcstat e) 16 8 vec).orReg (Reg.teExcstat e) (bitW 0)

/-- An entry other than a nested one saves the state of R205 and R208, the sequencer's in set X (R242). ETGT without a pending
branch, EAUX without a pending write, and EPC in emulation are not stated: free values. -/
def State.saveState (s : State) (e : EngId) : State :=
  let x := s.eng e
  let q := s.inSeq e
  let s := if q then s.emuSave e 0 else s
  let s := s.setPort e sESTAT (s.estat e)
  let d1 := s.drawWord
  let s := d1.2.setPort e sEPC ((if q then d1.1 else x.pc) &&& 0xFFFF_FFF0)
  let d2 := s.drawWord
  let s := d2.2.setPort e sETGT ((if q || x.dly = 0 then d2.1 else x.tgt) &&& 0xFFFF_FFF0)
  let d3 := s.drawWord
  let s := d3.2.setPort e sEAUX (match x.pend with | some (_, v) => v | none => d3.1)
  s.saveShadow e

/-- TAKING AN ENTRY (R205–R216), the one shared operation. An entry in a handler is nested (R215), and a nested cause in a nested
handler halts the engine (R216). `vec` is the vector; `num` and `pri` go to ECAUSE. -/
def State.takeEntry (s : State) (e : EngId) (vec num pri : Nat) : State :=
  let s := if s.inSeq e then s else s.repTest e
  let t := s.now + 3
  if s.hnd e then
    -- the microroutine of a call that a handler made ends with it (R222)
    let s := if s.inSeq e && s.call e then s.clrReg (Reg.teEmustat e) 2 else s
    if s.rbit (Reg.teExcstat e) 1 then (s.clearCode e).halt e
    else
      let d := s.drawWord
      let at' := if s.inSeq e then d.1 &&& 0xFFFF_FFF0 else (s.eng e).pc
      let s := if s.inSeq e then d.2 else s
      let s := s.setReg (Reg.teNestcause e) (s.port e sECAUSE)
      let s := s.setPort e sECAUSE (causeWord true pri num vec)
      let s := (s.setReg (Reg.teNestpc e) at').orReg (Reg.teExcstat e) (bitW 1)
      let s := s.log 0x19 e.val vec at'
      (((s.clearCode e).setHandler e vec).readVector e vec t).perf e 0x11 1
  else
    let sync := (s.eng e).hold == some .sync
    let s := (s.saveState e).setPort e sECAUSE (causeWord false pri num vec)
    ((((s.clearCode e).setHandler e vec).modEng e fun x => { x with syncOwed := sync }).readVector e vec t).perf e 0x11 1

/-- An asynchronous exception leaves the waiting ones (R203). -/
def State.takeAsync (s : State) (e : EngId) (n : Nat) : State :=
  (s.clrReg (Reg.teApend e) (bitW n)).modEng e fun x => { x with apend := x.apend.filter (·.1 != n) }

/-- The waiting asynchronous exception of lowest number whose time has come: with `d` = 4 for a boundary, with 3 for arbitration one fc
before; in a handler the Watchdog only unless `all` (R192, R212–R214). -/
def State.asyncReady (s : State) (e : EngId) (d : Nat) (all : Bool) : Option Nat :=
  ((List.range 16).find? fun n =>
    (s.eng e).apend.any (fun p => p.1 == n && decide (p.2 + d ≤ s.now + 4)) && (all || !s.hnd e || n == 11))

/-- The THR that inputs are tested against: the running frame's, or with `resume` that of the frame that would resume (R211,
R219). -/
def State.inputThr (s : State) (e : EngId) (resume : Bool) : Option Nat :=
  match (s.frames e).run with
  | some f => some f.thr
  | none => if resume then (s.frames e).q.head?.map (·.thr) else none

/-- Of some inputs the one of highest priority, then of lowest number (R212). -/
def State.bestInput (s : State) (e : EngId) : List Nat → Option Nat
  | [] => none
  | i :: is =>
    match s.bestInput e is with
    | none => some i
    | some j =>
      if s.inputPri e j < s.inputPri e i ∨ (s.inputPri e i = s.inputPri e j ∧ i < j) then some i else some j

/-- The best input that has been asserted for `d` fc and qualifies (R211–R213). -/
def State.inputReady (s : State) (e : EngId) (d : Nat) (resume : Bool) : Option Nat :=
  s.bestInput e (((s.eng e).inputs.filter fun p =>
    decide (p.2 + d ≤ s.now) && s.asserted e p.1 && s.qualifies e p.1 (s.inputThr e resume)).map (·.1))

/-- The entry of R212 at a boundary, beside the synchronous exception of the group there: in a handler the Watchdog only (R214); else the
chosen one, or an asynchronous exception or an input whose time has come. `sync` says that a synchronous exception stands between the two
kinds. -/
def State.boundaryEntry (s : State) (e : EngId) (sync : Bool) : Option Chosen :=
  if s.hnd e then (s.asyncReady e 4 false).map .async
  else
    match (s.eng e).chosen with
    | some (.async n) => some (.async n)
    | some (.input i) => if sync then none else some (.input i)
    | none =>
      match s.asyncReady e 4 false with
      | some n => some (.async n)
      | none => if sync then none else (s.inputReady e 4 false).map .input

/-- Device source number of an input (R205). -/
def State.inputSrc (s : State) (e : EngId) (i : Nat) : Nat := s.rfld (Reg.teIntrt e i) 0 8

/-- The vector of an entry (R202). -/
def Chosen.vec : Chosen → Nat
  | .async n => n
  | .input i => 32 + i

/-- An asynchronous exception or interrupt is taken: by `take` with its vector, NUM and PRI (R205). Another one that arbitration has chosen
stays chosen (R212). -/
def State.takeBy (s : State) (e : EngId) (c : Chosen) (take : State → Nat → Nat → Nat → State) : State :=
  let s := s.modEng e fun x => { x with chosen := if x.chosen = some c then none else x.chosen }
  match c with
  | .async n => take (s.takeAsync e n) n 0 0
  | .input i => take s (32 + i) (s.inputSrc e i) (s.inputPri e i)

/-- EXCEPTION_ENTRY: the entry that stands at the boundary, chosen under R212: TRAP of the group just issued or the microword just ended,
then asynchronous exceptions, then the synchronous exception of the group at the issue point, then interrupts. A frame that can start
goes first (R251). -/
def State.entry (s : State) (e : EngId) : State :=
  let x := s.eng e
  if !s.runs e || x.vecWait then s
  else
    match x.trap with
    | some (n, t) => if s.now < t || (!x.useq.run && x.inGroup s.now) then s else s.takeEntry e 160 n 0
    | none =>
      match (if s.boundary e && !s.frameDue e then s.boundaryEntry e x.sync.isSome else none) with
      | some c => s.takeBy e c fun s => s.takeEntry e
      | none =>
        match x.sync with
        | some c => if s.now < c.due then s else s.takeEntry e c.vec c.num 0
        | none => s

/-- An entry stands at the boundary, so that no group of the interrupted code issues (R213). -/
def State.entryDue (s : State) (e : EngId) : Bool :=
  let x := s.eng e
  x.trap.isSome || x.sync.isSome || (s.boundary e && (s.boundaryEntry e false).isSome)

/-! Reset entry -/

/-- The registers of an engine at reset entry (R109, R176, R179, R202, R204, R228): zero but for BANK, TEID and what the
addressing section gives. -/
def State.entryPorts (s : State) (e : EngId) : List (Nat × Word) :=
  let l := s.logical e
  let put (m : List (Nat × Word)) (p : Nat × Word) : List (Nat × Word) := mapSet (fun _ => 0) m p.1 p.2
  let tile := BitVec.ofNat 32 (0x2000_0000 + e.val * 0x10_0000)
  let im : Option ImgEngine := s.image.bind fun g => g.engines[l]?
  let segs : List (Nat × Word) :=
    [(keySeg 0 0, tile), (keySeg 0 1, 0x0007_FFFF), (keySeg 0 3, 0xF)] ++
    (match im with
     | none => []
     | some g => g.segs.flatMap fun d =>
       let b := match d.tile with
         | some t => match s.map[t] with
           | some p => BitVec.ofNat 32 (0x2000_0000 + p.val * 0x10_0000) + d.base
           | none => d.base
         | none => d.base
       [(keySeg d.idx 0, b), (keySeg d.idx 1, d.limit &&& 0x1FFF_FFFF), (keySeg d.idx 2, d.node &&& 0xFFF),
        (keySeg d.idx 3, d.w3 &&& 0x1F)])
  let vb := match im with | some g => g.vbase &&& 0xFFFF_F000 | none => 0
  let eb := match im with | some g => g.emubase &&& 0x7F | none => 1
  (segs ++ [(sBANK, BitVec.ofNat 32 (0x2000 + e.val * 0x10)), (sVBASE, vb), (sEMUBASE, eb),
            (sTEID, BitVec.ofNat 32 (e.val * 2 ^ 8 + l))]).foldl put []

/-- Reset entry, exception 0 (R204): nothing is saved; the engine runs background code from vector 0 with GIE = 0. What does not belong to
its programming state (its connectivity, its performance counters) stays. -/
def State.resetEntry (s : State) (e : EngId) : State :=
  let x := s.eng e
  let y : Engine := { Engine.zero with clocked := true, conn := x.conn, perf := x.perf, wrapped := x.wrapped, perf0 := x.perf0, perfW := x.perfW,
                                       perfHi := x.perfHi, ports := s.entryPorts e }
  ((s.setEng e y).clrReg (Reg.teIntctl e) (bitW 0)).readVector e 0 (s.now + 3)

/-! Return -/

/-- The kinds of field that the return refuses, as RF bits, and ESTAT with the values kept (R218). -/
def State.refusals (s : State) (e : EngId) : Word × Word :=
  let st := s.port e sESTAT
  let dly := fldOf st 0 2
  let pend := fldOf st 4 3
  let rsvd := decide (st.toNat / 2 ^ 11 ≠ 0) || dly == 3 || decide (5 ≤ pend)
  let mode := bitOf st 8 != s.segm e
  let lock := s.locked && (!bitOf st 10 || bitOf st 9 != s.segchk e)
  let st := st &&& 0x7FF
  let st := if dly = 3 then putFld st 0 2 0 else st
  let st := if 5 ≤ pend then putFld st 4 3 0 else st
  let st := putFld st 8 1 (b2n (s.segm e))
  let st := if lock then putFld (putFld st 10 1 1) 9 1 (b2n (s.segchk e)) else st
  (BitVec.ofNat 32 (b2n rsvd * 2 ^ 8 + b2n mode * 2 ^ 9 + b2n lock * 2 ^ 10), st)

/-- A chained entry (R219): EPC, ESTAT, ETGT, EAUX, the shadow and the bank stay, ECAUSE is written. -/
def State.chain (s : State) (e : EngId) (vec num pri : Nat) : State :=
  let s := (s.setPort e sECAUSE (causeWord false pri num vec)).clrReg (Reg.teExcstat e) (bitW 1)
  (((s.clearCode e).setHandler e vec).toHandler e vec).perf e 0x11 1

/-- Steps 4 to 8 of the return (R217), with ESTAT as accepted: what is restored and where the engine resumes. With EMU = 1 what ESTAT
and ETGT say of the group at EPC is not used (R205). A SYNC that was held at the entry is performed (R207, R226). -/
def State.resume (s : State) (e : EngId) (st : Word) : State :=
  let s := s.putBit (Reg.teMemctl e) 0 (bitOf st 9)
  let s := if bitOf st 10 then s.orReg Reg.sysCtl (bitW 1) else s
  let pend := fldOf st 4 3
  let emu := bitOf st 7
  let aux := s.port e sEAUX
  let s := if pend = 0 then s else s.setPort e (pendReg pend) (aux &&& syncMask (pendReg pend))
  let s := s.restoreLoops e (s.reg (Reg.teShrptc e) :: (List.range 6).map fun i => s.reg (Reg.teShlp e i))
  let s := s.clrReg (Reg.teExcstat e) 0x00FF_0003
  let dly := if emu then 0 else fldOf st 0 2
  let s := s.modEng e fun x =>
    { x.discard with
      pc := s.port e sEPC &&& 0xFFFF_FFF0, tgt := if dly = 0 then 0 else s.port e sETGT &&& 0xFFFF_FFF0, dly := dly,
      rep := if bitOf st 3 && !emu then 3 else 0, owe := if emu then none else some (bitOf st 2), hold := none, first := false,
      fetchAt := s.now + 1, ahead := none, vreq := none, retDly := true, syncOwed := false,
      useq := if x.syncOwed then { x.useq with dirty := false, old := [] } else x.useq }
  if emu then
    let s := s.emuRestore e 0 (s.now + 3) false
    if pend = 4 then s.setPort e sUPC (aux &&& 0xFFF) else s
  else s

/-- The entry that waits while a handler runs: an asynchronous exception, an input that was chosen before the handler's entry, or one that
qualifies against the context that would resume (R212, R219); with `d` = 3 from the fc of arbitration on, with 4 from the fc after it. -/
def State.waitingEntry (s : State) (e : EngId) (d : Nat) : Option Chosen :=
  match s.asyncReady e d true with
  | some n => some (.async n)
  | none =>
    match (s.eng e).chosen with
    | some c => some c
    | none => (s.inputReady e d true).map .input

/-- RETURN FROM EXCEPTION (R217): step 1 has been made by the caller (every store completed). An entry that waits is chained;
else ESTAT is checked, and the engine resumes. -/
def State.doReturn (s : State) (e : EngId) : State :=
  let s := (s.applyPend e).modEng e fun x => { x with hold := none }
  match s.waitingEntry e 3 with
  | some c => s.takeBy e c fun s => s.chain e
  | none =>
    let r := s.refusals e
    let s := s.orReg (Reg.teExcstat e) r.1
    let s := (List.range 3).foldl (fun s k =>
      if bitOf r.1 (8 + k) then s.log 0x1B e.val (2 ^ k) (s.port e sEPC) else s) s
    if r.1 ≠ 0 && s.rbit (Reg.teExcctl e) 0 then (s.setPort e sESTAT r.2).chain e 14 0 0
    else s.resume e r.2

/-- ctl.t:eret in a handler: the return at once where every store has completed, else once they have (R217). -/
def State.eret (s : State) (e : EngId) : State :=
  if s.storesDone e then s.doReturn e else s.modEng e fun x => { x with hold := some .eret }

/-- A move that names an undefined socket is counted and recorded (R119). -/
def State.undefined (s : State) (e : EngId) (a : Word) (n : Nat) (dst : Bool) (bus socket : Nat) : State :=
  let s := s.setReg (Reg.teUndef e) (satAdd (s.reg (Reg.teUndef e)) n)
  (s.setReg (Reg.teUndefpc e) a).setReg (Reg.teUndefinfo e)
    (BitVec.ofNat 32 (b2n dst * 2 ^ 15 + bus % 8 * 2 ^ 12 + socket % 4096))

/-- A trigger by itself that is an undefined operation (R119): counted, and with UNDEFTRAP exception 2. -/
def State.undefinedOp (s : State) (e : EngId) (socket : Nat) : State :=
  let s := s.undefined e (s.eng e).grp 1 true 0 socket
  if s.rbit (Reg.teCtl e) 0 then s.modEng e fun x => { x with sync := some ⟨2, 0, 0⟩ } else s

/-- ctl.t:eret by itself. -/
def State.eretOp (s : State) (e : EngId) : State :=
  if !s.runs e then s
  else if s.hnd e then (s.meetSpar e (window 13 + 0x11)).eret e
  else s.undefinedOp e (window 13 + 0x11)

/-- SYNC_COMPLETE: the last store of the engine has completed (R147, R146, R217). -/
def State.syncComplete (s : State) (e : EngId) : State :=
  if !s.runs e || !s.storesDone e then s
  else
    match (s.eng e).hold with
    | none => s
    | some .eret => s.doReturn e
    | some _ => s.syncDone e

/-- VECTOR_PREFETCH (R219): the vector word of a waiting entry is read in advance, after its arbitration, in an fc in which no group access
holds the near port, and again only if a different entry takes its place. The word is there 3 fc later, or with the answer to a far read. -/
def State.prefetchVector (s : State) (e : EngId) : State :=
  let g := s.eng e
  if !s.runs e || !s.hnd e || g.vecWait then s
  else
    match (s.waitingEntry e 4).map Chosen.vec with
    | none => s
    | some v =>
      let a := s.port e sVBASE + BitVec.ofNat 32 (4 * v)
      let x := s.xlatNow e a 0 4 permR
      if g.ahead.any (·.1 = v) || g.vreq.any (·.2.1 = v) || x.2 ≠ 0 || s.regionKey x.1 ≠ s.regionKey ((x.1 + 3) % 2 ^ 32) ||
         !s.nearFree e then s
      else if (s.vecHeld e v).1 then (s.vecHeld e v).2
      else if ownWindow e x.1 then
        let r := ((s.vecHeld e v).2.claimNear e s.now).nearRead e x.1 4
        let w := r.2.2.vecWord e v (wordOf r.2.1)
        if r.1 then r.2.2 else w.2.modEng e fun g => { g with ahead := some (v, w.1, s.now + 3) }
      else
        let r := s.issueReq e.val
          { addr := BitVec.ofNat 32 x.1, kind := .read, len := 4, data := [], ordered := s.farOrdered e a, node := s.farNode e a }
        r.1.modEng e fun g => { g with vreq := some (r.2, v, false), ahead := none }

/-! The meanings -/

/-- EXCEPTION_ENTRY (R213). -/
def execExceptionEntry (e : EngId) (s : State) : Host.Outcome State Fault Refusal := .next (s.entry e)
/-- CTL_ERET (R217). -/
def execCtlEret (e : EngId) (_t : Word) (s : State) : Host.Outcome State Fault Refusal := .next (s.eretOp e)
/-- SYNC_COMPLETE (R147). -/
def execSyncComplete (e : EngId) (s : State) : Host.Outcome State Fault Refusal := .next (s.syncComplete e)
/-- VECTOR_PREFETCH (R219). -/
def execVectorPrefetch (e : EngId) (s : State) : Host.Outcome State Fault Refusal := .next (s.prefetchVector e)

end Sys2Proof.Machine
end

