-- ==== Sys2Proof/Machine/Guard.lean ====
section
/-! DEFINITION. Dependability: the Curator (R403–R409), injections (R412), watchdogs (R413), the Error Log (R415, R417), encoder line
breaks (R369), ECC write-back (R296), and the SYS_CTL bits (R288, R402). -/

namespace Sys2Proof.Machine

/-! Vitrines (R403–R406) -/

/-- The system address of a Vitrine. -/
def vitAddr (i : Nat) : Nat :=
  if i < 2048 then 0x2000_0000 + i / 128 * 0x10_0000 + i % 128 * 4096 else 0x1000_0000 + (i - 2048) * 4096

/-- A Vitrine may be borrowed: its engine is present and it is not marked never-borrow (R404). -/
def State.borrowable (s : State) (i : Nat) : Bool :=
  (decide (2048 ≤ i) || s.present (Fin.ofNat 16 (i / 128))) && !s.rbit (Reg.curNb (i / 32)) (i % 32)

/-- The first borrowable Vitrine from an index on, among `n` places, with wrap. -/
def State.nextVit (s : State) (i : Nat) : Nat → Option Nat
  | 0 => none
  | n + 1 => let k := i % 6144; if s.borrowable k then some k else s.nextVit (k + 1) n

/-- The engine whose Tile Store holds a Vitrine runs a frame that defers borrows (R81, R404). -/
def State.borrowWaits (s : State) (i : Nat) : Bool :=
  decide (i < 2048) &&
  (match (s.frames (Fin.ofNat 16 (i / 128))).run with
   | some f => f.gdef
   | none => false)

/-- The Curator's clock runs: in Run and Hold (R408). -/
def State.curOn (s : State) : Bool := s.power == .run || s.power == .hold

/-- A borrow starts (R404). `found` is what its march test and its restore will find. -/
def State.borrowStart (s : State) (found : MarchResult) : State :=
  let gap := max 1 (s.reg Reg.curBint).toNat
  if !s.curOn || !s.rbit Reg.curCtl 1 || s.cur.borrow.isSome || decide (s.now < s.cur.endAt + gap) then s
  else
    match s.nextVit s.cur.pos 6144 with
    | none => s
    | some i =>
      if s.borrowWaits i then s
      else
        { (s.setReg Reg.curVit (BitVec.ofNat 32 (vitAddr i))).setFld Reg.curStat 0 2 1 with
          cur := { s.cur with borrow := some ⟨i, s.now, found, none⟩ } }

/-- The store of a Vitrine as log entries number it (R416). -/
def vitStore (i : Nat) : Nat := if i < 2048 then i / 128 else 0x20

/-- A march failure (R406). -/
def State.marchFail (s : State) (i off bit : Nat) : State :=
  let a := BitVec.ofNat 32 (vitAddr i + off)
  let s := if s.rbit Reg.curFinfo 31 then s.orReg Reg.curFinfo (bitW 30)
           else (s.setReg Reg.curFaddr a).setReg Reg.curFinfo
             (bitW 31 ||| (s.reg Reg.curFinfo &&& bitW 30) ||| BitVec.ofNat 32 (bit % 1024))
  ((s.incReg Reg.curMfailcnt).orReg Reg.curStat (bitW 8)).log 0x03 (vitStore i) (bit % 1024) a

/-- A shadow unit is restored as uncorrectable (R406); its entry names the Curator's shadow, unit 0x23 (R416). -/
def State.shadowLost (s : State) (i off : Nat) : State :=
  let a := s.unitOf 8 (vitAddr i + off)
  let s := { s with ecc := { s.ecc with bad := if s.ecc.bad.contains a then s.ecc.bad else s.ecc.bad ++ [a] } }
  (s.orReg Reg.curStat (bitW 10)).log 0x04 0x23 0 (BitVec.ofNat 32 a)

/-- The march reads of a borrow that differ (R406): those made before an access ended the test. -/
def Borrow.fails (b : Borrow) : List MarchFail :=
  match b.cut with
  | some c => b.found.fails.filter fun f => decide (b.start + 32 + f.at'.toNat < c)
  | none => b.found.fails

/-- An injected failure at bit 0 of the first unit is reported by the next test that ends by itself (R412). DESIGN CHOICE (log 128): a test
that an access ends reports none, and the injection waits on. -/
def State.marchInjected (s : State) (b : Borrow) : State :=
  if s.cur.injM && b.cut.isNone then { s with cur := { s.cur with injM := false } }.marchFail b.idx 0 0 else s

/-- A borrow ends with its restore, and its findings are recorded (R406). The next one is counted from here. -/
def State.borrowEnd (s : State) (b : Borrow) : State :=
  let s := b.found.shadow.foldl (fun s o => s.shadowLost b.idx o.toNat) s
  let s := b.fails.foldl (fun s f => s.marchFail b.idx (f.off.toNat / 8 * 8) f.bit.toNat) (s.marchInjected b)
  { s.setFld Reg.curStat 0 2 0 with cur := { s.cur with borrow := none, pos := b.idx + 1, endAt := s.now } }

/-- In the last fc of a restore that an access has brought about, the abandoned borrow is counted (R405). -/
def State.borrowCount (s : State) (b : Borrow) : State :=
  if b.cut.any fun c => c + 31 == s.now then (s.incReg Reg.curAbortcnt).orReg Reg.curStat (bitW 9) else s

/-- The borrow in progress as the present fc shows it (R404). -/
def State.borrowTick (s : State) : State :=
  match s.cur.borrow with
  | none => s
  | some b =>
    let k := b.state s.now
    if k = 0 then s.borrowEnd b else (s.borrowCount b).setFld Reg.curStat 0 2 k

/-- The Curator is made to restore a borrowed Vitrine (R408): in COPY there is nothing to restore. -/
def State.borrowRecall (s : State) : State :=
  match s.cur.borrow with
  | none => s
  | some b =>
    match b.state s.now with
    | 1 => s.borrowAbandon
    | 2 => if b.cut.isSome then s
           else
             let k := b.start + 32 + 16 * ((s.now - (b.start + 32)) / 16 + 1)
             { s with cur := { s.cur with borrow := some { b with cut := some k } } }
    | _ => s

/-- A write of CUR_NBw (R408): bits are set at once, and cleared only while LOCK = 0; a Vitrine newly marked is given back. -/
def State.neverBorrow (s : State) (w : Nat) (v : Word) : State :=
  let old := s.reg (Reg.curNb w)
  let new := if s.rbit Reg.sysCtl 1 then old ||| v else v
  let s := s.setReg (Reg.curNb w) new
  match s.cur.borrow with
  | some b => if b.idx / 32 = w ∧ bitOf (new &&& ~~~old) (b.idx % 32) then s.borrowRecall else s
  | none => s

/-! Scrubbing (R407) -/

/-- The stores that the scrub reads, in ascending address order (R403). -/
def State.scrubRegions (s : State) : List (Nat × Nat) :=
  let es := (List.finRange 16).filter fun e => s.present e
  [(0x1000_0000, 0x1100_0000)] ++ (es.map fun e => (tileAddr e 0, tileAddr e 0x8_0000)) ++
  [(0x3000_0000, 0x3004_0000), (0x3800_0000, 0x3804_0000)] ++
  (es.map fun e => (0x5100_6000 + e.val * 0x1_0000, 0x5101_0000 + e.val * 0x1_0000))

/-- The first row at or after an address; none past the last store. -/
def State.scrubRow (s : State) (a : Nat) : Option Nat :=
  (s.scrubRegions.find? fun r => decide (a < r.2)).map fun r => max a r.1

/-- The scrub reads one row of 1,024 bits (R407), every ECC unit of it, as master 16, in an fc in which no port accesses that bank. -/
def State.scrub (s : State) : State :=
  if !s.curOn || !s.rbit Reg.curCtl 0 || decide (s.now < s.cur.scrubAt + max 8 (s.reg Reg.curScrubdiv).toNat) then s
  else
    match s.scrubRow s.cur.scrub with
    | none => s
    | some a =>
      if s.bankBusy a then s
      else
      let u := match s.storeOf a with | some (_, u) => u | none => 8
      let s := (List.range (128 / u)).foldl (fun s k => (s.eccRead 16 (a + k * u) u).2) s
      let next := a + 128
      let s := { s with cur := { s.cur with scrub := next, scrubAt := s.now } }
      if (s.scrubRow next).isNone then
        { (s.incReg Reg.curPasscnt).orReg Reg.curStat (bitW 11) with cur := { s.cur with scrub := 0 } }
      else s

/-! Watchdogs (R413) -/

/-- The watchdog of an engine reloads: TE_WDLOAD, 0 acts as 1. -/
def State.wdReload (s : State) (e : EngId) : State :=
  (s.setReg (Reg.teWdcnt e) (if s.reg (Reg.teWdload e) = 0 then 1 else s.reg (Reg.teWdload e))).modEng e fun x =>
    { x with wdgDue := none }

/-- The watchdog is to expire. -/
def State.wdDue (s : State) (e : EngId) : Bool :=
  s.live e && ((match (s.eng e).wdgDue with | some t => decide (t ≤ s.now) | none => false) || (s.rbit (Reg.teWdctl e) 0 && s.reg (Reg.teWdcnt e) == 0 && !s.rbit (Reg.teWdctl e) 2))

/-- An expiry acts according to STAGE. -/
def State.wdExpire (s : State) (e : EngId) : State :=
  if !s.wdDue e then s
  else
    let second := s.rbit (Reg.teWdctl e) 2
    let s := (s.modEng e fun x => { x with wdgDue := none }).log 0x18 e.val (b2n second) (s.eng e).pc
    if second then
      let s := s.halt e
      if s.rbit (Reg.teWdctl e) 1 then s.groupsSafe (s.rfld (Reg.teWdctl e) 8 8) else s
    else ((s.orReg (Reg.teWdctl e) (bitW 2)).wdReload e).raise e 11

/-- A kick: an expiry of the same fc acts first; then the count reloads and STAGE is 0. -/
def State.wdKick (s : State) (e : EngId) : State := ((s.wdExpire e).wdReload e).clrReg (Reg.teWdctl e) (bitW 2)

/-- A write of TE_WDCTL: EN is not cleared under LOCK, and an enable loads the count. -/
def State.wdControl (s : State) (e : EngId) (v : Word) : State :=
  let on := s.rbit (Reg.teWdctl e) 0
  let en := bitOf v 0 || (on && s.rbit Reg.sysCtl 1)
  let s := s.setReg (Reg.teWdctl e) ((v &&& 0xFF02) ||| (s.reg (Reg.teWdctl e) &&& 4) ||| boolW en)
  if en && !on then s.wdReload e else s

/-! The Error Log (R415, R417) -/

def State.errCount (s : State) : Nat := s.rfld Reg.errStat 0 7
def State.errHead (s : State) : Nat := s.rfld Reg.errStat 16 6

/-- The four words of an entry (R415). -/
def LogEntry.words (x : LogEntry) : List Word := [loW x.t, hiW x.t, x.w2, x.w3]

/-- An entry is written at a ring place. -/
def State.errPut (s : State) (k : Nat) (x : LogEntry) : State :=
  ((List.range 4).zip x.words).foldl (fun s p => s.setReg (Reg.errEnt (k % 64) p.1) p.2) s

/-- The log takes the first entry of the input buffer, one in an fc; the entries of the present fc enter it after this. -/
def State.errAccept (s : State) : State :=
  match (if s.logAt = some s.now then [] else s.logq) with
  | [] => s
  | x :: xs =>
    let s := { s with logq := xs, logAt := some s.now }
    let n := s.errCount
    if n < 64 then ((s.errPut (s.errHead + n) x).setFld Reg.errStat 0 7 (n + 1)).orReg Reg.errStat (bitW 8)
    else if s.rbit Reg.errCtl 0 then
      (((s.errPut s.errHead x).setFld Reg.errStat 16 6 (s.errHead + 1)).orReg Reg.errStat (bitW 8)).logLost
    else s.logLost

/-- The oldest entry is removed. -/
def State.errPop (s : State) : State :=
  if s.errCount = 0 then s
  else (s.setFld Reg.errStat 16 6 (s.errHead + 1)).setFld Reg.errStat 0 7 (s.errCount - 1)

/-- A word of the oldest entry; zero in an empty log. -/
def State.errOld (s : State) (w : Nat) : Word := if s.errCount = 0 then 0 else s.reg (Reg.errEnt s.errHead w)

/-! Line breaks (R369) and injections (R412) -/

/-- A receiver reports a line break, which lasts for the next `n` fc. -/
def State.lineBreak (s : State) (r : RcvId) (n : Nat) : State :=
  ({ s with brk := s.brk.set r.val (max s.brk[r] (s.now + n)) r.isLt }.orReg Reg.encBrk (bitW r.val)).log 0x0A r.val 0 0

/-- ENC_BRK bits written 1 clear, and set again while the break lasts. -/
def State.brkClear (s : State) (v : Word) : State :=
  let s := s.clrReg Reg.encBrk (v &&& 0xFF_FFFF)
  forAll (fun (r : RcvId) s => if s.now < s.brk[r] then s.orReg Reg.encBrk (bitW r.val) else s) s

/-- A waiting ECC injection for a store (R412). -/
def State.injectCe (s : State) (store : Nat) : State := { s with ecc := { s.ecc with injCe := s.ecc.injCe ++ [store] } }
def State.injectUe (s : State) (store : Nat) : State := { s with ecc := { s.ecc with injUe := s.ecc.injUe ++ [store] } }

/-- The store that SYS_INJ.STORE names; 0b11 injects nothing. -/
def sysStore (k : Nat) : Option Nat := if k < 3 then some (0x20 + k) else none

/-- The store that TE_INJ names. -/
def teStore (e : EngId) (emu : Bool) : Nat := if emu then 0x10 + e.val else e.val

/-- An injected line break: it lasts ENC_BRKT fc. -/
def State.injectBrk (s : State) (r : RcvId) : State :=
  s.lineBreak r (s.reg Reg.encBrkt).toNat

/-! SYS_CTL (R288, R402) -/

/-- REMAP is written, unless LOCK stands. -/
def State.remapWrite (s : State) (on : Bool) : State := if s.rbit Reg.sysCtl 1 then s else s.putBit Reg.sysCtl 0 on

/-! The meanings -/

/-- VITRINE_BORROW (R404). -/
def execVitrineBorrow (fail : MarchResult) (s : State) : Host.Outcome State Fault Refusal := .next (s.borrowStart fail)
/-- SCRUB_READ (R407). -/
def execScrubRead (s : State) : Host.Outcome State Fault Refusal := .next s.scrub
/-- NEVER_BORROW_MARK (R408). -/
def execNeverBorrowMark (w : NbWord) (value : Word) (s : State) : Host.Outcome State Fault Refusal :=
  .next (s.neverBorrow w.val value)
/-- CUR_INJ_MFAIL (R412). -/
def execCurInjMfail (s : State) : Host.Outcome State Fault Refusal := .next { s with cur := { s.cur with injM := true } }
/-- TE_INJ_CE (R412). -/
def execTeInjCe (e : EngId) (emu : Bool) (s : State) : Host.Outcome State Fault Refusal :=
  .next (if s.present e then s.injectCe (teStore e emu) else s)
/-- TE_INJ_UE (R412). -/
def execTeInjUe (e : EngId) (emu : Bool) (s : State) : Host.Outcome State Fault Refusal :=
  .next (if s.present e then s.injectUe (teStore e emu) else s)
/-- TE_INJ_SPAR (R412). -/
def execTeInjSpar (e : EngId) (s : State) : Host.Outcome State Fault Refusal :=
  .next (if s.present e then s.modEng e fun x => { x with injSpar := true } else s)
/-- TE_INJ_BPAR (R412). -/
def execTeInjBpar (e : EngId) (bus : BaseId) (s : State) : Host.Outcome State Fault Refusal :=
  .next (if s.present e then s.modEng e fun x => { x with injBpar := some bus } else s)
/-- TE_INJ_WDG (R412): the watchdog expires at the next fc. -/
def execTeInjWdg (e : EngId) (s : State) : Host.Outcome State Fault Refusal :=
  .next (if s.present e && (s.eng e).wdgDue.isNone then s.modEng e fun x => { x with wdgDue := some (s.now + 1) } else s)
/-- SYS_INJ_CE (R412). -/
def execSysInjCe (store : StoreSel) (s : State) : Host.Outcome State Fault Refusal :=
  .next (match sysStore store.toNat with | some k => s.injectCe k | none => s)
/-- SYS_INJ_UE (R412). -/
def execSysInjUe (store : StoreSel) (s : State) : Host.Outcome State Fault Refusal :=
  .next (match sysStore store.toNat with | some k => s.injectUe k | none => s)
/-- PWR_INJ_THW (R412): the detector reports from its next sample on. -/
def execPwrInjThw (on : Bool) (s : State) : Host.Outcome State Fault Refusal := .next (s.putBit Reg.pwrInj 1 on)
/-- PWR_INJ_WARN (R412): the Barometer reports from its next sample on. -/
def execPwrInjWarn (on : Bool) (s : State) : Host.Outcome State Fault Refusal := .next (s.putBit Reg.pwrInj 0 on)
/-- GPIO_INJ_BRK (R412). -/
def execGpioInjBrk (r : RcvId) (s : State) : Host.Outcome State Fault Refusal := .next (s.injectBrk r)
/-- LINE_BREAK (R369). -/
def execLineBreak (found : LongBreak) (s : State) : Host.Outcome State Fault Refusal := .next (s.lineBreak found.r found.lasts)
/-- WATCHDOG_EXPIRY (R413). -/
def execWatchdogExpiry (e : EngId) (s : State) : Host.Outcome State Fault Refusal := .next (s.wdExpire e)
/-- WATCHDOG_KICK (R413). -/
def execWatchdogKick (e : EngId) (s : State) : Host.Outcome State Fault Refusal :=
  .next (if s.present e then s.wdKick e else s)
/-- ERROR_LOG_ACCEPT (R415). -/
def execErrorLogAccept (s : State) : Host.Outcome State Fault Refusal := .next s.errAccept
/-- ERROR_LOG_POP (R417). -/
def execErrorLogPop (s : State) : Host.Outcome State Fault Refusal := .next s.errPop
/-- ECC_WRITEBACK (R296): a corrected unit is written back in an fc after its correction in which no port has accessed its bank. -/
def execEccWriteback (unit : Word) (s : State) : Host.Outcome State Fault Refusal :=
  .next (if s.bankBusy unit.toNat then s
    else { s with ecc := { s.ecc with wb := s.ecc.wb.filter fun p => !(p.1 == unit.toNat && decide (p.2 < s.now)) } })
/-- REMAP_WRITE (R288). -/
def execRemapWrite (remap : Bool) (s : State) : Host.Outcome State Fault Refusal := .next (s.remapWrite remap)
/-- LOCK_SET (R402). -/
def execLockSet (s : State) : Host.Outcome State Fault Refusal := .next (s.orReg Reg.sysCtl (bitW 1))

end Sys2Proof.Machine
end

