-- ==== Sys2Proof/Machine/Power.lean ====
section
/-! DEFINITION. Power states (R15–R21), what each of them keeps (R16, R22, R298), the clears of R299, the entry to Fallback (R400), and
the supply, temperature and reference monitors (R433–R440). -/

namespace Sys2Proof.Machine

/-! What is kept -/

/-- Registers of the always-on domain (R16, R402): the PWR and ERR blocks, SYS_BOOTCAUSE and SYS_BOOTPREF. SYS_BOOTST.FSCNT is kept
apart. GPIO_IN holds levels that come from outside. -/
def alwaysOnReg (a : Nat) : Bool :=
  a / 0x1_0000 == 0x5001 || a / 0x1_0000 == 0x5008 || a == Reg.sysBootcause || a == Reg.sysBootpref ||
  (List.range 4).any fun g => a == Reg.gpioIn g

/-- The frame descriptors, which are Program class (R89, R298). -/
def frameReg (a : Nat) : Bool := decide (Reg.almFd 0 0 ≤ a) && decide (a < Reg.almFd 1024 0)

/-- Registers held through Retain: the always-on domain, the frame descriptors, the structural settings (R22, R301, R314), the never-borrow map that the
start-up sequence writes (R409), and SYS_CTL and SYS_BOOTST, which only the start-up sequence clears (R288, R398, R402). -/
def heldReg (a : Nat) : Bool :=
  alwaysOnReg a || frameReg a || a == Reg.sysCtl || a == Reg.sysBootst || (decide (Reg.sysMsclassLo ≤ a) && decide (a ≤ Reg.sysTsclassHi)) ||
  (decide (Reg.mtxSliceLo 0 ≤ a) && decide (a ≤ Reg.mtxSliceHi 32)) || (decide (Reg.curNb 0 ≤ a) && decide (a ≤ Reg.curNb 191)) ||
  (List.range 16).any fun n => a == Reg.teCfg n

/-- Every block in its reset state and every register that `keep` does not pick at its reset value; memory, time, pins, the Error
Log's buffer and the always-on domain stay, and what came from outside. -/
def State.blank (s : State) (keep : Nat → Bool) : State :=
  { State.reset with
    now := s.now, tb := s.tb, mem := s.mem, cat := s.cat, volts := s.volts, csr := mapDrop (fun a => !keep a) s.csr, ecc := { s.ecc with injCe := [], injUe := [] },
    power := s.power, request := s.request, pins := s.pins, logq := s.logq, logn := s.logn, logAt := s.logAt, mtx := { State.reset.mtx with next := s.mtx.next },
    uart := s.uart.map fun u => ⟨[], [], false, u.cts, none⟩, boot := s.boot, supply := s.supply, tap := s.tap, flash := s.flash,
    engmask := s.engmask, map := s.map, image := s.image, released := s.released, rdata := s.rdata, free := s.free,
    pending := s.pending }

/-- PWR_STAT after a change of power state: no request waits. -/
def State.noRequest (s : State) : State := { s with request := none }.clrReg Reg.pwrStat (bitW 3)

/-- Every master and every engine stops, every register outside the always-on domain takes its reset value, and every pin its reset
state (R385, R435, R450, R452). -/
def State.stopDevice (s : State) : State :=
  let fs := s.rfld Reg.sysBootst 0 2
  let s := (s.blank alwaysOnReg).noRequest
  let s := { s with
    power := .stopped, volts := 0, pins := Vector.replicate 64 Pin.zero, map := Vector.replicate 16 none, image := none, released := false,
    boot := { Boot.zero with straps := s.boot.straps, due := s.boot.due, low := s.boot.low, unconf := s.boot.unconf, fall := s.boot.fall,
                             later := s.boot.later },
    supply := { s.supply with stopped := false, hot := 0, wakeDue := none } }
  (s.setReg Reg.sysBootst (BitVec.ofNat 32 fs)).setFld Reg.pwrStat 0 2 0

/-! Clears (R299) -/

/-- A byte of a store lies in a Data-class bank (R298, R301). -/
def State.dataKey (s : State) (k : Nat) : Bool :=
  if 0x1000_0000 ≤ k ∧ k < 0x1100_0000 then
    let b := (k - 0x1000_0000) / 0x4_0000
    !(if b < 32 then s.rbit Reg.sysMsclassLo b else s.rbit Reg.sysMsclassHi (b - 32))
  else if 0x2000_0000 ≤ k ∧ k < 0x2100_0000 then
    let b := 4 * ((k - 0x2000_0000) / 0x10_0000) + k % 0x8_0000 / 0x2_0000
    !(if b < 32 then s.rbit Reg.sysTsclassLo b else s.rbit Reg.sysTsclassHi (b - 32))
  else false

/-- The Boot ROM area of TE0 (R392). -/
def bootArea (k : Nat) : Bool := decide (0x2007_C000 ≤ k) && decide (k < 0x2008_0000)

/-- A Main Store bank is Data class. -/
def State.mainData (s : State) : Bool := !(s.reg Reg.sysMsclassLo == 0xFFFF_FFFF && s.reg Reg.sysMsclassHi == 0xFFFF_FFFF)

/-- A clear of the bytes that `p` picks, with valid check bits; SYS_CLRSTAT records its kind and whether Main Store banks took part. -/
def State.clearBanks (s : State) (p : Nat → Bool) (last : Nat) (ms : Bool) : State :=
  let s := s.clearMem p
  { s with ecc := { s.ecc with bad := s.ecc.bad.filter (fun k => !p k), wb := s.ecc.wb.filter (fun k => !p k.1) } }.setReg Reg.sysClrstat
    (BitVec.ofNat 32 (last * 2 ^ 16 + b2n ms))

/-! The start-up sequence begins (R384, R385, R392, R398, R400) -/

/-- TE0 runs the Boot ROM with its clock (R14), in segmented mode under the descriptors of R392. -/
def State.romEngine (s : State) : State :=
  let s := ((s.modEng 0 fun x => { x with clocked := true }).setReg (Reg.teCfg 0) 0x100).orReg (Reg.teMemctl 0) 1
  let s := (s.setPort 0 (keySeg 0 1) 0x0003_FFFF).setPort 0 (keySeg 0 3) 0x1B
  let s := ((s.setPort 0 (keySeg 1 0) 0x2000_0000).setPort 0 (keySeg 1 1) 0x0007_FFFF).setPort 0 (keySeg 1 3) 0x17
  (s.setPort 0 (keySeg 2 1) 0x1FFF_FFFF).setPort 0 (keySeg 2 3) 0x17

/-- The Boot ROM stops TE0 (R398): its clock, and the descriptors and the check that the Boot ROM had set; `chk` is the check that the image
gives TE0. -/
def State.romStop (s : State) (chk : Bool) : State :=
  let s := (List.range 12).foldl (fun s k => s.setPort 0 (keySeg (k / 4) (k % 4)) 0) s
  ((s.modEng 0 fun x => { x with clocked := false }).putBit (Reg.teMemctl 0) 0 chk).setReg (Reg.teCfg 0) 0

/-- SYS_BOOTST.PHASE and SRC. -/
def State.bootPhase (s : State) (phase src : Nat) : State := (s.setFld Reg.sysBootst 4 4 phase).setFld Reg.sysBootst 2 2 src

/-- Fallback (R400): TE0 runs the monitor; UART0 and the PCIe link serve. SYS_BOOTCAUSE keeps ORIGIN, SLOT and SRC. -/
def State.fallback (s : State) : State :=
  let s := s.romEngine
  let s := ((s.setFld Reg.sysBootcause 0 8 0x20).setFld Reg.sysBootcause 24 8 0).orReg Reg.sysBootcause (bitW 15)
  let s := s.setFld Reg.sysBootst 4 4 6
  let s := ((s.setReg (Reg.uartDiv 0) 54).setReg (Reg.uartCtl 0) 1).orReg Reg.pcieCtl 1
  { s.setReg (Reg.pcieWin 0) 0x10 with power := .run, boot := { s.boot with due := none, later := none, unconf := false } }

/-- The count of failed starts, one more (R395). -/
def State.failedStart (s : State) : State := s.setFld Reg.sysBootst 0 2 (min 3 (s.rfld Reg.sysBootst 0 2 + 1))

/-- A sequence begins (R385, R394, R395): everything stops, a start that has not been confirmed counts as failed where its end says so,
and every bank is cleared. At FSCNT 3 the device enters Fallback; else the Boot ROM starts on TE0 and looks for its source with the next
command that says what the sources hold. Says whether it does. -/
def State.begin (s : State) (origin : Nat) : Bool × State :=
  let s := s.stopDevice
  let counts := s.boot.unconf && (origin == 1 || origin == 2 || origin == 4 || origin == 5)
  let s := if counts then s.failedStart else s
  let s := (s.clearBanks (fun _ => true) 2 true).setCatalogues 0
  if s.rfld Reg.sysBootst 0 2 = 3 then (false, s.fallback)
  else
    let s := s.setReg Reg.sysBootcause (BitVec.ofNat 32 (origin * 2 ^ 16))
    (true, { (s.romEngine).bootPhase 1 0 with power := .run, boot := { s.boot with due := none, later := none, unconf := true, seek := true } })

/-- A sequence begins unless RESET# is low, which holds it back (R452). -/
def State.beginDue (s : State) (origin : Nat) : State :=
  if s.boot.low then { s.stopDevice with boot := { s.stopDevice.boot with due := some origin } } else (s.begin origin).2

/-! Requests (R20, R21) -/

/-- The device is in Run or Hold, in which programs and the host reach PWR_CTL. -/
def State.awake (s : State) : Bool := s.power == .run || s.power == .hold

/-- A power-state request: it replaces a pending one, and a wake that came during the entry of that one goes with it (R18, R20). A
thermal stop admits none (R436). -/
def State.powerRequest (s : State) (r : Option PowerRequest) : State :=
  if !s.awake || s.supply.stopped then s
  else
    let s := { s with supply := { s.supply with wakeDue := none } }
    match r with
    | none => s.noRequest
    | some _ => { s with request := r }.orReg Reg.pwrStat (bitW 3)

/-- No operation of the engine is in flight (R136). -/
def State.tableEmpty (s : State) (e : EngId) : Bool := s.iftUsed e == 0

/-- Hold can be entered (R17): no frame runs, none waits at an engine that runs, and every in-flight table is empty. -/
def State.holdReady (s : State) : Bool :=
  s.request == some .hold && s.awake && (List.finRange 16).all fun e =>
    !(s.eng e).clocked ||
    ((s.frames e).run.isNone && s.tableEmpty e && (s.halted e || ((s.frames e).q.isEmpty && (s.frames e).transit.isEmpty)))

/-- HOLD_ENTRY (R17). -/
def State.enterHold (s : State) : State :=
  if s.holdReady then { s.noRequest with power := .hold, holdAt := s.now }.setFld Reg.pwrStat 0 2 1 else s

/-! Retain and Off (R18, R19) -/

/-- An event pin takes its safe state for Retain, or has none in Off (R18, R451). -/
def Pin.leave (off : Bool) (x : Pin) : Pin :=
  { x with q := [], lvl := if off then .z else x.safe, down := true, rbOwn := false, injRb := false, invRb := false }

/-- Structure that blocks hold (R22): the widths that LBP_STAT shows (R382), connectivity, and the owners of capture inputs. -/
def State.keepStructure (old s : State) : State :=
  let s := forAll (fun (p : PairId) s => s.setFld (Reg.lbpStat p) 16 2 (old.rfld (Reg.lbpStat p) 16 2)) s
  { s with engines := Vector.ofFn fun e => { Engine.zero with conn := old.engines[e].conn },
           caps := Vector.ofFn fun n => { Capture.zero with owner := old.caps[n].owner } }

/-- The CLK block (R445): it keeps the reference that is in use until the next wake or start. -/
def clkReg (a : Nat) : Bool := a / 0x1_0000 == 0x5002

/-- The power domains switch (R18): what Retain does not keep is lost, and in Off everything outside the always-on domain. -/
def State.switchOff (s : State) (off : Bool) : State :=
  let base := s.blank fun a => clkReg a || (if off then alwaysOnReg a else heldReg a)
  let s' := { base.noRequest with
    power := if off then .off else .retain, pins := s.pins.map (Pin.leave off),
    supply := { s.supply with warnAt := 0, run := none } }
  let s' := (s'.clrReg Reg.pwrBarstat (bitW 0)).setFld Reg.pwrStat 0 2 0
  if off then
    { s' with volts := 0, map := Vector.replicate 16 none, image := none, released := false,
              boot := { Boot.zero with straps := s.boot.straps, due := s.boot.due, low := s.boot.low, unconf := s.boot.unconf,
                                       fall := s.boot.fall } }.setReg Reg.sysBootst
      (BitVec.ofNat 32 (s.rfld Reg.sysBootst 0 2))
  else s.keepStructure s'

/-- The engines that the map names. -/
def State.mapped (s : State) (e : EngId) : Bool := s.map.any (· == some e)

/-- WAKE_FROM_RETAIN (R19): the Data class is cleared, the mapped engines take reset entry, and PWR_STAT records the wake. -/
def State.retainWake (s : State) (cause : Nat) : State :=
  let s := { s.resetRegs clkReg with power := .run, supply := { s.supply with wakeDue := none } }
  let s := s.clearBanks s.dataKey 1 s.mainData
  let s := ((s.setFld Reg.pwrStat 0 2 0).setFld Reg.pwrStat 4 2 2).setFld Reg.pwrStat 8 4 cause
  forAll (fun (e : EngId) s =>
    if s.present e && s.mapped e then (s.modEng e fun x => { x with clocked := true }).resetEntry e else s) s

/-- A wake source asserts (R18–R20): Hold and Retain end; from Off the start-up sequence with ORIGIN 0x4 is due; one that comes
during an entry waits for its end. -/
def State.wake (s : State) (cause : Nat) : State :=
  if s.tooHot then s
  else
    match s.power with
    | .hold => if s.leaving then { s with supply := { s.supply with wakeDue := some cause } } else s.wakeHold cause
    | .run => if s.leaving then { s with supply := { s.supply with wakeDue := some cause } } else s
    | .retain => s.retainWake cause
    | .off =>
      { (s.setFld Reg.pwrStat 4 2 3).setFld Reg.pwrStat 8 4 cause with
        supply := { s.supply with wakeDue := none, stopped := false } }.beginDue 4
    | .stopped => s

/-- RETAIN_OFF_ENTRY (R18): once every in-flight table is empty. A borrowed Vitrine is restored first, and the entry comes again once the
restore has ended (R408). A wake source that has asserted in the meantime wakes at once. -/
def State.enterRetainOff (s : State) : State :=
  if !s.awake || !s.leaving || !((List.finRange 16).all fun e => s.tableEmpty e) then s
  else if s.borrowRecall.cur.borrow.isSome then s.borrowRecall
  else
    let s := s.borrowRecall.switchOff (s.request == some .off)
    match s.supply.wakeDue with
    | some c => { s with supply := { s.supply with wakeDue := none } }.wake c
    | none => s

/-! The Barometer (R433, R434) -/

/-- PWR_BARCTL.LEVEL in its limits. -/
def State.warnLevel (s : State) : Nat := min 26000 (max 4200 (s.rfld Reg.pwrBarctl 16 16))

/-- A power exception is raised at every present engine whose TE_EXCCTL bit is set (R203). -/
def State.powerExc (s : State) (bit n : Nat) : State :=
  forAll (fun (e : EngId) s => if s.present e && s.rbit (Reg.teExcctl e) bit then s.raise e n else s) s

/-- BAROMETER_WARN (R434). -/
def State.baroWarn (s : State) (mv : Nat) : State :=
  let s := (s.orReg Reg.pwrBarstat (bitW 0 ||| bitW 8)).setReg Reg.pwrVinmin (BitVec.ofNat 32 mv)
  { (s.log 0x30 0 mv 0).powerExc 1 13 with supply := { s.supply with warnAt := s.now, run := none } }

/-- BAROMETER_SAMPLE (R433, R434), with readings in steps of 8 mV; PWR_INJ.WARN reports VIN below the level. -/
def State.baroSample (s : State) (vin vcore : Half) : State :=
  let mv := vin.toNat / 8 * 8
  let s := s.setReg Reg.pwrVin (BitVec.ofNat 32 (vcore.toNat / 8 * 8 * 2 ^ 16 + mv))
  if !s.awake then s
  else
    let inj := s.rbit Reg.pwrInj 0
    let lvl := s.warnLevel
    if !s.rbit Reg.pwrBarstat 0 then (if mv < lvl ∨ inj then s.baroWarn mv else s)
    else
      let s := if mv < s.rfld Reg.pwrVinmin 0 16 then s.setReg Reg.pwrVinmin (BitVec.ofNat 32 mv) else s
      let run := if inj ∨ mv < lvl + 200 then none else (match s.supply.run with | some t => some t | none => some s.now)
      { s with supply := { s.supply with run := run } }

/-- BAROMETER_RECOVER (R434): a run has held for 50 µs. -/
def State.baroRecover (s : State) : State :=
  match s.supply.run with
  | none => s
  | some t =>
    if !s.awake || !s.rbit Reg.pwrBarstat 0 || decide (s.now < t + 50000) then s
    else
      let s := (s.clrReg Reg.pwrBarstat (bitW 0)).orReg Reg.pwrBarstat (bitW 9)
      { s.log 0x31 0 (s.rfld Reg.pwrVinmin 0 16) (BitVec.ofNat 32 ((s.now - s.supply.warnAt) / 1000)) with
        supply := { s.supply with run := none } }

/-! Temperature (R436) -/

/-- THERMAL_STOP: pending requests are cancelled, and the device goes to Off through R18. -/
def State.thermalStop (s : State) : State :=
  let s := (s.orReg Reg.pwrTstat (bitW 10)).noRequest
  let s := { s with supply := { s.supply with stopped := true } }
  match s.power with
  | .run => { s with request := some .off }
  | .hold => { s with request := some .off }
  | .retain => s.switchOff true
  | _ => s

/-- THERMAL_SAMPLE: the highest junction sensor in 0.25 °C; PWR_INJ.THW reports a warning. -/
def State.thermal (s : State) (temp : Half) : State :=
  let s := s.setReg Reg.pwrTemp (temp.setWidth 32)
  let inj := s.rbit Reg.pwrInj 1
  let t := temp.toInt
  let s :=
    if s.rbit Reg.pwrTstat 0 then
      (if t < 480 ∧ !inj then (s.clrReg Reg.pwrTstat (bitW 0)).orReg Reg.pwrTstat (bitW 9) else s)
    else if 500 ≤ t ∨ inj then
      ((s.orReg Reg.pwrTstat (bitW 0 ||| bitW 8)).log 0x32 0 (Int.fdiv t 4 % 65536).toNat 0).powerExc 2 15
    else s
  let hot := if 540 ≤ t then s.supply.hot + 1 else 0
  let s := { s with supply := { s.supply with hot := min 2 hot } }
  if 2 ≤ hot ∧ !s.supply.stopped ∧ s.power ≠ .stopped then s.thermalStop
  else if s.supply.stopped ∧ s.power = .off ∧ t < 460 then { s with supply := { s.supply with stopped := false } }
  else s

/-! The reference (R440) -/

/-- The port whose recovered clock is the reference is up (R439). -/
def State.refPortUp (s : State) : Bool := s.hlState (Fin.ofNat 4 (s.rfld Reg.hlTsctl 0 2)) == 2

/-- A change of reference completes, and with it a hold of the PLL without a reference ends (R445). -/
def State.refSwitch (s : State) (src : Bool) : State :=
  if !s.awake || s.rbit Reg.clkStat 0 == src || (src && !s.refPortUp) then s
  else (((s.putBit Reg.clkCtl 0 src).putBit Reg.clkStat 0 src).clrReg Reg.clkStat (bitW 1)).orReg Reg.clkStat (bitW 8)

/-- RECOVERED_CLOCK_LOSS. -/
def State.refRevert (s : State) : State :=
  if !s.rbit Reg.clkStat 0 then s
  else (((s.clrReg Reg.clkCtl (bitW 0)).clrReg Reg.clkStat (bitW 0)).orReg Reg.clkStat (bitW 9)).orReg Reg.pwrBarstat (bitW 11)

/-- XIN_LOSS while XIN is in use. -/
def State.xinLost (s : State) : State :=
  if s.rbit Reg.clkStat 0 || s.supply.xinAt.isSome then s
  else
    { (s.orReg Reg.clkStat (bitW 1 ||| bitW 10)).orReg Reg.pwrBarstat (bitW 11) with supply := { s.supply with xinAt := some s.now } }

/-- XIN_RETURN: the PLL leaves its hold. -/
def State.xinBack (s : State) : State :=
  if s.supply.xinAt.isSome then { s.clrReg Reg.clkStat (bitW 1) with supply := { s.supply with xinAt := none } } else s

/-! The meanings -/

/-- CANCEL_REQUEST (R20). -/
def execCancelRequest (s : State) : Host.Outcome State Fault Refusal := .next (s.powerRequest none)
/-- REQUEST_HOLD (R17, R20). -/
def execRequestHold (s : State) : Host.Outcome State Fault Refusal := .next (s.powerRequest (some .hold))
/-- REQUEST_RETAIN (R18, R20). -/
def execRequestRetain (s : State) : Host.Outcome State Fault Refusal := .next (s.powerRequest (some .retain))
/-- REQUEST_OFF (R18, R20). -/
def execRequestOff (s : State) : Host.Outcome State Fault Refusal := .next (s.powerRequest (some .off))
/-- WAKE_REQUEST (R20, R21). -/
def execWakeRequest (s : State) : Host.Outcome State Fault Refusal := .next (s.wakeHold 6)
/-- HOLD_ENTRY (R17). -/
def execHoldEntry (s : State) : Host.Outcome State Fault Refusal := .next s.enterHold
/-- RETAIN_OFF_ENTRY (R18). -/
def execRetainOffEntry (s : State) : Host.Outcome State Fault Refusal := .next s.enterRetainOff
/-- BAROMETER_SAMPLE (R433). -/
def execBarometerSample (vin vcore : Half) (s : State) : Host.Outcome State Fault Refusal := .next (s.baroSample vin vcore)
/-- BAROMETER_RECOVER (R434). -/
def execBarometerRecover (s : State) : Host.Outcome State Fault Refusal := .next s.baroRecover
/-- THERMAL_SAMPLE (R436). -/
def execThermalSample (temp : Half) (s : State) : Host.Outcome State Fault Refusal := .next (s.thermal temp)
/-- REFERENCE_SWITCH (R440). -/
def execReferenceSwitch (src : Bool) (s : State) : Host.Outcome State Fault Refusal := .next (s.refSwitch src)
/-- RECOVERED_CLOCK_LOSS (R440). -/
def execRecoveredClockLoss (s : State) : Host.Outcome State Fault Refusal := .next s.refRevert
/-- XIN_LOSS (R440). -/
def execXinLoss (s : State) : Host.Outcome State Fault Refusal := .next s.xinLost
/-- XIN_RETURN (R440). -/
def execXinReturn (s : State) : Host.Outcome State Fault Refusal := .next s.xinBack

end Sys2Proof.Machine
end

