-- ==== Sys2Proof/Machine/Serial.lean ====
section
/-! DEFINITION. The serial ports (R371–R373, R380, R381), the QSPI flash (R372) and GPIO (R374). -/

namespace Sys2Proof.Machine

/-- The interfaces that Hold stops run (R377). -/
def State.serves (s : State) : Bool := s.power == .run

/-- What has taken `n` fc up to now has begun before Hold, and is finished in it (R377). -/
def State.finishes (s : State) (n : Nat) : Bool := s.serves || (s.power == .hold && decide (s.now ≤ s.holdAt + n))

/-! UART (R371) -/

def State.modUart (s : State) (u : PortId) (f : Uart → Uart) : State := { s with uart := s.uart.set u.val (f s.uart[u]) u.isLt }

/-- The next character starts, unless CTS stops it. -/
def State.uartStart (s : State) (u : PortId) : State :=
  let x := s.uart[u]
  if s.serves && s.rbit (Reg.uartCtl u) 0 && !x.shift && !x.tx.isEmpty && (!s.rbit (Reg.uartCtl u) 1 || x.cts) then
    s.modUart u fun x => { x with shift := true }
  else s

/-- A byte is queued; one that finds the transmit FIFO full is lost. -/
def State.uartSend (s : State) (u : PortId) (b : Byte) : State :=
  if s.uart[u].tx.length < 64 then (s.modUart u fun x => { x with tx := x.tx ++ [b] }).uartStart u else s

/-- A character has been shifted out. -/
def State.uartSent (s : State) (u : PortId) : State :=
  match s.uart[u].tx with
  | [] => s
  | b :: bs =>
    if !s.uart[u].shift then s
    else
      let b := if s.rbit (Reg.uartCtl u) 5 then b &&& 0x7F else b
      (((s.modUart u fun x => { x with tx := bs, shift := false, out := some b }).orReg (Reg.uartStat u) (bitW 9)).uartStart u)

/-- A received character enters the FIFO with its marks. -/
def State.uartReceive (s : State) (u : PortId) (ch : UartChar) : State :=
  if !s.finishes ch.lasted || !s.rbit (Reg.uartCtl u) 0 then s
  else if 64 ≤ s.uart[u].rx.length then s.orReg (Reg.uartStat u) (bitW 10)
  else
    let parity := ch.parity && (s.rfld (Reg.uartCtl u) 3 2 == 1 || s.rfld (Reg.uartCtl u) 3 2 == 2)
    let d := if s.rbit (Reg.uartCtl u) 5 then ch.data.toNat % 128 else ch.data.toNat
    let v : Half := BitVec.ofNat 16 (b2n ch.brk * 2 ^ 10 + b2n parity * 2 ^ 9 + b2n ch.frame * 2 ^ 8 + d)
    (s.modUart u fun x => { x with rx := x.rx ++ [v] }).orReg (Reg.uartStat u)
      (bitW 8 ||| (if ch.frame then bitW 11 else 0) ||| (if ch.brk then bitW 12 else 0))

/-- A read of UART_DATA; what an empty FIFO gives in bits [10:0] is a free value. -/
def State.uartRead (s : State) (u : PortId) : Word × State :=
  match s.uart[u].rx with
  | v :: vs => (v.setWidth 32, s.modUart u fun x => { x with rx := vs })
  | [] => (s.drawWord.1 &&& 0x7FF, s.drawWord.2)

/-- RTS is asserted while the receive FIFO has room and the port takes characters; without flow control it stays asserted. DESIGN CHOICE
(log 132): R371 gives no level of the FIFO for it. -/
def State.uartRts (s : State) (u : PortId) : Bool :=
  !s.rbit (Reg.uartCtl u) 1 || (s.serves && s.rbit (Reg.uartCtl u) 0 && decide (s.uart[u].rx.length < 64))

/-- The CTS input changes. -/
def State.ctsChange (s : State) (u : PortId) (on : Bool) : State := (s.modUart u fun x => { x with cts := on }).uartStart u

/-! SPI1–SPI3 (R380) -/

def State.modSpi (s : State) (k : SpiId) (f : Spi → Spi) : State := { s with spi := s.spi.set k.val (f s.spi[k]) k.isLt }

/-- The registers of a port: SPI1 is number 1 of its family. -/
def spiNo (k : SpiId) : Nat := k.val + 1

/-- The word length. -/
def State.spiBits (s : State) (k : SpiId) : Nat := max 7 (s.rfld (Reg.spiFmt (spiNo k)) 0 5) + 1

/-- The low bits of a word. -/
def lowBits (n : Nat) (w : Word) : Word := BitVec.ofNat 32 (w.toNat % 2 ^ n)

/-- A word shifted in enters the receive FIFO, or is lost. -/
def State.spiIn (s : State) (k : SpiId) (w : Word) : State :=
  if 32 ≤ s.spi[k].rx.length then s.orReg (Reg.spiStat (spiNo k)) (bitW 11)
  else (s.modSpi k fun x => { x with rx := x.rx ++ [lowBits (s.spiBits k) w] }).orReg (Reg.spiStat (spiNo k)) (bitW 8)

/-- SPI_STAT.BUSY: a word is being shifted, by a master or by a slave. -/
def State.spiBusy (s : State) (k : SpiId) : Bool := s.spi[k].sh.isSome

/-- A master with a word to send starts shifting it, with its chip select asserted. -/
def State.spiStart (s : State) (k : SpiId) : State :=
  let n := spiNo k
  match s.spi[k].tx with
  | o :: os =>
    if s.serves && s.rbit (Reg.spiCtl n) 0 && s.rbit (Reg.spiCtl n) 2 && !s.spiBusy k then
      (s.modSpi k fun x => { x with tx := os, sh := some o, cs := true }).orReg (Reg.spiStat n) (bitW 9)
    else s
  | [] => s

/-- EN = 0 empties both FIFOs. -/
def State.spiOff (s : State) (k : SpiId) : State :=
  if s.rbit (Reg.spiCtl (spiNo k)) 0 then s else s.modSpi k fun x => { x with rx := [], tx := [] }

/-- Writes of SPI_CTL and SPI_FMT that waited for the end of the word take effect. -/
def State.spiSettle (s : State) (k : SpiId) : State :=
  let x := s.spi[k]
  let n := spiNo k
  let s := match x.ctl with
    | some v => s.setReg (Reg.spiCtl n) ((s.reg (Reg.spiCtl n) &&& 0xFF01) ||| (v &&& 0xFFFF_007C))
    | none => s
  let s := match x.fmt with | some v => s.setReg (Reg.spiFmt n) v | none => s
  s.modSpi k fun x => { x with ctl := none, fmt := none }

/-- A word begins at a slave that is selected: the oldest transmit word, or zero with UNDR. -/
def State.spiBegin (s : State) (k : SpiId) : State :=
  let n := spiNo k
  if !s.serves || !s.rbit (Reg.spiCtl n) 0 || s.rbit (Reg.spiCtl n) 2 || s.spiBusy k then s
  else
    match s.spi[k].tx with
    | o :: os => (s.modSpi k fun x => { x with tx := os, sh := some o }).orReg (Reg.spiStat n) (bitW 9)
    | [] => (s.modSpi k fun x => { x with sh := some 0 }).orReg (Reg.spiStat n) (bitW 12)

/-- The word in progress ends, one out and one in. A master's chip select stays asserted while it holds a further word, in Hold too
(R377), and is released where it does not. -/
def State.spiFinish (s : State) (k : SpiId) (w : Word) : State :=
  let n := spiNo k
  match s.spi[k].sh with
  | none => s
  | some o =>
    let s := s.modSpi k fun x => { x with sh := none, out := some o }
    let s := ((if s.rbit (Reg.spiCtl n) 0 then s.spiIn k w else s).spiSettle k).spiStart k
    let m := s.rbit (Reg.spiCtl n) 2
    s.modSpi k fun x => { x with cs := m && (x.sh.isSome || !x.tx.isEmpty) }

/-- A word at the port: it begins at a slave, or it ends; a slave's word whose begin has not been told begins and ends. -/
def State.spiWord (s : State) (k : SpiId) (w : SpiShift) : State :=
  if w.begins then s.spiBegin k else (s.spiBegin k).spiFinish k w.data

/-- A write of SPI_DATA. While EN = 0 the FIFOs are empty. -/
def State.spiWrite (s : State) (k : SpiId) (v : Word) : State :=
  if !s.rbit (Reg.spiCtl (spiNo k)) 0 then s
  else if 32 ≤ s.spi[k].tx.length then s.orReg (Reg.spiStat (spiNo k)) (bitW 11)
  else (s.modSpi k fun x => { x with tx := x.tx ++ [lowBits (s.spiBits k) v] }).spiStart k

/-- A read of SPI_DATA. -/
def State.spiRead (s : State) (k : SpiId) : Word × State :=
  match s.spi[k].rx with
  | v :: vs => (v, s.modSpi k fun x => { x with rx := vs })
  | [] => (0, s)

/-- SPI_CTL is written: while a word is shifted its fields but IE and EN wait. -/
def State.spiControl (s : State) (k : SpiId) (v : Word) : State :=
  let r := Reg.spiCtl (spiNo k)
  let s :=
    if s.spiBusy k then (s.setReg r ((s.reg r &&& 0xFFFF_007C) ||| (v &&& 0xFF01))).modSpi k fun x => { x with ctl := some v }
    else s.setReg r (v &&& 0xFFFF_FF7D)
  (s.spiOff k).spiStart k

/-- SPI_FMT is written: while a word is shifted the write waits. -/
def State.spiFormat (s : State) (k : SpiId) (v : Word) : State :=
  if s.spiBusy k then s.modSpi k fun x => { x with fmt := some (v &&& 0x3F) } else s.setReg (Reg.spiFmt (spiNo k)) (v &&& 0x3F)

/-- A slave select ends in the middle of a word. -/
def State.spiPart (s : State) (k : SpiId) : State :=
  let n := spiNo k
  if (s.serves || s.spiBusy k) && s.rbit (Reg.spiCtl n) 0 && !s.rbit (Reg.spiCtl n) 2 then
    ((s.modSpi k fun x => { x with sh := none }).spiSettle k).orReg (Reg.spiStat n) (bitW 10)
  else s

/-! QSPI (R372) -/

/-- Flash bytes from an offset take values. -/
def State.flashPut (s : State) (o : Nat) : List Byte → State
  | [] => s
  | b :: bs => { s with flash := mapSet (fun _ => none) s.flash o (some b) }.flashPut (o + 1) bs

/-- What a flash command does. How long the flash runs it is a free value. -/
def State.flashDo (s : State) (op : FlashOp) : State :=
  let d := s.drawWord
  let s := { d.2 with qspi := s.now + 1 + d.1.toNat }
  match op with
  | .erase o n => s.flashPut o (List.replicate n 0xFF)
  | .program o bs => s.flashPut o bs
  | .other => s

/-- QSPI_STAT.BUSY: a flash command runs. -/
def State.qspiBusy (s : State) : Bool := decide (s.now < s.qspi)

/-- The answer of the QSPI window to a read at an offset: its density bounds it. -/
def qspiServes (o : Nat) : Bool := !Config.flashSfdp || decide (o < Config.flashDensity.toNat * 1024)

/-- Bytes read through the QSPI window with the read command, address width and dummy cycles of QSPI_CFG where OVR = 1, else of the
SFDP tables; without them with 3-byte addresses. What a flash gives to a read command that it does not answer is free. -/
def State.qspiRead (s : State) (o n : Nat) : List Byte :=
  let c := s.reg (Reg.qspiCfg)
  let wide := if bitOf c 31 then bitOf c 8 else Config.flashSfdp
  (List.range n).map fun i =>
    let a := if wide then o + i else (o + i) % 2 ^ 24
    if bitOf c 31 && !Config.flashReads (c.truncate 24) then Config.flashStray (c.truncate 24) a else s.flashAt a

/-! I²C (R373, R381) -/

def State.modI2c (s : State) (i : PairId) (f : I2c → I2c) : State := { s with i2c := s.i2c.set i.val (f s.i2c[i]) i.isLt }

/-- A received byte enters the FIFO, or is lost with OVR. -/
def State.i2cIn (s : State) (i : PairId) (b : Byte) : State :=
  if 16 ≤ s.i2c[i].rx.length then s.orReg (Reg.i2cStat i) (bitW 15)
  else (s.modI2c i fun x => { x with rx := x.rx ++ [b] }).orReg (Reg.i2cStat i) (bitW 8)

/-- A controller write moves the bytes that the transmit FIFO has, and ends with its last byte or with a NACK. -/
def State.i2cPump (s : State) (i : PairId) : Nat → State
  | 0 => s
  | n + 1 =>
    match s.i2c[i].run with
    | none => s
    | some r =>
      if r.left = 0 then s.modI2c i fun x => { x with run := none, held := !r.stop }
      else
        match s.i2c[i].tx with
        | [] => s
        | b :: bs =>
          let s := (s.modI2c i fun x => { x with tx := bs, out := some b }).orReg (Reg.i2cStat i) (bitW 9)
          if r.acks = 0 then (s.modI2c i fun x => { x with run := none, held := false }).orReg (Reg.i2cStat i) (bitW 13)
          else (s.modI2c i fun x => { x with run := some { r with left := r.left - 1, acks := r.acks - 1 } }).i2cPump i n

/-- A write of I2C_CMD: START and address with what the bus answers, then its bytes. -/
def State.i2cCommand (s : State) (i : PairId) (v : Word) (bus : I2cBus) : State :=
  if !s.serves || !s.rbit (Reg.i2cCtl i) 0 || s.rbit (Reg.i2cCtl i) 1 || s.i2c[i].run.isSome then s
  else
    let start := bitOf v 31
    let stop := bitOf v 30
    let n := fldOf v 0 8
    let free (s : State) : State := s.modI2c i fun x => { x with held := false }
    if start && !s.i2c[i].held && bus.sdaStuck then s.orReg (Reg.i2cStat i) (bitW 11)
    else
    let s := if start then s.modI2c i fun x => { x with addr := some ((v >>> 16).truncate 7, bitOf v 29) } else s
    if bus.arbLost then (free s).orReg (Reg.i2cStat i) (bitW 12)
    else if start && !bus.ackAddr then (free s).orReg (Reg.i2cStat i) (bitW 13)
    else if bitOf v 29 then
      ((List.range n).foldl (fun s k => s.i2cIn i (bus.rdata.getD k 0xFF)) s).modI2c i fun x => { x with held := !stop }
    else (s.modI2c i fun x => { x with run := some ⟨n, bus.acks, stop⟩, held := true }).i2cPump i 257

/-- A write of I2C_DATA. While EN = 0 the FIFOs are empty. -/
def State.i2cWrite (s : State) (i : PairId) (b : Byte) : State :=
  if !s.rbit (Reg.i2cCtl i) 0 then s
  else if 16 ≤ s.i2c[i].tx.length then s.orReg (Reg.i2cStat i) (bitW 15)
  else
    let s := s.modI2c i fun x => { x with tx := x.tx ++ [b] }
    if s.serves then s.i2cPump i 257 else s

/-- A read of I2C_DATA. -/
def State.i2cRead (s : State) (i : PairId) : Word × State :=
  match s.i2c[i].rx with
  | v :: vs => (v.setWidth 32, s.modI2c i fun x => { x with rx := vs })
  | [] => (0, s)

/-- One byte that a controller reads from this target. -/
def State.i2cOut (s : State) (i : PairId) : State :=
  match s.i2c[i].tx with
  | b :: bs => (s.modI2c i fun x => { x with tx := bs, out := some b }).orReg (Reg.i2cStat i) (bitW 9)
  | [] => (s.modI2c i fun x => { x with out := some 0xFF }).orReg (Reg.i2cStat i) (bitW 14)

/-- A controller addresses a target port. -/
def State.i2cTarget (s : State) (i : PairId) (bus : I2cTarget) : State :=
  if !s.serves || !s.rbit (Reg.i2cCtl i) 0 || !s.rbit (Reg.i2cCtl i) 1 || s.rfld (Reg.i2cAddr i) 0 7 != bus.addr.toNat then s
  else
    let s := s.modI2c i fun x => { x with tgt := s.now + bus.lasts }
    let s := bus.wr.foldl (fun s b => s.i2cIn i b) s
    (List.range bus.reads).foldl (fun s _ => s.i2cOut i) s

/-- I2C_STAT.BUSY: a command runs, or the port is addressed as target. -/
def State.i2cBusy (s : State) (i : PairId) : Bool := s.i2c[i].run.isSome || decide (s.now < s.i2c[i].tgt)

/-- The bus is released. -/
def State.i2cFree (s : State) (i : PairId) : State := s.modI2c i fun x => { x with run := none, held := false, tgt := 0 }

/-- I2C_CTL is written: EN = 0 empties both FIFOs and releases the bus. -/
def State.i2cControl (s : State) (i : PairId) : State :=
  if s.rbit (Reg.i2cCtl i) 0 then s else (s.modI2c i fun x => { x with rx := [], tx := [] }).i2cFree i

/-! GPIO (R374) -/

/-- The level of a pin: what an output drives, else what comes from outside, which GPIO_IN holds; under EXTEST the boundary-scan
cell (R454). -/
def State.gpioLevel (s : State) (g k : Nat) : Bool :=
  let out := s.rbit (Reg.gpioOut g) k
  if s.extest then s.cell (98 + 24 * g + k)
  else if s.rbit (Reg.gpioDir g) k && !(s.rbit (Reg.gpioOd g) k && out) then out else s.rbit (Reg.gpioIn g) k

/-- The event mode of a pin: 0 off, 1 rise, 2 fall, 3 level. -/
def State.gpioMode (s : State) (g k : Nat) : Nat :=
  if k < 12 then s.rfld (Reg.gpioImode g) (2 * k) 2 else s.rfld (Reg.gpioImodeB g) (2 * (k - 12)) 2

/-- A pin is sampled after a change from `old`: its event is flagged. -/
def State.gpioSample (s old : State) (g k : Nat) : State :=
  let a := old.gpioLevel g k
  let b := s.gpioLevel g k
  let hit := match s.gpioMode g k with
    | 0 => false | 1 => !a && b | 2 => a && !b | _ => b
  if hit then s.orReg (Reg.gpioIflg g) (bitW k) else s

/-- The pins in level mode are sampled, which happens every 10 ns (R374). -/
def State.gpioTick (s : State) : State :=
  if s.now % 10 ≠ 0 ∨ !s.awake then s
  else (List.range 4).foldl (fun s g =>
    if s.reg (Reg.gpioImode g) = 0 ∧ s.reg (Reg.gpioImodeB g) = 0 then s
    else (List.range 24).foldl (fun s k =>
      if s.gpioMode g k == 3 && s.gpioLevel g k then s.orReg (Reg.gpioIflg g) (bitW k) else s) s) s

/-- All pins of a group are sampled after a register write. -/
def State.gpioSampleAll (s old : State) (g : Nat) : State := (List.range 24).foldl (fun s k => s.gpioSample old g k) s

/-- The level that an event pin drives, or that a pull or load gives it (R450); under EXTEST the boundary-scan cell (R454). -/
def State.evLevel (s : State) (p : PinId) : Bool :=
  if s.extest then s.cell p.val
  else match (s.pin p).lvl with | .low => false | .high => true | .z => Config.padLevel p.val

/-- The levels of 32 event pins. -/
def State.evLevels (s : State) (hi : Bool) : Word :=
  BitVec.ofNat 32 (((List.finRange 32).map fun i =>
    b2n (s.evLevel (Fin.ofNat 64 (i.val + if hi then 32 else 0))) * 2 ^ i.val).sum)

/-- A write of GPIO_EVOUT: GPIO-owned pins take the levels; it restarts their owner after Retain (R374, R418). -/
def State.evOut (s : State) (hi : Bool) (v : Word) : State :=
  let r := if hi then Reg.gpioEvoutHi else Reg.gpioEvoutLo
  forAll (fun (p : PinId) s =>
    if (s.pin p).owner != .gpio || (decide (32 ≤ p.val) != hi) then s
    else
      let b := bitOf v (p.val % 32)
      let s := (s.putBit r (p.val % 32) b).modPin p fun x => { x with down := false }
      if s.pinBlocked p then s else s.drivePin p b s.stamp) s

/-- What a read of GPIO_EVOUT gives: pins that GPIO does not own read their level. -/
def State.evOutRead (s : State) (hi : Bool) : Word :=
  let r := s.reg (if hi then Reg.gpioEvoutHi else Reg.gpioEvoutLo)
  BitVec.ofNat 32 (((List.finRange 32).map fun i =>
    let p : PinId := Fin.ofNat 64 (i.val + if hi then 32 else 0)
    b2n (if (s.pin p).owner == .gpio then bitOf r i.val else s.evLevel p) * 2 ^ i.val).sum)

/-! The meanings -/

/-- UART_RECEIVE (R371). -/
def execUartReceive (u : PortId) (ch : UartChar) (s : State) : Host.Outcome State Fault Refusal := .next (s.uartReceive u ch)
/-- UART_SEND (R371). -/
def execUartSend (u : PortId) (value : Word) (s : State) : Host.Outcome State Fault Refusal :=
  .next (s.uartSend u (value.truncate 8))
/-- UART_DATA_READ (R371). -/
def execUartDataRead (u : PortId) (s : State) : Host.Outcome State Fault Refusal :=
  .next { (s.uartRead u).2 with rdata := [(s.uartRead u).1] }
/-- UART_CHARACTER_SENT (R371). -/
def execUartCharacterSent (u : PortId) (s : State) : Host.Outcome State Fault Refusal := .next (s.uartSent u)
/-- CTS_CHANGE (R371). -/
def execCtsChange (u : PortId) (asserted : Bool) (s : State) : Host.Outcome State Fault Refusal := .next (s.ctsChange u asserted)
/-- SPI_WORD (R380). -/
def execSpiWord (k : SpiId) (rx : SpiShift) (s : State) : Host.Outcome State Fault Refusal := .next (s.spiWord k rx)
/-- SPI_DATA_WRITE (R380). -/
def execSpiDataWrite (k : SpiId) (value : Word) (s : State) : Host.Outcome State Fault Refusal := .next (s.spiWrite k value)
/-- SPI_DATA_READ (R380). -/
def execSpiDataRead (k : SpiId) (s : State) : Host.Outcome State Fault Refusal :=
  .next { (s.spiRead k).2 with rdata := [(s.spiRead k).1] }
/-- SPI_SELECT_END (R372). -/
def execSpiSelectEnd (k : SpiId) (s : State) : Host.Outcome State Fault Refusal := .next (s.spiPart k)
/-- QSPI_COMMAND (R372): `op` is what the flash does on the command word. -/
def execQspiCommand (_cmd : Word) (op : FlashOp) (s : State) : Host.Outcome State Fault Refusal :=
  .next (if s.serves then s.flashDo op else s)
/-- I2C_COMMAND (R381). -/
def execI2cCommand (i : PairId) (value : Word) (bus : I2cBus) (s : State) : Host.Outcome State Fault Refusal :=
  .next (s.i2cCommand i value bus)
/-- I2C_DATA_WRITE (R381). -/
def execI2cDataWrite (i : PairId) (value : Word) (s : State) : Host.Outcome State Fault Refusal :=
  .next (s.i2cWrite i (value.truncate 8))
/-- I2C_DATA_READ (R381). -/
def execI2cDataRead (i : PairId) (s : State) : Host.Outcome State Fault Refusal :=
  .next { (s.i2cRead i).2 with rdata := [(s.i2cRead i).1] }
/-- I2C_TARGET_ADDRESSED (R381). -/
def execI2cTargetAddressed (i : PairId) (bus : I2cTarget) (s : State) : Host.Outcome State Fault Refusal := .next (s.i2cTarget i bus)
/-- I2C_CLOCK_TIMEOUT (R373). -/
def execI2cClockTimeout (i : PairId) (s : State) : Host.Outcome State Fault Refusal :=
  .next (if s.serves && s.rbit (Reg.i2cCtl i) 0 then (s.orReg (Reg.i2cStat i) (bitW 10)).i2cFree i else s)
/-- GPIO_INPUT_EVENT (R374). -/
def execGpioInputEvent (pin : GpioId) (level : Bool) (s : State) : Host.Outcome State Fault Refusal :=
  .next (let t := if s.broken (.gpio pin) then s else s.putBit (Reg.gpioIn (pin.val / 24)) (pin.val % 24) level
         if s.awake then t.gpioSample s (pin.val / 24) (pin.val % 24) else t)

end Sys2Proof.Machine
end

