-- ==== Sys2Proof/Machine/Dma.lean ====
section
/-! DEFINITION. The DMA channels (R375, R376, R383): masters 18 to 25, with one request outstanding at a time. -/

namespace Sys2Proof.Machine

def State.modDma (s : State) (c : ChanId) (f : Dma → Dma) : State := { s with dma := s.dma.set c.val (f s.dma[c]) c.isLt }

/-- DMA_CTL.SIZE in bytes. -/
def State.dmaSize (s : State) (c : ChanId) : Nat :=
  match s.rfld (Reg.dmaCtl c) 0 2 with | 0 => 1 | 1 => 2 | _ => 4
def State.dmaReq (s : State) (c : ChanId) : Nat := s.rfld (Reg.dmaCtl c) 16 8
def State.dmaSfix (s : State) (c : ChanId) : Bool := s.rbit (Reg.dmaCtl c) 2
def State.dmaDfix (s : State) (c : ChanId) : Bool := s.rbit (Reg.dmaCtl c) 3
/-- The channel runs. -/
def State.dmaOn (s : State) (c : ChanId) : Bool := s.rbit (Reg.dmaStat c) 0

/-- An enabled Legacy Bus Port uses the channel, and writes to its DMA_CTL are ignored (R375). -/
def State.dmaLent (s : State) (c : ChanId) : Bool :=
  (List.range 2).any fun p => s.rfld (Reg.lbpCfg p) 0 2 % 3 != 0 && s.rfld (Reg.lbpCfg p) 4 3 == c.val

/-- A count or address is no multiple of the element size. -/
def State.dmaOdd (s : State) (c : ChanId) : Bool :=
  let z := s.dmaSize c
  (s.reg (Reg.dmaCnt c)).toNat % z != 0 || (s.reg (Reg.dmaSrc c)).toNat % z != 0 || (s.reg (Reg.dmaDst c)).toNat % z != 0

/-- The channel stops with a flag. -/
def State.dmaStop (s : State) (c : ChanId) (flag : Nat) : State :=
  ((s.clrReg (Reg.dmaStat c) (bitW 0)).orReg (Reg.dmaStat c) (bitW flag)).modDma c fun x => { x with op := none, buf := [] }

/-- The bytes of the next request: one element where an address stays fixed or a peripheral paces it; at most 64, and no multiple of
256 crossed at either end. -/
def State.dmaLen (s : State) (c : ChanId) : Nat :=
  if s.dmaSfix c || s.dmaDfix c || s.dmaReq c != 0 then s.dmaSize c
  else min (min 64 (s.reg (Reg.dmaCnt c)).toNat)
    (min (256 - (s.reg (Reg.dmaSrc c)).toNat % 256) (256 - (s.reg (Reg.dmaDst c)).toNat % 256))

/-- The channel's matrix request (R304). -/
def State.dmaIssue (s : State) (c : ChanId) (step : DmaStep) (a : Word) (kind : ReqKind) (n : Nat) (data : List Byte) : State :=
  let r := s.issueReq (18 + c.val)
    { addr := a, kind := kind, len := n, data := data, ordered := s.rbit (Reg.dmaCtl c) 4, node := 0 }
  r.1.modDma c fun x => { x with op := some (r.2, step, n) }

/-- The source of REQ requests: a receive FIFO that holds data, or a transmit FIFO that has space (R375). SPI0 has no FIFOs (R380). DESIGN
CHOICE (log 133): the request stands as long as the FIFO does so. -/
def State.dmaWant (s : State) (req : Nat) : Bool :=
  if req = 0 then true
  else if req ≤ 4 then !s.uart[(Fin.ofNat 4 (req - 1) : PortId)].rx.isEmpty
  else if req ≤ 8 then decide (s.uart[(Fin.ofNat 4 (req - 5) : PortId)].tx.length < 64)
  else if 10 ≤ req ∧ req ≤ 12 then !s.spi[(Fin.ofNat 3 (req - 10) : SpiId)].rx.isEmpty
  else if 14 ≤ req ∧ req ≤ 16 then s.rbit (Reg.spiCtl (req - 13)) 0 && decide (s.spi[(Fin.ofNat 3 (req - 14) : SpiId)].tx.length < 32)
  else if 17 ≤ req ∧ req ≤ 18 then !s.i2c[(Fin.ofNat 2 (req - 17) : PairId)].rx.isEmpty
  else if 19 ≤ req ∧ req ≤ 20 then s.rbit (Reg.i2cCtl (req - 19)) 0 && decide (s.i2c[(Fin.ofNat 2 (req - 19) : PairId)].tx.length < 16)
  else false

/-- The next request of a running channel: the write of what it has read; else a read, where it has bytes left and the peripheral's
request it needs. In Hold none starts (R377). -/
def State.dmaRun (s : State) (c : ChanId) : State :=
  let bs := s.dma[c].buf
  if !s.serves || !s.dmaOn c || s.dma[c].op.isSome then s
  else if !bs.isEmpty then
    (s.modDma c fun x => { x with buf := [] }).dmaIssue c .write (s.reg (Reg.dmaDst c)) .write bs.length bs
  else if s.reg (Reg.dmaCnt c) == 0 || !s.dmaWant (s.dmaReq c) then s
  else s.dmaIssue c .read (s.reg (Reg.dmaSrc c)) .read (s.dmaLen c) []

/-- A write of DMA_CTL with GO. -/
def State.dmaGo (s : State) (c : ChanId) (v : Word) : State :=
  if s.dmaLent c then s
  else
    let s := s.setReg (Reg.dmaCtl c) (v &&& 0x00FF_FF1F)
    if s.dmaOn c then s
    else if 0x14 < s.dmaReq c ∨ s.dmaOdd c then s.orReg (Reg.dmaStat c) (bitW 11)
    else ((s.orReg (Reg.dmaStat c) (bitW 0)).modDma c fun _ => ⟨none, []⟩).dmaRun c

/-- `n` bytes have been carried out. -/
def State.dmaAdvance (s : State) (c : ChanId) (n : Nat) : State :=
  let k := BitVec.ofNat 32 n
  let s := if s.dmaSfix c then s else s.setReg (Reg.dmaSrc c) (s.reg (Reg.dmaSrc c) + k)
  let s := if s.dmaDfix c then s else s.setReg (Reg.dmaDst c) (s.reg (Reg.dmaDst c) + k)
  s.setReg (Reg.dmaCnt c) (s.reg (Reg.dmaCnt c) - k)

/-- The bytes that an outstanding write of the channel has carried out. -/
def State.dmaDone (s : State) (c : ChanId) : Nat :=
  match s.dma[c].op with
  | some (id, .write, n) =>
    (match s.findReq id with
     | some r => if r.stage == .done then (if r.resp = .okay then n else 0)
                 else if r.stage == .accepted then min n (r.span r.beats).1 else 0
     | none => 0)
  | _ => 0

/-- A write of DMA_CTL with ABORT: the channel stops under R313. -/
def State.dmaAbort (s : State) (c : ChanId) : State :=
  if s.dmaLent c then s
  else (((s.dmaAdvance c (s.dmaDone c)).masterReset (18 + c.val)).dmaStop c 10)

/-- After the last byte: the next descriptor is read, or the channel is done. -/
def State.dmaChain (s : State) (c : ChanId) : State :=
  if !s.serves || !s.dmaOn c || s.dma[c].op.isSome || s.reg (Reg.dmaCnt c) != 0 then s
  else if s.reg (Reg.dmaNext c) = 0 then s.dmaStop c 8
  else s.dmaIssue c .chain (s.reg (Reg.dmaNext c) &&& 0xFFFF_FFF0) .read 16 []

/-- A descriptor has been loaded (R375). -/
def State.dmaLoad (s : State) (c : ChanId) (bs : List Byte) : State :=
  let w (k : Nat) : Word := wordOf ((bs.drop (4 * k)).take 4)
  let s := (((s.setReg (Reg.dmaSrc c) (w 0)).setReg (Reg.dmaDst c) (w 1)).setReg (Reg.dmaCnt c) (w 2)).setReg (Reg.dmaNext c) (w 3)
  if s.dmaOdd c then s.dmaStop c 11 else s.dmaRun c

/-- The matrix has answered the channel's request (R376). -/
def State.dmaAnswer (s : State) (c : ChanId) (r : Req) : State :=
  match s.dma[c].op with
  | none => s
  | some (id, step, n) =>
    if id ≠ r.id then s
    else
      let s := s.modDma c fun x => { x with op := none }
      if r.resp ≠ .okay then
        ((s.setFld (Reg.dmaStat c) 1 3 r.resp.code).setReg (Reg.dmaErraddr c) r.addr).dmaStop c 9
      else
        match step with
        | .read => (s.modDma c fun x => { x with buf := r.rdata }).dmaRun c
        | .write => (s.dmaAdvance c n).dmaRun c
        | .chain => s.dmaLoad c r.rdata

/-- The peripheral that paces the channel requests an element (R375). -/
def State.dmaPace (s : State) (c : ChanId) : State := if s.dmaReq c = 0 then s else s.dmaRun c

/-! The meanings -/

/-- DMA_GO (R375). -/
def execDmaGo (c : ChanId) (value : Word) (s : State) : Host.Outcome State Fault Refusal := .next (s.dmaGo c value)
/-- DMA_ABORT (R376). -/
def execDmaAbort (c : ChanId) (s : State) : Host.Outcome State Fault Refusal := .next (s.dmaAbort c)
/-- DMA_PERIPHERAL_REQUEST (R375). -/
def execDmaPeripheralRequest (c : ChanId) (s : State) : Host.Outcome State Fault Refusal := .next (s.dmaPace c)
/-- DMA_CHAIN (R375). -/
def execDmaChain (c : ChanId) (s : State) : Host.Outcome State Fault Refusal := .next (s.dmaChain c)

end Sys2Proof.Machine
end

