-- ==== Sys2Proof/Machine/Backplane.lean ====
section
/-! DEFINITION. The Legacy Bus Ports (R361–R368, R382). Slave mode reaches the matrix through the master of the DMA channel that
LBP_CFG.CH names. -/

namespace Sys2Proof.Machine

def State.modLbp (s : State) (p : PairId) (f : Lbp → Lbp) : State := { s with lbp := s.lbp.set p.val (f s.lbp[p]) p.isLt }

/-- LBP_CFG.MODE: 0 off, 1 master, 2 slave. -/
def State.lbpMode (s : State) (p : PairId) : Nat := s.rfld (Reg.lbpCfg p) 0 2 % 3
/-- The matrix master of the port's channel. -/
def State.lbpMaster (s : State) (p : PairId) : Nat := 18 + s.rfld (Reg.lbpCfg p) 4 3
/-- The low BW bits of a word (R361). -/
def State.lbpData (s : State) (p : PairId) (w : Word) : Word :=
  match s.rfld (Reg.lbpStat p) 16 2 with | 0 => w &&& 0xFF | 1 => w &&& 0xFFFF | _ => w
/-- A role of a line. -/
def State.lbpRole (s : State) (p : PairId) (k : Nat) : Nat := s.rfld (Reg.lbpHsrole p) (4 * k) 4
def State.lbpHasRole (s : State) (p : PairId) (r : Nat) : Bool := (List.range 8).any fun k => s.lbpRole p k == r
/-- Two lines hold the same role of 1 to 7 (R361). -/
def State.lbpTwice (s : State) (p : PairId) : Bool :=
  (List.range 8).any fun i => (List.range i).any fun j =>
    decide (1 ≤ s.lbpRole p i) && decide (s.lbpRole p i ≤ 7) && s.lbpRole p i == s.lbpRole p j

/-! Bursts (R365–R368) -/

/-- A write of the port through its channel; an ordered one follows all earlier writes. -/
def State.lbpWrite (s : State) (p : PairId) (a : Nat) (bs : List Byte) (ordered : Bool) : State × Nat :=
  s.issueReq (s.lbpMaster p) { addr := BitVec.ofNat 32 a, kind := .write, len := bs.length, data := bs, ordered := ordered, node := 0 }

/-- The descriptor that the next burst uses. -/
def State.lbpDesc (s : State) (p : PairId) : Nat := (s.reg (Reg.lbpRxring p)).toNat / 16 * 16 + s.lbp[p].pos

/-- The port reads the next descriptor through its channel; what follows in the burst waits for the answer. -/
def State.lbpOpen (s : State) (p : PairId) (orphan : Bool) : State :=
  let r := s.issueReq (s.lbpMaster p)
    { addr := BitVec.ofNat 32 (s.lbpDesc p), kind := .read, len := 8, data := [], ordered := false, node := 0 }
  r.1.modLbp p fun x => { x with opens := some (r.2, orphan) }

/-- The open descriptor closes: an orphan that is not to be delivered is discarded and its descriptor stays; another is written back
after the writes of its beats. `bits` are END and FULL. -/
def State.lbpClose (s : State) (p : PairId) (short : Bool) (bits : Word) : State :=
  match s.lbp[p].burst with
  | none => s
  | some b =>
    let s := s.modLbp p fun x => { x with burst := none }
    if b.orphan && !s.rbit (Reg.lbpCfg p) 7 then s.incReg (Reg.lbpOrphcnt p)
    else
      let w := bits ||| (if b.wrap then bitW 30 else 0) ||| (if b.orphan then bitW 29 else 0) ||| (if short then bitW 28 else 0) |||
               BitVec.ofNat 32 b.count
      let r := s.lbpWrite p (b.desc + 4) (bytesOf 4 w.toNat ++ bytesOf 8 b.ts.toNat) true
      r.1.modLbp p fun x => { x with pos := if b.wrap then 0 else x.pos + 16, backs := x.backs ++ [r.2] }

/-- The port receives bursts. -/
def State.lbpBursts (s : State) (p : PairId) : Bool := s.serves && s.lbpMode p == 2 && s.rbit (Reg.lbpCfg p) 3

/-- A beat that finds a descriptor open is written to its buffer (R365). -/
def State.lbpStore (s : State) (p : PairId) (b : LbpBurst) (data : Word) (ts : Stamp) (seen : Nat) : State :=
  let r := s.lbpWrite p (b.buf.toNat + 4 * b.count) (bytesOf 4 (s.lbpData p data).toNat) false
  let b := { b with count := b.count + 1, ts := if b.count = 0 then ts else b.ts, since := seen }
  let s := r.1.modLbp p fun x => { x with burst := some b }
  if b.cap ≤ b.count then (s.lbpClose p false (bitW 26)).modLbp p fun x => { x with cont := true } else s

/-- The open descriptor is committed as the gap timer does it (R366). -/
def State.lbpGapClose (s : State) (p : PairId) : State :=
  if s.lbp[p].burst.isSome then
    ((s.orReg (Reg.lbpStat p) (bitW 12)).lbpClose p true 0).modLbp p fun x => { x with cont := false }
  else s

/-- An event of a burst of the fc `t`, while no descriptor is being read (R365–R368): a START closes an open descriptor and opens the
next; a beat without one opens the next, as an orphan where no burst goes on; an END closes, and so does a gap timer that has run for
LBP_GAPT since the last beat, or the port's stop (R382). -/
def State.lbpDo (s : State) (p : PairId) (t : Nat) : LbpEvent → State
  | .start => ((s.lbpClose p true 0).modLbp p fun x => { x with cont := true }).lbpOpen p false
  | .beat data ts =>
    (match s.lbp[p].burst with
     | some b => s.lbpStore p b data ts t
     | none => (s.modLbp p fun x => { x with evq := (t, .beat data ts) :: x.evq }).lbpOpen p (!s.lbp[p].cont))
  | .done => (s.lbpClose p false (bitW 27)).modLbp p fun x => { x with cont := false }
  | .gap =>
    let g := (s.reg (Reg.lbpGapt p)).toNat
    (match s.lbp[p].burst with
     | none => s
     | some b => if g != 0 && b.count != 0 && decide (b.since + g ≤ t) then s.lbpGapClose p else s)
  | .stop => s.lbpGapClose p

/-- The place of an event among those of its fc (R368): beats, END, START, the gap timer; a stop of the port comes last. -/
def LbpEvent.rank : LbpEvent → Nat
  | .beat _ _ => 0
  | .done => 1
  | .start => 2
  | .gap => 3
  | .stop => 4

/-- An event of the fc `t` takes its place. -/
def lbpPlace (t : Nat) (ev : LbpEvent) : List (Nat × LbpEvent) → List (Nat × LbpEvent)
  | [] => [(t, ev)]
  | (u, x) :: q => if u = t ∧ ev.rank < x.rank then (t, ev) :: (u, x) :: q else (u, x) :: lbpPlace t ev q

/-- An event reaches the port in the present fc. -/
def State.lbpPost (s : State) (p : PairId) (ev : LbpEvent) : State := s.modLbp p fun x => { x with evq := lbpPlace s.now ev x.evq }

/-- The role of the line whose strobe makes an event (R361); the gap timer and a stop need none. -/
def LbpEvent.role : LbpEvent → Option Nat
  | .beat _ _ => some 5
  | .start => some 6
  | .done => some 7
  | _ => none

/-- A line of the port makes such events. -/
def State.lbpMakes (s : State) (p : PairId) (ev : LbpEvent) : Bool :=
  match ev.role with | some r => s.lbpHasRole p r | none => true

/-- An event of a burst: it takes its turn at the end of the fc, when all events of the fc are known. -/
def State.lbpEvent (s : State) (p : PairId) (ev : LbpEvent) : State := if s.lbpBursts p && s.lbpMakes p ev then s.lbpPost p ev else s

/-- The events of the fc before `lim` take their turn, up to the next that needs a descriptor; `k` bounds their number. -/
def State.lbpDrain (s : State) (p : PairId) (lim : Nat) : Nat → State
  | 0 => s
  | k + 1 =>
    match s.lbp[p].opens, s.lbp[p].evq with
    | none, (t, ev) :: evs =>
      if t < lim then ((s.modLbp p fun x => { x with evq := evs }).lbpDo p t ev).lbpDrain p lim k else s
    | _, _ => s

/-- The descriptor has been read: it opens, if the port owns it; else the beat that asked for it is discarded and counted (R365, R367,
R368). -/
def State.lbpOpened (s : State) (p : PairId) (orphan : Bool) (r : Req) : State :=
  let w := wordOf (r.rdata.drop 4)
  let s := s.modLbp p fun x => { x with opens := none }
  let s :=
    if r.resp = .okay ∧ bitOf w 31 then
      let s := if orphan then s.orReg (Reg.lbpStat p) (bitW 13) else s
      s.modLbp p fun x => { x with
        cont := false,
        burst := some { desc := r.addr.toNat, buf := wordOf (r.rdata.take 4), cap := fldOf w 0 16, wrap := bitOf w 30, count := 0,
                        orphan := orphan, ts := 0, since := 0 } }
    else
      match s.lbp[p].evq with
      | (_, .beat _ _) :: evs =>
        ((s.modLbp p fun x => { x with evq := evs }).incReg (Reg.lbpRxdrop p)).orReg (Reg.lbpStat p) (bitW 14)
      | _ => s
  s.lbpDrain p s.now (s.lbp[p].evq.length + 1)

/-! Slave cycles (R364) -/

/-- A strobe shorter than LBP_TIM.TSTB is ignored. -/
def State.lbpGlitch (s : State) (p : PairId) (width : Nat) : Bool := decide (width < max 1 (s.rfld (Reg.lbpTim p) 8 8))

/-- The address that serves the word address of a cycle, if it lies in the range while the line with the CS role is asserted. -/
def State.lbpServes (s : State) (p : PairId) (a : LbpAddr) (cs : Bool) : Option Nat :=
  let b := s.rfld (Reg.lbpSbase p) 0 24
  if cs && s.lbpHasRole p 3 && decide (b ≤ a.toNat) && decide (a.toNat < b + s.rfld (Reg.lbpSlen p) 0 25) then
    some (((s.reg (Reg.lbpSmem p)).toNat + 4 * (a.toNat - b)) % 2 ^ 32)
  else none

/-- The port sees the cycles of a strobe, role 1 RD or 2 WR (R361). -/
def State.lbpSees (s : State) (p : PairId) (role : Nat) : Bool := s.serves && s.lbpMode p == 2 && s.lbpHasRole p role

/-- A backplane read: READY waits for the word, and the drive of D and READY ends with the strobe. -/
def State.lbpRead (s : State) (p : PairId) (a : LbpAddr) (cs : Bool) (width : Nat) : State :=
  if !s.lbpSees p 1 then s
  else if s.lbpGlitch p width then s.orReg (Reg.lbpStat p) (bitW 10)
  else
    match s.lbpServes p a cs with
    | none => s.modLbp p fun x => { x with ready := false, d := none }
    | some m =>
      let r := s.issueReq (s.lbpMaster p) { addr := BitVec.ofNat 32 m, kind := .read, len := 4, data := [], ordered := false, node := 0 }
      r.1.modLbp p fun x => { x with ready := false, d := none, cyc := some ⟨a.toNat, false, 0, s.now, s.now, some (s.now + width), 0, some r.2, false⟩ }

/-- A backplane write. -/
def State.lbpSlaveWrite (s : State) (p : PairId) (a : LbpAddr) (cs : Bool) (data : Word) (width : Nat) : State :=
  if !s.lbpSees p 2 then s
  else if s.lbpGlitch p width then s.orReg (Reg.lbpStat p) (bitW 10)
  else
    match s.lbpServes p a cs with
    | none => s.modLbp p fun x => { x with ready := false, d := none }
    | some m => (s.lbpWrite p m (bytesOf 4 (s.lbpData p data).toNat) false).1.modLbp p fun x => { x with ready := true, d := none }

/-- The strobe of a cycle has been released. -/
def State.lbpOver (s : State) (c : LbpCycle) : Bool := match c.rel with | some t => decide (t ≤ s.now) | none => false

/-- A request of the channel serves the port: the read of a descriptor, a write-back, or the read of a slave cycle. -/
def Lbp.asks (x : Lbp) (id : Nat) : Bool :=
  x.opens.any (·.1 == id) || x.backs.contains id || (x.a.isNone && (match x.cyc with | some c => c.req == some id | none => false))

/-- A response to the port's channel: the word of a slave read, or a descriptor written back. -/
def State.lbpAnswer (s : State) (p : PairId) (r : Req) : State :=
  let x := s.lbp[p]
  if x.opens.any (·.1 == r.id) then s.lbpOpened p (match x.opens with | some o => o.2 | none => false) r
  else if x.backs.contains r.id then
    (s.modLbp p fun x => { x with backs := x.backs.filter (· != r.id) }).orReg (Reg.lbpStat p) (bitW 8)
  else
    match x.cyc with
    | none => s
    | some c =>
      if c.req ≠ some r.id ∨ x.a.isSome then s
      else
        let s := if r.resp = .okay then s else s.orReg (Reg.lbpStat p) (bitW 11)
        let d := if r.resp = .okay then s.lbpData p (wordOf r.rdata) else 0xFFFF_FFFF
        if s.lbpOver c then s.modLbp p fun x => { x with cyc := none }
        else s.modLbp p fun x => { x with cyc := some { c with done := true }, ready := true, d := some d }

/-! Master cycles (R362, R363) -/

/-- The port whose cycle window holds an address, with the offset in the window. -/
def lbpWindow (a : Nat) : Option (PairId × Nat) :=
  if 0x5010_8000 ≤ a ∧ a < 0x5011_0000 then some (0, a - 0x5010_8000)
  else if 0x5011_8000 ≤ a ∧ a < 0x5012_0000 then some (1, a - 0x5011_8000)
  else none

/-- A waiting window access: it has reached the port and runs in its turn. -/
def Req.atWindow (r : Req) (p : PairId) : Bool :=
  r.stage == .passed && (match lbpWindow r.addr.toNat with | some (q, _) => q == p | none => false)

/-- The access that asked for a cycle is answered. -/
def State.lbpReply (s : State) (req : Option Nat) (c : Resp) (v : Word) : State :=
  match req with
  | some id => s.modReq id fun q =>
      { q with stage := .done, resp := c, rdata := if c = .okay ∧ q.kind = .read then bytesOf 4 v.toNat else [] }
  | none => { s with rdata := if c = .okay then [v] else [] }

/-- A master cycle has ended: A, D and CS are released. -/
def State.lbpIdle (s : State) (p : PairId) : State :=
  s.modLbp p fun x => { x with cyc := none, a := none, d := none, idle := some s.now }

/-- How many fc the strobe of a cycle lasts (R362): TSTB at least, and where a line has the READY role until READY is seen and 1 fc
more; none where READY is not seen in time. -/
def State.lbpStrobe (s : State) (p : PairId) (ready : Option (BitVec 16)) : Option Nat :=
  let n := max 1 (s.rfld (Reg.lbpTim p) 8 8)
  if !s.lbpHasRole p 4 then some n
  else match ready with
    | some k => if k.toNat ≤ max 1 (s.rfld (Reg.lbpMaxw p) 0 16) then some (max n (k.toNat + 1)) else none
    | none => none

/-- The window access that reached the port first (R363). -/
def State.lbpFirst (s : State) (p : PairId) : Option Req :=
  s.mtx.reqs.foldl (fun b r =>
    if r.atWindow p then (match b with | some q => if r.accSeq < q.accSeq then some r else b | none => some r) else b) none

/-- One access to the cycle window starts its cycle, from the fc after the one in which the last cycle ended: the request that waits there
first, or one of its own. A write drives D from the start; the word of a read is what the backplane will give. -/
def State.lbpAccess (s : State) (p : PairId) (x : LbpAccess) : State :=
  if !s.serves || s.lbp[p].cyc.isSome || s.lbp[p].idle == some s.now then s
  else
    let q := s.lbpFirst p
    let off := match q with | some r => r.addr.toNat % 0x8000 | none => x.off.toNat
    let write := match q with | some r => r.kind == .write | none => x.write
    let data := match q with | some r => wordOf r.data | none => x.data
    let id := q.map (·.id)
    if s.lbpMode p ≠ 1 then s.lbpReply id .refuse 0
    else
      let a : LbpAddr := BitVec.ofNat 24 (s.rfld (Reg.lbpWinbase p) 0 24 + off / 4)
      let stb := s.now + max 1 (s.rfld (Reg.lbpTim p) 0 8)
      s.modLbp p fun y => { y with
        a := some a, d := if write then some (s.lbpData p data) else none,
        cyc := some ⟨off, write, if write then 0 else s.lbpData p x.din, s.now, stb, (s.lbpStrobe p x.ready).map (stb + ·),
          max 1 (s.rfld (Reg.lbpTim p) 16 8), id, false⟩ }

/-- A cycle goes on by time (R362–R364): a master read samples D as the strobe is released and is answered; the hold later A, D and CS are
released and a write is answered. A slave cycle ends its drive with the strobe. -/
def State.lbpCycleTick (s : State) (p : PairId) : State :=
  match s.lbp[p].cyc with
  | none => s
  | some c =>
    match c.rel with
    | none => s
    | some t =>
      if s.now < t then s
      else if s.lbp[p].a.isNone then
        let s := s.modLbp p fun x => { x with ready := false, d := none }
        if c.done then s.modLbp p fun x => { x with cyc := none } else s
      else
        let s := if c.write || c.done then s
          else (s.lbpReply c.req .okay c.data).modLbp p fun x => { x with cyc := some { c with done := true } }
        if s.now < t + c.hold then s
        else if c.write then (s.lbpReply c.req .okay c.data).lbpIdle p
        else s.lbpIdle p

/-- The end of an fc at a port: its burst events take their turn (R368). -/
def State.lbpEnd (s : State) (p : PairId) : State := s.lbpDrain p (s.now + 1) (2 * s.lbp[p].evq.length + 1)

/-- READY has not come within LBP_MAXW (R362). -/
def State.lbpTimeout (s : State) (p : PairId) : State :=
  match s.lbp[p].cyc with
  | none => s
  | some c =>
    if s.lbp[p].a.isNone || c.rel.isSome || decide (s.now < c.stb + max 1 (s.rfld (Reg.lbpMaxw p) 0 16)) then s
    else ((s.orReg (Reg.lbpStat p) (bitW 9)).lbpReply c.req .refuse 0).lbpIdle p

/-! LBP_CFG (R361, R382) -/

/-- The port stops: waiting window accesses are refused, and an open descriptor closes as if GAPT had expired. -/
def State.lbpStop (s : State) (p : PairId) (old : Nat) : State :=
  if old = 1 then
    let run := match s.lbp[p].cyc with | some c => c.req | none => none
    (s.mtx.reqs.filter fun r => r.atWindow p && some r.id != run).foldl (fun s r => s.modReq r.id fun q => q.answered .refuse) s
  else
    let s := s.lbpPost p .stop
    if s.lbp[p].cyc.isSome then s else s.modLbp p fun x => { x with ready := false, d := none }

/-- A write of LBP_CFG. -/
def State.lbpConfig (s : State) (p : PairId) (v : Word) : State :=
  let old := s.lbpMode p
  let new := if fldOf v 0 2 = 3 then 0 else fldOf v 0 2
  if old = 0 then
    let s := s.setReg (Reg.lbpCfg p) (v &&& 0xFFF8)
    if new = 0 then s.setFld (Reg.lbpCfg p) 0 2 (fldOf v 0 2)
    else if s.lbpTwice p then s.orReg (Reg.lbpStat p) (bitW 15)
    else ((s.lbpEnd p).setFld (Reg.lbpCfg p) 0 2 new).modLbp p fun x =>
      { x with pos := 0, cont := false, burst := none, opens := none, evq := [] }
  else
    let s := s.setFld (Reg.lbpCfg p) 8 8 (fldOf v 8 8)
    if new = 0 then (s.lbpStop p old).setFld (Reg.lbpCfg p) 0 2 (fldOf v 0 2) else s

/-! The meanings -/

/-- LBP_WINDOW_ACCESS (R363). -/
def execLbpWindowAccess (p : PairId) (acc : LbpAccess) (s : State) : Host.Outcome State Fault Refusal := .next (s.lbpAccess p acc)
/-- LBP_READY_TIMEOUT (R362). -/
def execLbpReadyTimeout (p : PairId) (s : State) : Host.Outcome State Fault Refusal := .next (s.lbpTimeout p)
/-- LBP_SLAVE_READ (R364). -/
def execLbpSlaveRead (p : PairId) (addr : LbpCall) (width : Stall) (s : State) : Host.Outcome State Fault Refusal :=
  .next (s.lbpRead p addr.addr addr.cs width.toNat)
/-- LBP_SLAVE_WRITE (R364). -/
def execLbpSlaveWrite (p : PairId) (addr : LbpCall) (data : Word) (width : Stall) (s : State) : Host.Outcome State Fault Refusal :=
  .next (s.lbpSlaveWrite p addr.addr addr.cs data width.toNat)
/-- LBP_START_STROBE (R365). -/
def execLbpStartStrobe (p : PairId) (s : State) : Host.Outcome State Fault Refusal := .next (s.lbpEvent p .start)
/-- LBP_BEAT (R365). -/
def execLbpBeat (p : PairId) (data : Word) (ts : Stamp) (s : State) : Host.Outcome State Fault Refusal := .next (s.lbpEvent p (.beat data ts))
/-- LBP_END_STROBE (R365). -/
def execLbpEndStrobe (p : PairId) (s : State) : Host.Outcome State Fault Refusal := .next (s.lbpEvent p .done)
/-- LBP_GAP_TIMEOUT (R366). -/
def execLbpGapTimeout (p : PairId) (s : State) : Host.Outcome State Fault Refusal := .next (s.lbpEvent p .gap)
/-- LBP_MODE_CHANGE (R361, R382). -/
def execLbpModeChange (p : PairId) (value : Word) (s : State) : Host.Outcome State Fault Refusal := .next (s.lbpConfig p value)

end Sys2Proof.Machine
end

