-- ==== Sys2Proof/Machine/Bmu.lean ====
section
/-! DEFINITION. The block move unit (R194–R198). -/

namespace Sys2Proof.Machine

/-- Sockets of the unit registers of BMU0 (R110). -/
abbrev sBSRC : Nat := 0x730
abbrev sBDST : Nat := 0x731
abbrev sBCNT : Nat := 0x732
abbrev sBPAT : Nat := 0x733

/-- The element size of a trigger operand (R194). -/
def bmuSize (t : Word) : Nat := match fldOf t 0 2 with | 0 => 1 | 1 => 2 | _ => 4

/-- What each operation reads and writes (R194). -/
def bmuHasSrc (code : Nat) : Bool := code != 2
def bmuHasDst (code : Nat) : Bool := code == 0 || code == 1 || code == 2 || code == 5
def bmuWrites (code : Nat) : Bool := code == 0 || code == 1 || code == 2

/-- The operation ends: BMU.q receives the status word in every BMU result in flight, the stopped operation's first (R195, R198). -/
def State.bmuEnd (s : State) (e : EngId) (status : Word) : State :=
  ((s.deliver e 12 status 0).deliver e 12 status 0).modEng e fun x => { x with bmu := none }

/-- The running operation with some of its fields changed. -/
def State.modBmu (s : State) (e : EngId) (f : BmuOp → BmuOp) : State := s.modEng e fun x => { x with bmu := x.bmu.map f }

/-- An access of an element waits for its answer. -/
def BmuElem.open' (el : BmuElem) : Bool := el.reqs.any (·.resp.isNone) || !el.rest.isEmpty
/-- The far accesses that are outstanding. -/
def BmuOp.outstanding (o : BmuOp) : Nat := (o.elems.filter (·.open')).length
/-- The bytes of the elements in hand. -/
def BmuOp.inHand (o : BmuOp) : Nat := (o.elems.map (·.n)).sum
/-- The element has had all its accesses. -/
def BmuElem.done (el : BmuElem) (code : Nat) : Bool := if bmuHasDst code then el.res.isSome else el.data.isSome
/-- The next access of the element is the one at its destination. -/
def BmuElem.toDst (el : BmuElem) (code : Nat) : Bool := !bmuHasSrc code || el.data.isSome

/-- The operation is decided, with STOP where one has been accepted: its status can be read in the next fc, or in the fc after the last
outstanding access has completed (R197, R198). Where its results are undefined, the status and the registers are free (R9, R199). -/
def State.bmuDecide (s : State) (e : EngId) (status : Word) : State :=
  match (s.eng e).bmu with
  | none => s
  | some o =>
    let f (k : Nat) : Word := Config.freeWord (s.free + k)
    let s := s.modBmu e fun o =>
      { o with fin := some (if o.wild then f 0 else if o.stop then status ||| 2 else status), due := s.now + 1,
               elems := o.elems.filter (·.open') }
    if o.wild then (((s.setPort e sBSRC (f 1)).setPort e sBDST (f 2)).setPort e sBCNT (f 3)).drawn 4 else s

/-- The translation of an element, with BANK and the descriptors as they stood at the trigger, and the first check that it fails: those
of R176–R178, then the region of its last byte (R185, R196). -/
def State.bmuXlat (s : State) (e : EngId) (o : BmuOp) (a : Word) (z need : Nat) : Nat × Nat :=
  let x := xlat (s.rbit (Reg.teCfg e) 8) (s.rbit (Reg.teMemctl e) 0) o.bank (fun d w => o.segs.getD (4 * d + w) 0)
    a 0 z need
  (x.1, if x.2 ≠ 0 then x.2 else if s.regionKey x.1 ≠ s.regionKey ((x.1 + z - 1) % 2 ^ 32) then 8 else 0)

/-- An element goes through a descriptor whose sum wraps (R199). -/
def State.bmuWraps (s : State) (e : EngId) (o : BmuOp) (a : Word) : Bool :=
  let d := fldOf a 29 3
  s.rbit (Reg.teCfg e) 8 && segWraps (o.segs.getD (4 * d) 0) (o.segs.getD (4 * d + 1) 0)

/-- Every unit that some bytes of the own Tile Store touch can be read. -/
def State.unitsGood (s : State) (e : EngId) (a n : Nat) : Bool :=
  !ownWindow e a || !(s.unitsOf 8 a n).any (s.ecc.bad.contains ·)

/-- The bytes that the next step of a copy moves: a 32-byte block of cpyf where both addresses allow it and every element of it can be
copied, else one element (R194, R196). -/
def State.bmuSpan (s : State) (e : EngId) (o : BmuOp) (src dst : Word) (left : Nat) : Nat :=
  let x := s.bmuXlat e o src 32 permR
  let y := s.bmuXlat e o dst 32 permW
  if o.code == 1 && decide (32 ≤ left) && decide (x = (x.1 / 32 * 32, 0)) && decide (y = (y.1 / 32 * 32, 0)) &&
     s.unitsGood e x.1 32 && s.unitsGood e y.1 32 then 32 else o.size

/-- The element after those in hand: a descending copy takes the highest first (R195). -/
def State.bmuFresh (s : State) (e : EngId) (o : BmuOp) : BmuElem :=
  let left := (s.port e sBCNT).toNat * o.size - o.inHand
  let off := BitVec.ofNat 32 (if o.desc then left - o.size else o.inHand)
  let src := s.port e sBSRC + off
  let dst := s.port e sBDST + off
  { n := s.bmuSpan e o src dst left, src := src, dst := dst, data := none, res := none, reqs := [], rest := [], bad := none }

/-- The element whose access comes next: the oldest in hand that has one to make, else the next element while fewer than eight accesses
are outstanding; a copy whose ranges meet takes one element after another. None once the operation is decided, stopped or failing
(R197, R198). -/
def State.bmuNext (s : State) (e : EngId) (o : BmuOp) : Option BmuElem :=
  if o.fin.isSome || o.stop || o.elems.any (·.bad.isSome) then none
  else
    match o.elems.find? fun el => el.reqs.isEmpty && !el.done o.code with
    | some el => some el
    | none =>
      if o.inHand < (s.port e sBCNT).toNat * o.size ∧ o.outstanding < 8 ∧ (o.elems.isEmpty ∨ !o.meets) then some (s.bmuFresh e o)
      else none

/-- Two elements agree under the compare mask: their low 8 × z bits are compared (R194). -/
def BmuOp.same (o : BmuOp) (a b : Nat) : Bool :=
  decide ((a &&& o.mask.toNat) % 2 ^ (8 * o.size) = (b &&& o.mask.toNat) % 2 ^ (8 * o.size))

/-- The element is the one at which the operation stops (R194). -/
def State.bmuFound (s : State) (e : EngId) (o : BmuOp) (el : BmuElem) : Bool :=
  let v := ofBytes (el.data.getD [])
  if o.code = 3 then o.same v (s.port e sBPAT).toNat
  else if o.code = 4 then !o.same v (s.port e sBPAT).toNat
  else if o.code = 5 then !o.same v (ofBytes (el.res.getD []))
  else false

/-- An element or block is done: the registers describe the elements not yet processed (R195). BSRC of a fill and BDST of a scan, which
the operation does not use, stay as they are (DESIGN CHOICE, log 127). -/
def State.bmuAdvance (s : State) (e : EngId) (o : BmuOp) (n : Nat) : State :=
  let s := if o.desc then s else
    let s := if bmuHasSrc o.code then s.setPort e sBSRC (s.port e sBSRC + BitVec.ofNat 32 n) else s
    if bmuHasDst o.code then s.setPort e sBDST (s.port e sBDST + BitVec.ofNat 32 n) else s
  s.setPort e sBCNT (s.port e sBCNT - BitVec.ofNat 32 (n / o.size))

/-- The elements in hand are retired in order (R195–R198): a failed one stops the operation before it with FAULT and its deferred fault
with BMU = 1; a found one with FOUND; the last one ends it; and a stop ends it once nothing is outstanding. `k` bounds their number. -/
def State.bmuRetire (s : State) (e : EngId) : Nat → State
  | 0 => s
  | k + 1 =>
    match (s.eng e).bmu with
    | none => s
    | some o =>
      if o.fin.isSome then s
      else
        match o.elems with
        | [] => if o.stop then s.bmuDecide e 0 else s
        | el :: rest =>
          match el.bad with
          | some (a, info) => (s.bmuDecide e 4).deferred e a (2 ^ 10 + 3 * 2 ^ 6 + info) (kindExc (info % 8))
          | none =>
            if !el.done o.code then (if o.stop && decide (o.outstanding = 0) then s.bmuDecide e 0 else s)
            else if s.bmuFound e o el then s.bmuDecide e 1
            else
              let s := (s.modBmu e fun o => { o with elems := rest }).bmuAdvance e o el.n
              if s.port e sBCNT = 0 then s.bmuDecide e 0 else s.bmuRetire e k

/-- An element whose far access has been answered takes the bytes, or the fault (R196). -/
def BmuElem.settle (el : BmuElem) (code : Nat) : BmuElem :=
  if el.reqs.isEmpty || el.open' then el
  else match el.reqs.find? (·.failed) with
    | some h =>
      let k := match h.resp with | some r => r.code | none => 0
      let bad := (el.reqs.zipIdx.filter (·.1.failed)).map (·.2)
      { el with reqs := [], bad := some (h.addr.toNat, k + halfInfo el.reqs.length bad) }
    | none =>
      let bs := el.reqs.flatMap (·.data)
      if el.toDst code then { el with reqs := [], res := some bs } else { el with reqs := [], data := some bs }

/-- What answers and accesses mean for the operation. -/
def State.bmuSettle (s : State) (e : EngId) : State :=
  (s.modBmu e fun o => { o with elems := o.elems.map (·.settle o.code) }).bmuRetire e 9

/-- Free bytes for an undefined result (R199). -/
def freeBytes (k : Nat) : Nat → List Byte
  | 0 => []
  | n + 1 => Config.freeByte k :: freeBytes (k + 1) n

/-- The bytes that an element writes: the pattern, or what was read; free where the results are undefined (R194, R199). -/
def State.bmuData (s : State) (e : EngId) (o : BmuOp) (el : BmuElem) : List Byte × State :=
  if o.wild then (freeBytes s.free el.n, s.drawn el.n)
  else (match el.data with | some bs => bs | none => bytesOf el.n (s.port e sBPAT).toNat, s)

/-- An element access through the near port (R192, R197, R297): the element after it. -/
def State.bmuNear (s : State) (e : EngId) (el : BmuElem) (sys : Nat) (wr toDst : Bool) (data : List Byte) : BmuElem × State :=
  let ps := splitAt' 8 sys el.n
  let ps := if el.n = 32 then [(sys, 32)] else ps
  let bad (l : List Nat) : Option (Nat × Nat) :=
    l.head?.map fun k => ((ps.getD k (sys, 0)).1, 3 + halfInfo ps.length l)
  if wr then
    let r := ps.zipIdx.foldl (fun (x : List Nat × State) p =>
      let r := x.2.eccWrite e.val p.1.1 p.1.2
      (if r.1 then x.1 ++ [p.2] else x.1, r.2)) ([], s)
    if r.1.isEmpty then ({ el with res := some [] }, r.2.portWrite e true false sys data)
    else ({ el with bad := bad r.1 }, r.2)
  else
    let r := ps.zipIdx.foldl (fun (x : List Nat × List Byte × State) p =>
      let r := x.2.2.nearRead e p.1.1 p.1.2
      (if r.1 then x.1 ++ [p.2] else x.1, x.2.1 ++ r.2.1, r.2.2)) ([], [], s)
    if !r.1.isEmpty then ({ el with bad := bad r.1 }, r.2.2)
    else if toDst then ({ el with res := some r.2.1 }, r.2.2) else ({ el with data := some r.2.1 }, r.2.2)

/-- The requests of an element whose fc has come are issued (R184). -/
def State.bmuPump (s : State) (e : EngId) (el : BmuElem) : BmuElem × State :=
  match el.rest with
  | [] => (el, s)
  | (t, q) :: ps =>
    if s.now < t then (el, s)
    else
      let r := s.issueReq e.val q
      ({ el with reqs := el.reqs ++ [⟨r.2, q.addr, none, []⟩], rest := ps }, r.1)

/-- An element access through the far port (R184, R197): one request, or two in consecutive fc for an element that is split. -/
def State.bmuFar (s : State) (e : EngId) (o : BmuOp) (el : BmuElem) (a : Word) (sys : Nat) (wr : Bool) (data : List Byte) :
    BmuElem × State :=
  let segm := s.rbit (Reg.teCfg e) 8
  let d := fldOf a 29 3
  let spec (p : (Nat × Nat) × Nat) : Nat × ReqSpec :=
    (s.now + p.2,
     { addr := BitVec.ofNat 32 p.1.1, kind := if wr then .write else .read, len := p.1.2,
       data := (data.drop (p.1.1 - sys)).take p.1.2,
       ordered := if segm then bitOf (o.segs.getD (4 * d + 3) 0) 4 else s.rbit (Reg.teMemctl e) 1,
       node := if segm then (o.segs.getD (4 * d + 2) 0).truncate 12 else 0 })
  s.bmuPump e { el with rest := ((if el.n = 32 then [(sys, el.n)] else splitAt' 8 sys el.n).zipIdx).map spec }

/-- The requests of the elements in hand whose fc has come are issued. -/
def State.bmuPumpAll (s : State) (e : EngId) : State :=
  match (s.eng e).bmu with
  | none => s
  | some o =>
    if o.elems.all (·.rest.isEmpty) then s
    else
      let r := o.elems.foldl (fun (y : List BmuElem × State) el => let x := y.2.bmuPump e el; (y.1 ++ [x.1], x.2)) ([], s)
      r.2.modBmu e fun o => { o with elems := r.1 }

/-- The element put in its place: over the one in hand at the same source and destination, else behind the others. -/
def BmuOp.putElem (o : BmuOp) (el : BmuElem) : BmuOp :=
  if o.elems.any fun x => x.src == el.src && x.dst == el.dst then
    { o with elems := o.elems.map fun x => if x.src == el.src && x.dst == el.dst then el else x }
  else { o with elems := o.elems ++ [el] }

/-- The operation whose status has been decided delivers it, once its fc has come and no access is outstanding (R197). -/
def State.bmuFinish (s : State) (e : EngId) : State :=
  match (s.eng e).bmu with
  | none => s
  | some o =>
    match o.fin with
    | some w => if o.due ≤ s.now ∧ o.outstanding = 0 then s.bmuEnd e w else s
    | none => s

/-- The running operation has an element access of the own Tile Store to make: the near port serves it before a fetch (R131). -/
def State.bmuWants (s : State) (e : EngId) : Bool :=
  match (s.eng e).bmu with
  | none => false
  | some o =>
    match s.bmuNext e o with
    | none => false
    | some el =>
      let toDst := el.toDst o.code
      let x := s.bmuXlat e o (if toDst then el.dst else el.src) el.n 0
      decide (o.next ≤ s.now) && ownWindow e x.1 && !(s.vitrines x.1 el.n (toDst && bmuWrites o.code)).1

/-- The offending register of a BMU trigger: one that the operation uses and that is no multiple of the element size (R196); BSRC where
both are (DESIGN CHOICE, log 127). -/
def State.bmuOdd (s : State) (e : EngId) (code z : Nat) : Option (Word × Bool) :=
  if bmuHasSrc code && decide ((s.port e sBSRC).toNat % z ≠ 0) then some (s.port e sBSRC, false)
  else if bmuHasDst code && decide ((s.port e sBDST).toNat % z ≠ 0) then some (s.port e sBDST, bmuWrites code)
  else none

/-- TE_MFINFO of a BMU trigger with cause 0x7 (R191, R200). -/
def State.bmuInfo (s : State) (e : EngId) (a : Word) (wr : Bool) : Nat :=
  2 ^ 14 + b2n wr * 2 ^ 12 + (if s.rbit (Reg.teCfg e) 8 then fldOf a 29 3 else 0) * 2 ^ 8 + 7

/-- Why a BMU trigger has to wait (R134, R136, R188, R197): the row of R134 and the stall event of R423. -/
def State.bmuWhy (s : State) (e : EngId) (code : Nat) : Option (Nat × Nat) :=
  let x := s.eng e
  if (match x.bmu with | none => false | some o => code != 6 || o.code == 6 || o.stop) then some (3, 0x0E)
  else if 256 ≤ s.iftUsed e then some (4, 0x0E)
  else if code ≠ 6 ∧ !x.stores.isEmpty then some (13, 0)
  else none

/-- A BMU trigger has to wait. -/
def State.bmuStall (s : State) (e : EngId) (code : Nat) : Bool := (s.bmuWhy e code).isSome

/-- The pieces of `n` bytes from program address `a` as their system addresses run on: a compact range wraps in its 64 KiB page, a
segmented one goes on in the next descriptor (R176–R178). -/
def bmuPieces (at' : Word → Nat) (page : Nat) : Nat → Word → Nat → List (Nat × Nat)
  | 0, _, _ => []
  | k + 1, a, n =>
    if n = 0 then [] else
      let m := min n (page - a.toNat % page)
      (at' a, m) :: bmuPieces at' page k (a + BitVec.ofNat 32 m) (n - m)

/-- The byte that an address names: the two halves of a Tile Store window name the same bytes (R183), and the low range names those of the
Boot ROM or of the Main Store as SYS_CTL.REMAP says (R285). -/
def State.byteKey (s : State) (a : Nat) : Nat :=
  match s.region (a % 2 ^ 32) with
  | .rom => 0x3000_0000 + a % 0x4_0000
  | _ => memKey (a % 2 ^ 32)

/-- A piece as runs of bytes by their keys, cut where another part of the map can begin. -/
def State.keyRuns (s : State) (x : Nat × Nat) : List (Nat × Nat) :=
  (partsAt 0x4_0000 (x.2 / 0x4_0000 + 2) x.1 x.2).map fun p => (s.byteKey p.1, p.2)

/-- Two pieces share a byte. -/
def State.piecesMeet (s : State) (x y : Nat × Nat) : Bool :=
  (s.keyRuns x).any fun a => (s.keyRuns y).any fun b => decide (a.1 < b.1 + b.2) && decide (b.1 < a.1 + a.2)

/-- The source range and the destination range of an operation share a byte (R195, R199). -/
def State.bmuMeets (s : State) (e : EngId) (o : BmuOp) (n : Nat) : Bool :=
  let page := if s.rbit (Reg.teCfg e) 8 then 2 ^ 29 else 2 ^ 16
  let range (a : Word) : List (Nat × Nat) := bmuPieces (fun a => (s.bmuXlat e o a 1 0).1) page 9 a n
  (range (s.port e sBSRC)).any fun x => (range (s.port e sBDST)).any (s.piecesMeet x)

/-- A BMU trigger that need not wait and passed its check starts its operation, or stops the running one; `d` is the fc by which it is
late (R130, R194–R198). -/
def State.bmuStart (s : State) (e : EngId) (code d : Nat) (t : Word) : State :=
  let running := (s.eng e).bmu
  let s := s.trigger e 12 (s.now + d) 2 1 0 0 false 0
  match running with
  | some _ =>
    (s.modBmu e fun o => { o with stop := true, fin := o.fin.map fun w => if o.wild then w else w ||| 2 }).bmuRetire e 9
  | none =>
    let z := bmuSize t
    let o : BmuOp :=
      { code := code, size := z, desc := false, meets := false, wild := false, bank := s.port e sBANK,
        segs := (List.range 32).map fun i => s.port e (0x1100 + i), mask := s.port e (opO 12), next := s.now + d + 1, stop := false,
        elems := [], fin := if code = 6 ∨ s.port e sBCNT = 0 then some 0 else none, due := s.now + d + 2, frame := s.ofFrame e }
    let meets := bmuHasSrc code && bmuWrites code && s.bmuMeets e o ((s.port e sBCNT).toNat * z)
    s.modEng e fun x => { x with bmu := some { o with
      meets := meets, desc := code == 0 && meets && decide ((s.port e sBSRC).toNat < (s.port e sBDST).toNat),
      wild := code == 1 && meets } }

/-- A BMU trigger by itself: a wait, a precise fault, or the operation. -/
def State.bmuOp (s : State) (e : EngId) (code : Nat) (t : Word) : State :=
  if !s.runs e || (s.eng e).sync.isSome || s.bmuStall e code then s
  else
    match (if code = 6 then none else s.bmuOdd e code (bmuSize t)) with
    | some (a, wr) => s.memFault e a (s.bmuInfo e a wr) 4
    | none => (s.bmuStart e code 0 t).meetSpar e (window 12 + code)

/-! The meanings -/

/-- BMU_CPY (R194). -/
def execBmuCpy (e : EngId) (t : Word) (s : State) : Host.Outcome State Fault Refusal := .next (s.bmuOp e 0 t)
/-- BMU_CPYF (R194). -/
def execBmuCpyf (e : EngId) (t : Word) (s : State) : Host.Outcome State Fault Refusal := .next (s.bmuOp e 1 t)
/-- BMU_FILL (R194). -/
def execBmuFill (e : EngId) (t : Word) (s : State) : Host.Outcome State Fault Refusal := .next (s.bmuOp e 2 t)
/-- BMU_SCAN (R194). -/
def execBmuScan (e : EngId) (t : Word) (s : State) : Host.Outcome State Fault Refusal := .next (s.bmuOp e 3 t)
/-- BMU_SCANN (R194). -/
def execBmuScann (e : EngId) (t : Word) (s : State) : Host.Outcome State Fault Refusal := .next (s.bmuOp e 4 t)
/-- BMU_CMP (R194). -/
def execBmuCmp (e : EngId) (t : Word) (s : State) : Host.Outcome State Fault Refusal := .next (s.bmuOp e 5 t)
/-- BMU_STOP (R198). -/
def execBmuStop (e : EngId) (t : Word) (s : State) : Host.Outcome State Fault Refusal := .next (s.bmuOp e 6 t)

end Sys2Proof.Machine
end

