-- ==== Sys2Proof/Machine/Fetch.lean ====
section
/-! DEFINITION. Fetching the lines of an engine's code (R123–R127, R140, R145, R181, R459). -/

namespace Sys2Proof.Machine

/-- A line is among some lines, there or on its way. -/
def hasLine (ls : List Line) (a : Word) : Bool := ls.any (·.addr == lineOf a)

/-- The next line the fetcher requests: in address order from the issue point, the delay groups' lines first and then the line of
a branch target (R123, R140). -/
def Engine.nextLine (x : Engine) : Option Word :=
  match x.lines.getLast? with
  | none => some (lineOf x.pc)
  | some l =>
    if x.dly = 0 || x.tfetch then some (l.addr + 32)
    else
      match groupsEnd x.lines x.dly x.pc with
      | .inl _ => some (lineOf x.tgt)
      | .inr m => if hasLine x.lines m then none else some (lineOf m)

/-- The line requested is that of a branch target. -/
def Engine.forTarget (x : Engine) : Bool :=
  decide (x.dly ≠ 0) && !x.tfetch && !x.lines.isEmpty &&
  (match groupsEnd x.lines x.dly x.pc with | .inl _ => true | .inr _ => false)

/-- Regions with a fetch path other than the own Tile Store (R124). -/
def Region.fetches : Region → Bool
  | .tile _ => true
  | .main => true
  | .rom => true
  | .qspi => true
  | _ => false

/-- TE_MFINFO of a fetch (R200). -/
def State.fetchInfo (s : State) (e : EngId) (a : Word) (cause : Nat) : Word :=
  BitVec.ofNat 32 (2 ^ 15 + (if s.segm e then fldOf a 29 3 else 0) * 2 ^ 8 + cause)

/-- A part with its bytes or its exception, after `left` near-port fc of its line, or there from model fc `due` on. -/
def fixedPart (off len left due : Nat) (data : Option (List Byte)) (exc : Option (Nat × Word)) : LinePart :=
  { id := none, req := none, off := off, len := len, left := left, due := due, data := data, exc := exc, here := false }

/-- A part of a line through the near port: its bytes as they stand, or an uncorrectable unit (R124, R126). -/
def State.nearPart (s : State) (e : EngId) (off sys len left : Nat) : LinePart × State :=
  let r := s.nearRead e sys len
  (if r.1 then fixedPart off len left 0 none (some (10, 0)) else fixedPart off len left 0 (some r.2.1) none, r.2.2)

/-- A part that raises an exception when a group needs it. -/
def badPart (off exc : Nat) (info : Word) : LinePart := fixedPart off 16 0 0 none (some (exc, info))

/-- Parts of a line through the far port: one matrix request, or two in consecutive fc where its bytes cross a multiple of 256 (R459). -/
def State.farParts (s : State) (e : EngId) (a : Word) (off sys len : Nat) : List LinePart × State :=
  let spec (p : Nat × Nat) : ReqSpec :=
    { addr := BitVec.ofNat 32 p.1, kind := .read, len := p.2, data := [], ordered := s.segm e && s.farOrdered e a, node := 0 }
  let part (p : Nat × Nat) (id : Option Nat) (req : Option (Nat × ReqSpec)) : LinePart :=
    { id := id, req := req, off := off + (p.1 - sys), len := p.2, left := 0, due := 0, data := none, exc := none, here := false }
  match splitAt' 256 sys len with
  | [] => ([], s)
  | p :: ps =>
    let r := s.issueReq e.val (spec p)
    (part p (some r.2) none :: ps.map fun q => part q none (some (s.now + 1, spec q)), r.1)

/-- The requests of a line's parts whose fc has come are issued (R459). -/
def State.pumpParts (s : State) (e : EngId) : List LinePart → List LinePart × State
  | [] => ([], s)
  | p :: ps =>
    match p.req with
    | some (t, q) =>
      if t ≤ s.now then
        let r := s.issueReq e.val q
        let y := r.1.pumpParts e ps
        ({ p with id := some r.2, req := none } :: y.1, y.2)
      else let y := s.pumpParts e ps; (p :: y.1, y.2)
    | none => let y := s.pumpParts e ps; (p :: y.1, y.2)

/-- The same for every line of the queue. -/
def State.pumpLines (s : State) (e : EngId) : State :=
  let r := (s.eng e).lines.foldl (fun (y : List Line × State) l =>
    let p := y.2.pumpParts e l.parts
    (y.1 ++ [{ l with parts := p.1 }], p.2)) ([], s)
  if (s.eng e).lines.any fun l => l.parts.any (·.req.isSome) then r.2.modEng e fun x => { x with lines := r.1 } else s

/-- One 16-byte word of a line in segmented mode (R181, R459); through a wrapping descriptor its bits are free (R9, R199). -/
def State.wordParts (s : State) (e : EngId) (a : Word) (off left : Nat) : List LinePart × State :=
  let w := a + BitVec.ofNat 32 off
  let x := s.xlatNow e w 0 16 permX
  if x.2 ≠ 0 then ([badPart off 3 (s.fetchInfo e w x.2)], s)
  else if s.wildSeg e w then ([fixedPart off 16 0 (s.now + 2) (some (freeBytes s.free 16)) none], s.drawn 16)
  else if s.regionKey x.1 ≠ s.regionKey ((x.1 + 15) % 2 ^ 32) then ([badPart off 4 (s.fetchInfo e w 8)], s)
  else if ownWindow e x.1 then
    let r := s.nearPart e off x.1 16 left
    ([r.1], r.2)
  else if (s.region x.1).fetches then s.farParts e w off x.1 16
  else ([badPart off 5 0], s)

/-- The near-port fc that the two words of a line take (R131, R459): one for a whole line of the own Tile Store, else one for each
32-byte line that a word's bytes touch, none for a word elsewhere. -/
def State.lineCost (s : State) (e : EngId) (a : Word) : Nat × Nat :=
  if !s.segm e then (1, 0)
  else
    let x := (s.xlatNow e a 0 16 permX).1
    let y := (s.xlatNow e (a + 16) 0 16 permX).1
    let c (w : Word) (z : Nat) : Nat := if ownWindow e z && !s.wildSeg e w then (z + 15) / 32 - z / 32 + 1 else 0
    if ownWindow e x && decide (x % 32 = 0) && decide (y = x + 16) && !s.wildSeg e a then (1, 0) else (c a x, c (a + 16) y)

/-- The parts of a line (R181, R459). -/
def State.lineParts (s : State) (e : EngId) (a : Word) : List LinePart × State :=
  let c := s.lineCost e a
  let d0 := c.1
  let d1 := c.1 + c.2
  if !s.segm e then
    let sys := tileAddr e (a.toNat % 0x8_0000)
    let p := s.nearPart e 0 sys 16 d0
    let q := p.2.nearPart e 16 (sys + 16) 16 d1
    ([p.1, q.1], q.2)
  else
    let x := s.xlatNow e a 0 16 permX
    let y := s.xlatNow e (a + 16) 0 16 permX
    if x.2 = 0 ∧ y.2 = 0 ∧ x.1 % 32 = 0 ∧ y.1 = x.1 + 16 ∧ !ownWindow e x.1 ∧ (s.region x.1).fetches ∧ !s.wildSeg e a then
      s.farParts e a 0 x.1 32
    else
      let p := s.wordParts e a 0 d0
      let q := p.2.wordParts e a 16 d1
      (p.1 ++ q.1, q.2)

/-- The system addresses of a line in the own Tile Store, for the checks of R126 and R405. -/
def State.lineNear (s : State) (e : EngId) (a : Word) : List Nat :=
  ([0, 16].map fun o =>
    if s.segm e then (s.xlatNow e (a + BitVec.ofNat 32 o) 0 16 permX).1 else tileAddr e (a.toNat % 0x8_0000 + o)).filter
    (ownWindow e ·)

/-- A line request to the own Tile Store waits while a buffered local store overlaps the line (R126), or while its Vitrine is
being tested. -/
def State.lineWaits (s : State) (e : EngId) (a : Word) : Bool :=
  (s.lineNear e a).any fun sys =>
    (((s.eng e).overlap (keysOf sys 16)).any (!·.far)) || (s.vitrines sys 16 false).1

/-- A line of the queue still needs the near port (R131). -/
def Engine.owesNear (x : Engine) : Bool := x.lines.any fun l => l.parts.any fun p => decide (0 < p.left)

/-- A near-port fc `t` serves the first line that needs one (R131, R459). -/
def nearStep (t : Nat) : List Line → List Line
  | [] => []
  | l :: ls =>
    if l.parts.any fun p => decide (0 < p.left) then
      { l with parts := l.parts.map fun p =>
          if p.left = 0 then p else { p with left := p.left - 1, due := if p.left = 1 then t + 2 else p.due } } :: ls
    else l :: nearStep t ls

/-- The near port serves something else before a fetch: it is taken, or a local store or a BMU element waits while the queue holds
a line (R131). -/
def State.nearBusy (s : State) (e : EngId) : Bool :=
  !s.nearFree e || (((s.eng e).lines.any (·.some')) && (s.drainWaits e || s.bmuWants e))

/-- The fetcher can request a line: the engine issues groups, the queue has a free place, and no entry, SYNC or return is under
way (R123, R147); the line of a branch target is requested in the first fc after the branch's at the earliest (R140). -/
def State.canFetch (s : State) (e : EngId) : Bool :=
  let x := s.eng e
  s.runs e && !x.useq.run && !x.vecWait && x.hold.isNone && decide (x.lines.length < 4) && decide (x.fetchAt ≤ s.now) &&
  !(x.forTarget && decide (x.dly = 2) && decide (x.issued = some s.now))

/-- LINE_FETCH_REQUEST (R123): the next line is requested; a near-port line is there 2 fc later. -/
def State.fetchLine (s : State) (e : EngId) : State :=
  match (s.eng e).nextLine with
  | none => s
  | some a =>
    if !s.canFetch e then s
    else if !(s.lineNear e a).isEmpty && (s.nearBusy e || (s.eng e).owesNear) then s
    else if s.lineWaits e a then
      (s.lineNear e a).foldl (fun s sys =>
        let v := s.vitrines sys 16 false
        if v.1 then v.2.chargeStall e (s.ofFrame e) else v.2) s
    else
      let t := (s.eng e).forTarget
      let n := (s.lineCost e a).1 + (s.lineCost e a).2
      let r := s.lineParts e a
      (if n = 0 then r.2 else r.2.claimNear e s.now).modEng e fun x =>
        let ls := x.lines ++ [{ addr := a, parts := r.1 }]
        { x with lines := if n = 0 then ls else nearStep s.now ls
                 tfetch := x.tfetch || t }

/-- The near port serves a line that still needs it, in an fc in which nothing that goes first has taken it (R131, R459). -/
def State.fetchStep (s : State) (e : EngId) : State :=
  if s.live e && (s.eng e).owesNear && !s.nearBusy e then
    (s.claimNear e s.now).modEng e fun x => { x with lines := nearStep s.now x.lines }
  else s

/-- A fetch waits for the near port while the queue holds no line: it goes first (R131). -/
def State.fetchFirst (s : State) (e : EngId) : Bool :=
  let x := s.eng e
  !(x.lines.any (·.some')) &&
  (x.owesNear || (x.lines.isEmpty && s.canFetch e &&
    (match x.nextLine with | some a => !(s.lineNear e a).isEmpty && !s.lineWaits e a | none => false)))

/-- BMU_ELEMENT_ACCESS: the next access of the operation, through the near port where it lies in the own Tile Store, else a far
transaction; at most one in an fc, the first in the fc after the trigger; a fetch for an empty queue and a buffered local store go before
it (R131, R196, R197). -/
def State.bmuElement (s : State) (e : EngId) : State :=
  match (s.eng e).bmu with
  | none => s
  | some o =>
    match s.bmuNext e o with
    | none => s
    | some el =>
      let toDst := el.toDst o.code
      let wr := toDst && bmuWrites o.code
      let a := if toDst then el.dst else el.src
      let x := s.bmuXlat e o a el.n (if toDst then permW else permR)
      let s' := if s.bmuWraps e o a then s.modBmu e fun o => { o with wild := true } else s
      let put (s : State) (el : BmuElem) : State := (s.modBmu e fun o => { o.putElem el with next := s.now + 1 }).bmuSettle e
      if s.now < o.next || (match (s.eng e).undo with | some u => u.noBmu | none => false) then s
      else if x.2 ≠ 0 then put s' { el with bad := some (x.1, 5) }
      else if ownWindow e x.1 then
        let v := s.vitrines x.1 el.n wr
        if !s.nearFree e || s.fetchFirst e || s.drainWaits e then s
        else if v.1 then v.2.chargeStall e o.frame
        else
          let b := (if wr then s'.bmuData e (match (s'.eng e).bmu with | some o => o | none => o) el else ([], s'))
          let r := ((b.2.vitrines x.1 el.n wr).2.claimNear e s.now).bmuNear e el x.1 wr toDst b.1
          put r.2 r.1
      else
        let b := (if wr then s'.bmuData e (match (s'.eng e).bmu with | some o => o | none => o) el else ([], s'))
        let r := b.2.bmuFar e o el a x.1 wr b.1
        put r.2 r.1

/-- STORE_DRAIN: the oldest local store of an earlier fc drains in the first fc in which the near port serves it (R131, R148). One that a
Vitrine holds takes no fc of the port (R186). -/
def State.storeDrain (s : State) (e : EngId) : State :=
  match (s.eng e).oldestLocal with
  | none => s
  | some (_, t) => if s.live e && s.nearFree e && decide (t.since < s.now) && !s.fetchFirst e then s.drain e else s

/-- A part of a line is settled. -/
def LinePart.settled (p : LinePart) : Bool := decide (p.left = 0) && (p.data.isSome || p.exc.isSome)

/-- LINE_ARRIVAL (R124, R459): lines arrive in the order of their requests, each word of a line on its own. -/
def arriveFirst (now : Nat) : List Line → List Line
  | [] => []
  | l :: ls =>
    if l.whole then l :: arriveFirst now ls
    else { l with parts := l.parts.map fun p =>
            if p.settled && decide (p.due ≤ now) then { p with here := true } else p } :: ls

/-- Lines arrive. After a return with delay groups, the target's line is requested in the fc after the last of their lines is there
(R217). -/
def Engine.arrive (x : Engine) (now : Nat) : Engine :=
  let y := { x with lines := arriveFirst now x.lines }
  if x.retDly && y.forTarget && !x.forTarget then { y with fetchAt := max y.fetchAt (now + 1) } else y

/-- The answer to a line's request (R124): its bytes, or the exception of a group that needs them; the line is available 3 fc after
a load of the region would have its value. -/
def Line.answer (l : Line) (now id : Nat) (c : Resp) (bs : List Byte) : Line :=
  { l with parts := l.parts.map fun p =>
      if p.id = some id then
        (match c with
         | .okay => { p with data := some bs, due := now + 3 }
         | .eccErr => { p with exc := some (10, 0), due := now + 3 }
         | _ => { p with exc := some (5, 0), due := now + 3 })
      else p }

/-! The meanings -/

/-- LINE_FETCH_REQUEST (R123). -/
def execLineFetchRequest (e : EngId) (s : State) : Host.Outcome State Fault Refusal := .next (s.fetchLine e)
/-- STORE_DRAIN (R131, R186). -/
def execStoreDrain (e : EngId) (s : State) : Host.Outcome State Fault Refusal := .next (s.storeDrain e)
/-- BMU_ELEMENT_ACCESS (R197). -/
def execBmuElementAccess (e : EngId) (s : State) : Host.Outcome State Fault Refusal :=
  .next (if s.live e then s.bmuElement e else s)
/-- LINE_ARRIVAL (R124). -/
def execLineArrival (e : EngId) (s : State) : Host.Outcome State Fault Refusal :=
  .next (if s.live e then s.modEng e (·.arrive s.now) else s)

end Sys2Proof.Machine
end

