-- ==== Sys2Proof/Machine/Operands.lean ====
section
/-! DEFINITION. The operand forms of a move: slots, guards, immediates and sockets (R92–R102, R109, R110, R117), what a socket reads
as, what a write to one does, and which sockets are undefined (R119). -/

namespace Sys2Proof.Machine

/-- A move of an issue group (R94, R98): the address of its word, its bus, its fields, the word's long immediate, and whether it is
of the lane-B word. -/
structure Move where
  at'   : Word
  bus   : Nat
  guard : Nat
  src   : Nat
  dst   : Nat
  limm  : Option Word
  laneB : Bool
  deriving DecidableEq, Repr

/-- The long immediate of a word (R98). -/
def wLong (w : Quad) : Option Word :=
  if wLimm w = 1 then some (BitVec.ofNat 32 (wLimmHi w * 2 ^ 28 + wSlot w 3)) else none

/-- The moves of a word in slot order (R94, R95). -/
def movesOf (a : Word) (w : Quad) (laneB : Bool) : List Move :=
  (List.range 4).filterMap fun k =>
    if isMove w k then
      let v := wSlot w k
      some { at' := a, bus := k + (if laneB then 4 else 0), guard := v / 2 ^ 24, src := v / 2 ^ 12 % 2 ^ 12, dst := v % 2 ^ 12,
             limm := wLong w, laneB := laneB }
    else none

/-- The guard holds (R96). -/
def State.guardHolds (s : State) (e : EngId) (g : Nat) : Bool :=
  if g = 0 then true
  else if g < 8 then decide (s.vreg e g ≠ 0)
  else if g = 8 then false
  else decide (s.vreg e (g - 8) = 0)

/-- A short immediate (R97). -/
def shortImm (k : Nat) : Word := BitVec.ofInt 32 (if k < 0xC00 then (k : Int) - 0x800 else (k : Int) - 0x1000)

/-! Sockets -/

/-- The unit and the offset of a socket in a unit window (R110). -/
def unitOfSocket (k : Nat) : Nat := (k - 0x400) / 0x40
def offOfSocket (k : Nat) : Nat := (k - 0x400) % 0x40
/-- A socket lies in the unit windows. -/
def inWindow (k : Nat) : Bool := decide (0x400 ≤ k) && decide (k < 0x800)

/-- The operation codes of a unit (R111, R114, R138, R156, R158, R160, R165, R169, R182, R194). -/
def opDefined (u c : Nat) : Bool :=
  if u < 4 then decide (c ≤ 0x1C)
  else if u < 6 then decide (c ≤ 2)
  else if u < 8 then decide (c ≤ 8)
  else if u = 8 then decide (c ≤ 1)
  else if u = 9 then decide (c ≤ 6)
  else if u < 12 then decide (c % 16 ≤ 0xB)
  else if u = 12 then decide (c ≤ 6)
  else if u = 13 then decide (c ≤ 7) || c == 0x10 || c == 0x11
  else if u = 14 then decide (c ≤ 3) || c == 8 || c == 9
  else decide (c ≤ 4)

/-- Ports of a unit that can be written: trigger port, operand ports, unit registers (R110). -/
def dstPort (u o : Nat) : Bool :=
  if o < 0x20 then opDefined u o
  else o == 0x20 || (o == 0x21 && (u == 6 || u == 7 || u == 9 || u == 10 || u == 11 || u == 14 || u == 15)) ||
       (u == 12 && decide (0x30 ≤ o) && decide (o ≤ 0x33))

/-- Ports of a unit that can be read: result ports, unit registers, frame context (R110). -/
def srcPort (u o : Nat) : Bool :=
  o == 0x28 || (o == 0x29 && (decide (4 ≤ u ∧ u ≤ 8) || u == 14 || u == 15)) ||
  (o == 0x2A && (u == 10 || u == 11 || u == 15)) ||
  (u == 12 && decide (0x30 ≤ o) && decide (o ≤ 0x33)) || (u == 15 && decide (0x30 ≤ o) && decide (o ≤ 0x35))

/-- Special registers listed in R109. -/
def isSpecial (k : Nat) : Bool :=
  decide (0x040 ≤ k ∧ k ≤ 0x046) || decide (0x048 ≤ k ∧ k ≤ 0x04D) || decide (0x050 ≤ k ∧ k ≤ 0x055) ||
  decide (0x058 ≤ k ∧ k ≤ 0x05B) || k == 0x060

/-- The loaded masks of a port, kept for a trigger port under its first socket (R101). -/
def Engine.connOf (x : Engine) (k : Nat) : Half :=
  mapGet (fun _ => 0) x.conn (if offOfSocket k < 0x20 then window (unitOfSocket k) else k)

/-- TE_CONN of a socket (R121, R122): destination mask above source mask. -/
def Engine.connWord (x : Engine) (k : Nat) : Nat :=
  if k < 0x40 then 0xFFFF
  else if k < 0x80 then (if isSpecial k then (if k = 0x060 then 0x0011 else 0x1111) else 0)
  else if k = 0x080 ∨ 0x800 ≤ k then 0x00FF
  else if inWindow k then
    let m := (x.connOf k).toNat
    (if dstPort (unitOfSocket k) (offOfSocket k) then m / 256 * 256 else 0) +
    (if srcPort (unitOfSocket k) (offOfSocket k) then m % 256 else 0)
  else 0

/-- The source of an executed move is defined and connected (R119). -/
def State.srcDefined (s : State) (e : EngId) (m : Move) : Bool :=
  if m.src = 0x080 then m.limm.isSome else ((s.eng e).connWord m.src).testBit m.bus

/-- The destination of an executed move is defined and connected; XIO.t:fend and CTL.t:eret only where they may run (R119). -/
def State.dstDefined (s : State) (e : EngId) (m : Move) : Bool :=
  ((s.eng e).connWord m.dst).testBit (8 + m.bus) &&
  !(m.dst == window 15 + 3 && !s.canFend e) && !(m.dst == window 13 + 0x11 && !s.hnd e)

/-- A trigger port (R104), and the port that a destination names: every code of a trigger port is one port (R105). -/
def isTrigger (k : Nat) : Bool := inWindow k && decide (offOfSocket k < 0x20)
def portOf (k : Nat) : Nat := if isTrigger k then window (unitOfSocket k) else k

/-! Reading -/

/-- The unit and port half of an interlocked result port (R106). -/
def resultPort (k : Nat) : Option (Fin 16 × Bool) :=
  if !inWindow k then none
  else
    let u := unitOfSocket k
    let o := offOfSocket k
    if (o = 0x28 ∨ o = 0x29) ∧ u ≠ 10 ∧ u ≠ 11 ∧ u ≠ 15 then some (Fin.ofNat 16 u, o == 0x29) else none

/-- The LSU of a far result port (R108). -/
def farPort (k : Nat) : Option PairId :=
  if k = window 10 + 0x2A then some 0 else if k = window 11 + 0x2A then some 1 else none

/-- The masks of special registers whose upper or lower bits read zero (R109, R176, R177, R202, R205, R228, R245). -/
def specialMask (k : Nat) : Word :=
  if k = sEPC ∨ k = sETGT then 0xFFFF_FFF0
  else if k = sBANK then 0xFFFF
  else if k = sSEGSEL then 7
  else if k = sLFLG then 0xFF
  else syncMask k
/-- The masks of the words of a descriptor (R177). -/
def segMask (w : Nat) : Word := match w with | 1 => 0x1FFF_FFFF | 2 => 0xFFF | 3 => 0x1F | _ => 0xFFFF_FFFF

/-- The frame-context sockets (R117). -/
def State.frameCtx (s : State) (e : EngId) (o : Nat) : Word :=
  match (s.frames e).run with
  | none => 0
  | some f =>
    match o with
    | 0x30 => BitVec.ofNat 32 f.desc
    | 0x31 => f.arg
    | 0x32 => loW f.phase
    | 0x33 => hiW f.phase
    | 0x34 => loW f.time
    | _ => hiW f.time

/-- The value that a move takes from a defined source. -/
def State.readSocket (s : State) (e : EngId) (m : Move) : Word :=
  let k := m.src
  if k < 0x40 then s.vreg e k
  else if k < 0x80 then
    (if 0x052 ≤ k ∧ k ≤ 0x055 then s.port e (keySeg (s.port e sSEGSEL).toNat (k - 0x052)) else s.port e k)
  else if k = 0x080 then (match m.limm with | some v => v | none => 0)
  else if 0x800 ≤ k then shortImm k
  else
    let u := unitOfSocket k
    let o := offOfSocket k
    if u = 10 ∨ u = 11 then
      (if o = 0x28 then s.port e (keyLq (u - 10)) else
       match farPort k with
       | some n => (match (s.eng e).fq[n] with | v :: _ => v | [] => 0)
       | none => 0)
    else if u = 15 then
      (if 0x30 ≤ o then s.frameCtx e o
       else match (s.eng e).inq with
        | [] => 0
        | q :: _ => if o = 0x28 then q.lo else if o = 0x29 then q.hi else q.hdr)
    else match resultPort k with
      | some (r, hi) => (s.unit e r).value hi
      | none => s.port e k

/-- A source makes its group wait: a result port owed an operation that has not completed, or an empty far queue with a far load
outstanding (R106, R108, R134): the row of the table of R134, and the stall event of R423 that it is charged to. -/
def State.srcStall (s : State) (e : EngId) (k : Nat) : Option (Nat × Nat) :=
  match resultPort k with
  | some (u, hi) => if (s.unit e u).stalls hi then some (1, 0x0A) else none
  | none => match farPort k with
    | some n =>
      if (s.eng e).fq[n].isEmpty && (s.eng e).far.any (fun f => f.lsu == n && f.kind != .write && f.micro.isNone) then some (2, 0x0B)
      else none
    | none => none

/-- What the reads of a group do to a port: a result is marked read, a far queue gives up its head (R106, R108). -/
def State.tookSocket (s : State) (e : EngId) (k : Nat) : State :=
  match resultPort k with
  | some (u, hi) => s.setUnit e u ((s.unit e u).read hi)
  | none => match farPort k with
    | some n =>
      if (s.eng e).fq[n].isEmpty then s.orReg (Reg.teStat e) (bitW 0)
      else s.modEng e fun x => { x with fq := x.fq.set n.val x.fq[n].tail n.isLt }
    | none => s

/-! Writing -/

/-- A move to a sync-class register becomes the pending control write (R146). One group's write to a second such register follows
the steps of R147 for the first. -/
def State.pendWrite (s : State) (e : EngId) (k : Nat) (v : Word) : State :=
  let s := match (s.eng e).pend with
    | some (j, _) => if j = k then s else s.applyPend e
    | none => s
  s.modEng e fun x => { x with pend := some (k, v &&& syncMask k) }

/-- A write of a special register; `sel` is the descriptor that SEGW0–SEGW3 reach (R103, R177). -/
def State.writeSpecial (s : State) (e : EngId) (sel k : Nat) (v : Word) : State :=
  if isSync k then s.pendWrite e k v
  else if k = sLPS 0 then s.setLps e 0 v
  else if k = sLPS 1 then s.setLps e 1 v
  else if 0x052 ≤ k ∧ k ≤ 0x055 then s.setPort e (keySeg sel (k - 0x052)) (v &&& segMask (k - 0x052))
  else s.setPort e k (v &&& specialMask k)

/-- A destination is an operand port or a unit register, which a trigger of the same group sees (R103). -/
def isOperand (k : Nat) : Bool := inWindow k && decide (0x20 ≤ offOfSocket k)

end Sys2Proof.Machine
end

