-- ==== Sys2Proof/Machine/Pcie.lean ====
section
/-! DEFINITION. The PCIe endpoint (R351–R356): inbound requests through master 26, outbound reads of target 29, MSI and the configuration
space. -/

namespace Sys2Proof.Machine

def State.setPcie (s : State) (x : Pcie) : State := { s with pcie := x }

/-- PCIE_STAT.UP. -/
def State.pcieUp (s : State) : Bool := s.rbit Reg.pcieStat 3

/-! Configuration space (R351). The places inside the header and the capabilities are those of the PCI Express Base Specification 2.1, which
R351 names; the order and the offsets of the capabilities are a DESIGN CHOICE (log 134). -/

/-- The byte offsets of the capabilities: Power Management, MSI, PCI Express and Advanced Error Reporting. -/
abbrev pmCap : Nat := 0x40
abbrev msiCap : Nat := 0x50
abbrev expCap : Nat := 0x70
abbrev aerCap : Nat := 0x100

/-- The bits of a configuration dword that the host writes: Command, the BARs of R352, and the controls of the capabilities. -/
def cfgMask (o : Nat) : Word :=
  if o = 0x04 then 0x0000_0547
  else if o = 0x0C then 0x0000_00FF
  else if o = 0x10 then 0xFFC0_0000
  else if o = 0x18 then 0xFC00_0000
  else if o = 0x1C then 0xFFFF_FFFF
  else if o = 0x3C then 0x0000_00FF
  else if o = pmCap + 4 then 0x0000_0003
  else if o = msiCap then 0x0071_0000
  else if o = msiCap + 4 then 0xFFFF_FFFC
  else if o = msiCap + 8 then 0xFFFF_FFFF
  else if o = msiCap + 12 then 0x0000_FFFF
  else if o = msiCap + 16 then 0xFFFF_FFFF
  else if o = expCap + 8 then 0x0000_7FFF
  else if o = aerCap + 8 then 0x003F_F010
  else if o = aerCap + 12 then 0x003F_F010
  else if o = aerCap + 20 then 0x0000_31C1
  else 0

/-- The bits that a write of 1 clears: the error status of Device Status and of AER. -/
def cfgClear (o : Nat) : Word :=
  if o = expCap + 8 then 0x000F_0000 else if o = aerCap + 4 then 0x003F_F010 else if o = aerCap + 16 then 0x0000_31C1 else 0

/-- The value of a dword's written bits after PERST#: relaxed ordering, no snoop and reads of 512 bytes, and the severities of AER. -/
def cfgReset (o : Nat) : Word :=
  if o = expCap + 8 then 0x2810 else if o = aerCap + 12 then 0x0006_2030 &&& 0x003F_F010 else if o = aerCap + 20 then 0x2000 else 0

/-- The bits that read as fixed: the capability list, a Type 0 header of one function, the type of BAR2; D0 and D3hot; 32 maskable 64-bit
vectors; an endpoint with payloads of 256 bytes, ×2 and 5 GT/s. -/
def cfgFixed (o : Nat) : Word :=
  if o = 0x04 then 0x0010_0000
  else if o = 0x18 then 0xC
  else if o = 0x34 then 0x40
  else if o = pmCap then 0x0003_5001
  else if o = msiCap then 0x018A_7005
  else if o = expCap then 0x0002_0010
  else if o = expCap + 4 then 0x8001
  else if o = expCap + 12 then 0x22
  else if o = aerCap then 0x0002_0001
  else 0

/-- The bits of a dword that no rule describes. -/
def cfgOpen (o : Nat) : Word :=
  if o = 0x04 then 0xF900_0000
  else if o = pmCap + 4 then 0xFFFF_FFFC
  else if o = expCap + 4 then 0xFFFF_7FF8
  else if o = expCap + 8 then 0xFFF0_8000
  else if o = expCap + 12 then 0xFFFF_FC00
  else if o = expCap + 16 then 0xFFC0_FFFF
  else if expCap + 16 < o ∧ o < aerCap then 0xFFFF_FFFF
  else if aerCap + 24 ≤ o then 0xFFFF_FFFF
  else 0

def State.cfg (s : State) (o : Nat) : Word := mapGet cfgReset s.pcie.cfg o
def State.setCfg (s : State) (o : Nat) (v : Word) : State := s.setPcie { s.pcie with cfg := mapSet cfgReset s.pcie.cfg o v }

/-- Vendor and device ID, class code and subsystem IDs: of the image, or of the Boot ROM where the image gives none (R351). -/
def State.cfgId (s : State) (o : Nat) : Word :=
  match s.image.bind (·.ids) with
  | some d => if o = 0 then d.dev else if o = 8 then d.cls else d.sub
  | none => Config.romId o

/-- An error is recorded in AER and in Device Status (R353, R379): 0 an Unsupported Request, 1 a Completer Abort, 2 a malformed TLP. -/
def State.aer (s : State) (err : Fin 3) : State :=
  let bits : Word × Word := match err with
    | 0 => (bitW 20, bitW 17 ||| bitW 19)
    | 1 => (bitW 15, bitW 17)
    | 2 => (bitW 18, bitW 18)
  let s := s.orReg Reg.pcieStat (bitW (9 + err.val))
  (s.setCfg (aerCap + 4) (s.cfg (aerCap + 4) ||| bits.1)).setCfg (expCap + 8) (s.cfg (expCap + 8) ||| bits.2)

/-! Inbound (R352, R353) -/

/-- The system address of an offset in a BAR; BAR0 offsets from 0x30_0000 on reach no target. -/
def State.barAddr (s : State) (bar0 : Bool) (o : Nat) : Nat :=
  if bar0 then
    let o := o % 0x40_0000
    if o < 0x20_0000 then 0x5000_0000 + o
    else if o < 0x30_0000 then 0x5100_0000 + (o - 0x20_0000) else 0x5000_0000 + o
  else s.rfld (Reg.pcieWin (o / 0x100_0000 % 4)) 0 8 * 0x100_0000 + o % 0x100_0000

/-- A host request is issued in its parts; in Hold it can wake the device (R20). -/
def State.pcieInbound (s : State) (q : PcieReq) : State :=
  if !s.pcieUp || !s.awake then s
  else if q.bad then s.aer 2
  else if q.len = 0 then s
  else
    let s := s.wakeSource 3 4
    let step (x : State × List (Nat × Option (Resp × List Byte))) (p : Nat × Nat) :
        State × List (Nat × Option (Resp × List Byte)) :=
      let r := x.1.issueReq 26
        { addr := BitVec.ofNat 32 (x.1.barAddr q.bar0 p.1), kind := if q.write then .write else .read, len := p.2,
          data := if q.write then (q.data.drop (p.1 - q.off.toNat)).take p.2 else [], ordered := false, node := 0 }
      (r.1, x.2 ++ [(r.2, none)])
    let r := (partsOf q.len q.off.toNat q.len).foldl step (s, [])
    r.1.setPcie { r.1.pcie with inb := r.1.pcie.inb ++ [⟨q.write, r.2⟩] }

/-- The completion of a read: the data of its parts before the first that failed, with that part's status. -/
def readCpl : List (Nat × Option (Resp × List Byte)) → CplStatus × List Byte
  | [] => (.success, [])
  | (_, some (.okay, bs)) :: ps => let x := readCpl ps; (x.1, bs ++ x.2)
  | (_, some (.decErr, _)) :: _ => (.unsupported, [])
  | _ :: _ => (.abort, [])

/-- A response to master 26 (R353): a failing write part is reported; a request whose parts are all answered is complete. -/
def State.pcieAnswer (s : State) (r : Req) : State :=
  let hit (q : PcieIn) : Bool := q.parts.any (·.1 == r.id)
  match s.pcie.inb.find? hit with
  | none => s
  | some q =>
    let parts := q.parts.map (partTake r.id r.resp r.rdata)
    let s := if q.write && r.resp != .okay then s.aer (if r.resp = .decErr then 0 else 1) else s
    let done := parts.all (·.2.isSome)
    let inb := s.pcie.inb.filterMap fun x =>
      if hit x then (if done then none else some { x with parts := parts }) else some x
    s.setPcie { s.pcie with inb := inb, cpl := if done && !q.write then some (readCpl parts) else s.pcie.cpl }

/-! Outbound (R354) -/

/-- An outbound read ends with a response. -/
def State.pcieOutEnd (s : State) (id : Nat) (c : Resp) (bs : List Byte) : State :=
  let s := s.modReq id fun q => { q with stage := .done, resp := c, rdata := bs.take q.len }
  s.setPcie { s.pcie with out := s.pcie.out.filter (·.1 != id) }

/-- The host address of a byte of the outbound window: PCIE_OBBASE plus its offset (R354). -/
def State.hostAddr (s : State) (a : Word) : DWord :=
  ((s.reg Reg.pcieObbaseHi) ++ (s.reg Reg.pcieObbaseLo)) + (a - 0x7000_0000).setWidth 64

/-- A request accepted at target 29: refused while the link is not up; else the host is sent it, and writes are complete once accepted,
while reads wait for the host. -/
def State.pcieOut (s : State) (r : Req) : State :=
  if !s.pcieUp then s.modReq r.id fun q => q.answered .refuse
  else
    let s := s.setPcie { s.pcie with tlp := some (r.kind == .write, s.hostAddr r.addr, r.len, r.data) }
    if r.kind = .write then s.modReq r.id fun q => q.answered .okay
    else
      let s := s.modReq r.id fun q => { q with stage := .passed }
      s.setPcie { s.pcie with out := s.pcie.out ++ [(r.id, s.now)] }

/-- A host completion answers its outbound read; one whose read no longer waits is late. -/
def State.pcieCompletion (s : State) (c : PcieCpl) : State :=
  if !s.pcie.out.any (·.1 == c.tag) then s.orReg Reg.pcieStat (bitW 12)
  else
    match c.status with
    | .success => s.pcieOutEnd c.tag .okay c.data
    | .unsupported => s.pcieOutEnd c.tag .decErr []
    | _ => s.pcieOutEnd c.tag .refuse []

/-- No completion within PCIE_CPLTO µs. -/
def State.pcieTimeout (s : State) : State :=
  match s.pcie.out with
  | [] => s
  | (id, t) :: _ => if t + 1000 * max 1 (s.reg Reg.pcieCplto).toNat ≤ s.now then s.pcieOutEnd id .refuse [] else s

/-! MSI (R355) -/

/-- MSI is enabled. -/
def State.msiOn (s : State) : Bool := bitOf (s.cfg msiCap) 16

/-- Vector `v` is masked. -/
def State.msiMasked (s : State) (v : MsiId) : Bool := bitOf (s.cfg (msiCap + 16)) v.val

/-- The message of vector `v` is sent, as v AND (n − 1) of the n vectors that the host allocated. -/
def State.msiSend (s : State) (v : MsiId) : State :=
  let n := 2 ^ min 5 (fldOf (s.cfg msiCap) 20 3)
  s.setPcie { s.pcie with msi := some (v.val % n), pend := s.pcie.pend &&& ~~~(bitW v.val) }

/-- Pending vectors whose mask is clear are sent. -/
def State.msiFlush (s : State) : State :=
  forAll (fun (v : MsiId) s =>
    if s.pcieUp && s.msiOn && bitOf s.pcie.pend v.val && !s.msiMasked v then s.msiSend v else s) s

/-- A routed source has asserted (R355). -/
def State.msiSource (s : State) (v : MsiId) : State :=
  let r := s.reg (Reg.pcieMsirt v)
  if !bitOf r 31 || !s.source (fldOf r 0 8) || bitOf s.pcie.seen v.val then s
  else
    let s := s.setPcie { s.pcie with seen := s.pcie.seen ||| bitW v.val }
    if !s.msiOn || !s.pcieUp then s
    else if s.msiMasked v then s.setPcie { s.pcie with pend := s.pcie.pend ||| bitW v.val }
    else s.msiSend v

/-- The levels of the routed sources as seen in this fc: one that deasserts can assert again, and one that asserts while its vector is
not enabled sends nothing later. -/
def State.msiSee (s : State) : State :=
  forAll (fun (v : MsiId) s =>
    let r := s.reg (Reg.pcieMsirt v)
    if !s.source (fldOf r 0 8) then s.setPcie { s.pcie with seen := s.pcie.seen &&& ~~~(bitW v.val) }
    else if !bitOf r 31 then s.setPcie { s.pcie with seen := s.pcie.seen ||| bitW v.val } else s) s

/-- What a configuration dword reads as, but for the bits that no rule describes: the identity, the pending vectors, Link Status with the
width and speed of PCIE_STAT, or the fixed and the written bits. -/
def State.cfgWord (s : State) (o : Nat) : Word :=
  if o = 0 ∨ o = 8 ∨ o = 0x2C then s.cfgId o
  else if o = msiCap + 20 then s.pcie.pend
  else if o = expCap + 16 then
    BitVec.ofNat 32 (s.rfld Reg.pcieStat 0 2 * 2 ^ 20 + (1 + s.rfld Reg.pcieStat 2 1) * 2 ^ 16)
  else s.cfg o ||| cfgFixed o

/-- A host configuration request. Bits that no rule describes read as a free value. -/
def State.pcieConfig (s : State) (write : Bool) (off : CfgOffset) (v : Word) : State :=
  let o := off.toNat / 4 * 4
  if !s.pcieUp then s
  else if write then
    (s.setCfg o ((s.cfg o &&& ~~~(cfgMask o ||| (v &&& cfgClear o))) ||| (v &&& cfgMask o))).msiFlush
  else if cfgOpen o = 0 then { s with rdata := [s.cfgWord o] }
  else
    let d := s.drawWord
    { d.2 with rdata := [(s.cfgWord o &&& ~~~cfgOpen o) ||| (d.1 &&& cfgOpen o)] }

/-! The link (R356) -/

/-- Training has finished, as ×2 or ×1 (R351). -/
def State.pcieTrained (s : State) (width : Nat) (gen2 : Bool) : State :=
  if !s.awake || !s.rbit Reg.pcieCtl 0 || !(width == 1 || width == 2) then s
  else s.setFld Reg.pcieStat 0 4 (width + 4 * b2n gen2 + 8)

/-- A request to target 29 that is outstanding and has no answer yet. -/
def Req.toHost (r : Req) : Bool := r.tgt == some 29 && r.outstanding && r.stage != .done && !r.gone

/-- Every outstanding request to target 29 is answered with REFUSE (R356). -/
def State.hostRefuse (s : State) : State :=
  { s.setPcie { s.pcie with out := [] } with
    mtx := { s.mtx with reqs := s.mtx.reqs.map fun r => if r.toHost then r.answered .refuse else r } }

/-- The link is lost, or PERST# or a Hot Reset arrives. -/
def State.pcieDown (s : State) (perst : Bool) : State :=
  let s := (s.masterReset 26).hostRefuse
  let s := (s.setFld Reg.pcieStat 0 4 0).orReg Reg.pcieStat (bitW 8)
  s.setPcie { s.pcie with inb := [], cfg := if perst then [] else s.pcie.cfg, pend := if perst then 0 else s.pcie.pend }

/-! The meanings -/

/-- PCIE_INBOUND_REQUEST (R353). -/
def execPcieInboundRequest (req : PcieReq) (s : State) : Host.Outcome State Fault Refusal := .next (s.pcieInbound req)
/-- PCIE_COMPLETION (R354). -/
def execPcieCompletion (cpl : PcieCpl) (s : State) : Host.Outcome State Fault Refusal :=
  .next (if s.pcieUp then s.pcieCompletion cpl else s)
/-- PCIE_COMPLETION_TIMEOUT (R354). -/
def execPcieCompletionTimeout (s : State) : Host.Outcome State Fault Refusal := .next s.pcieTimeout
/-- MSI_SEND (R355). -/
def execMsiSend (v : MsiId) (s : State) : Host.Outcome State Fault Refusal := .next (if s.awake then s.msiSource v else s)
/-- PCIE_LINK_RESET (R356). -/
def execPcieLinkReset (perst : Bool) (s : State) : Host.Outcome State Fault Refusal :=
  .next (if s.awake then s.pcieDown perst else s)
/-- PCIE_LINK_UP (R356). -/
def execPcieLinkUp (width : Fin 4) (gen2 : Bool) (s : State) : Host.Outcome State Fault Refusal :=
  .next (s.pcieTrained width.val gen2)
/-- PCIE_CONFIG_REQUEST (R351, R355). -/
def execPcieConfigRequest (write : Bool) (off : CfgOffset) (value : Word) (s : State) : Host.Outcome State Fault Refusal :=
  .next (s.pcieConfig write off value)

end Sys2Proof.Machine
end

