-- ==== Sys2Proof/Machine/Csr.lean ====
section
/-! DEFINITION. The register map as a master meets it: what a 32-bit write and a 32-bit read of each register do (R7, R8, R286). A
register without an effect of its own follows the access codes of its row. -/

namespace Sys2Proof.Machine

/-- A write by access codes alone: RW bits take the value, a 1 clears a W1C bit, every other bit stays (R7, R8). -/
def codeWrite (x : RegRow) (old v : Word) : Word := (old &&& ~~~x.rw &&& ~~~(v &&& x.w1c)) ||| (v &&& x.rw)

/-- A write of the register at `a` by its access codes; an address without a register ignores it (R8). -/
def State.codeReg (s : State) (a : Nat) (v : Word) : State :=
  match Reg.row a with
  | some x => s.setReg a (codeWrite x (s.reg a) v)
  | none => s

/-- The member of a family at offset `o`: `n` members `k` apart from `base` on, and the offset within the member. -/
def member (o base n k : Nat) : Option (Nat × Nat) :=
  if base ≤ o ∧ o < base + n * k then some ((o - base) / k, (o - base) % k) else none

/-- An action, where a condition holds. -/
def State.on (s : State) (c : Bool) (f : State → State) : State := if c then f s else s

/-- A write of SYS_BOOTOK: one value confirms the start (R395). -/
def State.confirm (s : State) (v : Word) : State :=
  if v = 0xA5C3 then
    { (s.orReg Reg.sysBootst (bitW 9)).setFld Reg.sysBootst 0 2 0 with boot := { s.boot with window := none, unconf := false } }
  else s

/-- A write of SYS_BOOTMBX3.GO, for which the Boot ROM waits (R390, R402). -/
def State.mailboxGo (s : State) : State :=
  match s.boot.wait with | some (1, _) => { s with boot := { s.boot with go := true } } | _ => s

/-- FSCLR (R402): the count of failed starts is cleared. -/
def State.failedClear (s : State) : State := s.setFld Reg.sysBootst 0 2 0

/-! Writes, block by block -/

/-- A write in one DMA channel (R375, R383): DMA_CTL of one that serves a Legacy Bus Port ignores it. -/
def State.dmaWrite (s : State) (c : ChanId) (o a : Nat) (v : Word) : State :=
  if s.dmaLent c && o == 0x10 then s
  else if o < 0x10 then (if s.dmaOn c then s else s.codeReg a v)
  else if o = 0x10 then
    if bitOf v 30 then (s.codeReg a v).dmaAbort c else if bitOf v 31 then s.dmaGo c v else s.codeReg a v
  else s.codeReg a v

/-- A write in the SYS block (R221, R301, R402, R412). -/
def State.sysWrite (s : State) (a : Nat) (v : Word) : State :=
  match member a Reg.sysId 1 0x1_0000 with
  | some (_, o) =>
    if o = 0x4 then (s.remapWrite (bitOf v 0)).on (bitOf v 1) (·.orReg Reg.sysCtl (bitW 1))
    else if o = 0x10 then s.confirm v
    else if o = 0x14 then (if s.rbit Reg.sysCtl 1 then s else s.codeReg a v)
    else if o = 0x18 then
      if fldOf v 16 16 = 0x6B1D then
        let s := s.on (bitOf v 1) State.failedClear
        if bitOf v 0 then
          { s with boot := { s.boot with unconf := s.boot.unconf && !bitOf v 1 } }.beginDue 2
        else s
      else s
    else if o = 0x2C then s.on (bitOf v 0) State.mailboxGo
    else if o = 0x40 then s.swiSet v
    else if o = 0x44 then s.codeReg a (v &&& ~~~(heldBits s.swiAt s.now))
    else if o = 0x230 then
      match sysStore (fldOf v 2 2) with
      | some k => (s.on (bitOf v 0) (·.injectCe k)).on (bitOf v 1) (·.injectUe k)
      | none => s
    else match member o 0x400 8 0x20 with
      | some (c, r) => s.dmaWrite (Fin.ofNat 8 c) r a v
      | none => s.codeReg a v
  | none => s

/-- A write in the PWR block (R20, R412, R444). -/
def State.pwrWrite (s : State) (a : Nat) (v : Word) : State :=
  if a = Reg.pwrCtl then
    match fldOf v 0 3 with
    | 0 => s.powerRequest none
    | 1 => s.powerRequest (some .hold)
    | 2 => s.powerRequest (some .retain)
    | 3 => s.powerRequest (some .off)
    | 4 => s.wakeHold 6
    | _ => s
  else s.codeReg a v

/-- A write in the CLK block (R440, R445). -/
def State.clkWrite (s : State) (a : Nat) (v : Word) : State :=
  (s.codeReg a v).on (a == Reg.clkCtl) (·.refSwitch (bitOf v 0))

/-- A write in the ANG block (R48–R50, R54, R55). -/
def State.angWrite (s : State) (a : Nat) (v : Word) : State :=
  if a = Reg.angInj then
    s.modBase (Fin.ofNat 8 (fldOf v 0 3)) fun x =>
      { x with injRej := x.injRej || bitOf v 6, injIll := x.injIll || bitOf v 5, injLs := x.injLs || bitOf v 4 }
  else match member a (Reg.abCtl 0) 8 0x80 with
    | none => s
    | some (n, o) =>
      let b : BaseId := Fin.ofNat 8 n
      let on := s.abEn b
      if o = 0 then
        let s := s.setReg a ((s.reg a &&& 1) ||| (v &&& 0xFF08))
        let s := s.on (bitOf v 1) (·.stagedArm b)
        let s := s.on (bitOf v 2) (·.clrReg (Reg.abStat b) (bitW 5))
        if bitOf v 0 then s.baseEnable b else if on then s.baseDisable b else s
      else if on && (o == 4 || o == 0xC || o == 0x44) then s
      else if on && (o == 0x38 || o == 0x3C) && s.abSrc b != 6 then s
      else s.codeReg a v

/-- A write in one ring's registers (R58, R91). A change of INVSAFE or GROUP while the base is invalid acts at once (R72). -/
def State.ringWrite (s : State) (r : BaseId) (o a : Nat) (v : Word) : State :=
  let on := s.rbit (Reg.almRctl r) 0
  if o = 0 then
    let new := decide (s.reg a &&& 0x704 ≠ v &&& 0x704)
    let s := s.setReg a ((s.reg a &&& 1) ||| (v &&& 0x706))
    let s := if bitOf v 0 then s.ringEnable r else if on then s.ringDisable r else s
    if new then s.invSafe r else s
  else if on && (o == 4 || o == 8) then s
  else s.codeReg a v

/-- A write in the ALM block (R85, R91). -/
def State.almWrite (s : State) (a : Nat) (v : Word) : State :=
  if a = Reg.almCtl then
    let s := s.setReg a ((s.reg a &&& 1) ||| (v &&& 0xFF02))
    if bitOf v 0 then s.almEnable else if s.rbit a 0 then s.almDisable else s
  else if a = Reg.almInj then
    let e : EngId := Fin.ofNat 16 (fldOf v 8 4)
    let f := s.frames e
    let s := s.on f.run.isSome (·.setFrames e { f with injG := f.injG || bitOf v 19, injD := f.injD || bitOf v 18 })
    let s := s.on (bitOf v 17) fun s => { s with alm := { s.alm with injLs := true } }
    s.on (bitOf v 16) (·.modPin (Fin.ofNat 64 (fldOf v 0 6)) fun x => { x with injRb := true })
  else if a = Reg.almRberrLo ∨ a = Reg.almRberrHi then s.rbRelease (a == Reg.almRberrHi) v
  else match member a (Reg.almGrpLo 0) 8 8 with
    | some (g, _) => (s.codeReg a v).groupJoin g
    | none =>
      match member a (Reg.almRctl 0) 8 0x20 with
      | some (r, o) => s.ringWrite (Fin.ofNat 8 r) o a v
      | none => s.codeReg a v

/-- A write in one counter's registers (R273–R279, R284). -/
def State.wcWrite (s : State) (m : WcId) (o a : Nat) (v : Word) : State :=
  if o = 0 then
    let s := s.codeReg a v
    let s := s.on (bitOf v 3) (·.wcArmDo m)
    let s := s.on (bitOf v 4) (·.clrReg (Reg.wcStat m) (bitW 5))
    s.wcByWrite m ((if bitOf v 2 then [.reset] else []) ++ (if bitOf v 1 then [.stop] else []) ++
      if bitOf v 0 then [.start] else [])
  else if o = 4 then
    if s.wcRun m then s else (s.wcKeep m false).codeReg a (if m.val % 2 = 0 then v &&& ~~~(bitW 16) else v)
  else if o = 0x14 then s.wcPeriod m v
  else if o = 0x1C then s.wcLinkWrite m v
  else match member o 0x20 4 4 with
    | some (k, _) => s.wcCompare m (Fin.ofNat 4 k) v
    | none => (s.wcKeep m false).codeReg a v

/-- A write in the TMR block (R268, R269, R284). A change of ROLE clears SYNCD, and the wait for frames starts again. -/
def State.tmrWrite (s : State) (a : Nat) (v : Word) : State :=
  if a = Reg.tmrTbctl then
    let old := s.rfld a 0 2
    ((s.codeReg a v).on (old != fldOf v 0 2) fun s =>
      { s.clrReg Reg.tmrTbstat (bitW 0) with time := { s.time with quiet := 0 } }).almSeesAll s
  else if a = Reg.tmrTbcmpHi then { s.setReg a v with time := { s.time with cmpArm := true } }
  else if a = Reg.tmrGstart then s.wcMask v .start
  else if a = Reg.tmrGstop then s.wcMask v .stop
  else if a = Reg.tmrGreset then s.wcMask v .reset
  else match member a (Reg.wcCtl 0) 32 0x40 with
    | some (m, o) => s.wcWrite (Fin.ofNat 32 m) o a v
    | none => s.codeReg a v

/-- MTX_INJ (R315): the next request of the master gets the response. -/
def State.mtxInject (s : State) (v : Word) : State :=
  match respOfCode (fldOf v 8 3) with
  | some c =>
    let m := fldOf v 0 6
    { s with mtx := { s.mtx with inj := s.mtx.inj.filter (·.1 != m) ++ [(m, c)] } }
  | none => s

/-- A write in the MTX block (R313, R315). -/
def State.mtxWrite (s : State) (a : Nat) (v : Word) : State :=
  if a = Reg.mtxMrst then
    let m := fldOf v 0 6
    if 18 ≤ m ∧ m ≤ 32 then s.masterReset m else s
  else if a = Reg.mtxInj then s.mtxInject v
  else s.codeReg a v

/-- A write in the CUR block (R405, R409, R412). -/
def State.curWrite (s : State) (a : Nat) (v : Word) : State :=
  if a = Reg.curInj then s.on (bitOf v 0) fun s => { s with cur := { s.cur with injM := true } }
  else match member a (Reg.curNb 0) 192 4 with
    | some (w, _) => s.neverBorrow w v
    | none => s.codeReg a v

/-- A write in the ERR block (R417). -/
def State.errWrite (s : State) (a : Nat) (v : Word) : State :=
  if a = Reg.errPop then s.on (bitOf v 0) State.errPop else s.codeReg a v

/-- A write in a Hatorlink port's block (R322, R341, R345). -/
def State.hlWrite (s : State) (a : Nat) (v : Word) : State :=
  match member a (Reg.hlCtl 0) 4 0x1_0000 with
  | none => s
  | some (n, o) =>
    let p : PortId := Fin.ofNat 4 n
    if o = 0 then
      let on := s.rbit a 0
      let s := s.setReg a ((s.reg a &&& 1) ||| (v &&& 0xFF02))
      let s := if bitOf v 0 then (if on then s else s.hlEnable p) else if on then s.hlDisable p else s
      s.on (bitOf v 2) (·.hlRetrain p)
    else if o = 0x40 then
      s.modHlPort p fun x =>
        { x with injAck := x.injAck || bitOf v 4, injNode := x.injNode || bitOf v 3, injUnk := x.injUnk || bitOf v 2
                 injSeq := x.injSeq || bitOf v 1, injCrc := x.injCrc || bitOf v 0 }
    else s.codeReg a v

/-- A write in the PCIE block (R351, R379): EN = 0 takes a link down. -/
def State.pcieWrite (s : State) (a : Nat) (v : Word) : State :=
  (s.codeReg a v).on (a == Reg.pcieCtl && !bitOf v 0 && s.pcieUp) (·.pcieDown false)

def State.modEth (s : State) (m : PairId) (f : Eth → Eth) : State := { s with eth := s.eth.set m.val (f s.eth[m]) m.isLt }

/-- A clause 22 access of the PHY (R357, R379): BUSY lasts as long as it does, and a read then gives what the PHY holds. A write while an
access runs is ignored: DESIGN CHOICE (log 127). -/
def State.mdio (s : State) (m : PairId) (v : Word) (phy : MdioPhy) : State :=
  if s.eth[m].mdio.isSome then s
  else
    let w := if bitOf v 30 then v &&& 0x43FF_FFFF else (v &&& 0x43FF_0000) ||| phy.data.setWidth 32
    (s.setReg (Reg.ethMdio m) (bitW 31 ||| (v &&& 0x43FF_FFFF))).modEth m fun x => { x with mdio := some (s.now + phy.lasts.toNat + 1, w) }

/-- The MDIO access in progress ends (R379). -/
def State.mdioEnd (s : State) (m : PairId) : State :=
  match s.eth[m].mdio with
  | some (t, w) => if t ≤ s.now then (s.setReg (Reg.ethMdio m) w).modEth m fun x => { x with mdio := none } else s
  | none => s

/-- A write in an Ethernet block (R357, R358, R379). A new ring base starts its ring; what a PHY that is read through a plain register
write answers is free. -/
def State.ethWrite (s : State) (a : Nat) (v : Word) : State :=
  match member a (Reg.ethCtl 0) 2 0x1_0000 with
  | none => s
  | some (n, o) =>
    let m : PairId := Fin.ofNat 2 n
    if o = 0x10 then (s.codeReg a v).modEth m fun x => { x with tx := 0 }
    else if o = 0x14 then (s.codeReg a v).modEth m fun x => { x with rx := 0 }
    else if o = 0x1C then let d := s.drawWord; d.2.mdio m v ⟨d.1.truncate 16, (d.1 >>> 16).truncate 16⟩
    else s.codeReg a v

/-- A write in a backplane block (R382). -/
def State.lbpRegWrite (s : State) (a : Nat) (v : Word) : State :=
  match member a (Reg.lbpCfg 0) 2 0x1_0000 with
  | none => s
  | some (n, o) =>
    let p : PairId := Fin.ofNat 2 n
    if o = 0 then s.lbpConfig p v
    else if (o == 8 || o == 0x10 || o == 0x14) && s.lbpMode p != 0 then s
    else s.codeReg a v

/-- What a bus answers to a transfer that a plain register write starts: free, as the outside is not part of that command. -/
def State.freeBus (s : State) : I2cBus × State :=
  let d := s.drawWord
  (⟨bitOf d.1 0, fldOf d.1 8 8, [], bitOf d.1 1, bitOf d.1 2⟩, d.2)

/-- A QSPI_CMD write through a plain register write (R372): what the flash does on the word is free, as is how long it takes. -/
def State.flashFree (s : State) (v : Word) : State :=
  let d := s.drawWord
  let n := fldOf (d.1 ^^^ v) 0 8
  ({ d.2 with free := d.2.free + n }).flashDo (.program (fldOf d.1 8 24) (freeBytes d.2.free n))

/-- A write in the SIO block (R371, R372, R380, R381). CPM, CS, SPI_FMT and SPI_DATA of SPI0 are not used (R380): DESIGN CHOICE (log 127),
they hold no written value and read zero. -/
def State.sioWrite (s : State) (a : Nat) (v : Word) : State :=
  match member a (Reg.uartCtl 0) 4 0x100 with
  | some (n, o) =>
    let u : PortId := Fin.ofNat 4 n
    if o = 0xC then s.uartSend u (v.truncate 8) else (s.codeReg a v).on (o == 0) (·.uartStart u)
  | none =>
    match member a (Reg.spiCtl 0) 4 0x100 with
    | some (0, o) =>
      if o = 0 then s.setReg a ((s.reg a &&& 0x7C) ||| (v &&& 0xFFFF_FF01))
      else if o = 0x10 then s.flashFree v
      else if o = 0x14 ∨ o = 0x18 then s
      else s.codeReg a v
    | some (n + 1, o) =>
      let k : SpiId := Fin.ofNat 3 n
      if o = 0x18 then s.spiWrite k v
      else if o = 0 then s.spiControl k v
      else if o = 0x14 then s.spiFormat k v
      else if o = 4 then s.codeReg a v
      else s
    | none =>
      match member a (Reg.i2cCtl 0) 2 0x100 with
      | some (n, o) =>
        let i : PairId := Fin.ofNat 2 n
        if o = 0 then (s.codeReg a v).i2cControl i
        else if o = 0x10 then let d := s.freeBus; d.2.i2cCommand i v d.1
        else if o = 0x14 then s.i2cWrite i (v.truncate 8)
        else s.codeReg a v
      | none => s

/-- A write in the GPIO block (R369, R374, R412). -/
def State.gpioWrite (s : State) (a : Nat) (v : Word) : State :=
  match member a (Reg.gpioDir 0) 4 0x20 with
  | some (g, o) => (s.codeReg a v).on (decide (o < 0xC)) (·.gpioSampleAll s g)
  | none =>
    if a = Reg.gpioEvoutLo then s.evOut false v
    else if a = Reg.gpioEvoutHi then s.evOut true v
    else if a = Reg.encBrk then s.brkClear v
    else if a = Reg.gpioInj then
      let r := fldOf v 0 5
      if h : r < 24 then s.on (bitOf v 5) (·.injectBrk ⟨r, h⟩) else s
    else s.codeReg a v

/-- A write in the PERF block (R426, R427); the window of an absent engine holds nothing. -/
def State.perfRegWrite (s : State) (a : Nat) (v : Word) : State :=
  match member a (Reg.perfCtl 0) 16 0x100 with
  | none => s
  | some (n, o) =>
    let e : EngId := Fin.ofNat 16 n
    if !s.present e then s
    else match member o 0x10 8 0xC with
      | some (k, r) =>
        if r = 4 then s.perfWrite e (Fin.ofNat 8 k) v else if r = 8 then s.perfHold e (Fin.ofNat 8 k) v else s.codeReg a v
      | none => s.codeReg a v

/-- A write in an engine's block (R178, R200, R246, R412–R414); a flag of TE_CUSTAT that this fc has set stays (R174). -/
def State.teWrite (s : State) (a : Nat) (v : Word) : State :=
  let e : EngId := Fin.ofNat 16 (a / 0x1_0000)
  let o := a % 0x1_0000
  if !s.present e then s
  else if o = 0x24 then s.codeReg a (v &&& ~~~(heldBits (s.eng e).custAt s.now))
  else if o = 0x30 then s.codeReg a (if s.rbit Reg.sysCtl 1 then (v &&& ~~~(bitW 0)) ||| (s.reg a &&& bitW 0) else v)
  else if o = 0x300 then s.wdControl e v
  else if o = 0x30C then s.on (v == 0xC35A) (·.wdKick e)
  else if o = 0x314 then
    let st := teStore e (bitOf v 2)
    let s := (s.on (bitOf v 0) (·.injectCe st)).on (bitOf v 1) (·.injectUe st)
    s.modEng e fun x =>
      { x with injSpar := x.injSpar || bitOf v 4, wdgDue := if bitOf v 5 && x.wdgDue.isNone then some (s.now + 1) else x.wdgDue
               injBpar := if bitOf v 3 then some (Fin.ofNat 8 (fldOf v 8 3)) else x.injBpar }
  else if o = 0x124 then
    s.modEng e fun x => { x with useq := { x.useq with injM := x.useq.injM || bitOf v 1, injI := x.useq.injI || bitOf v 0 } }
  else s.codeReg a v

/-- A 32-bit write of the register at `a` (R7, R286). -/
def State.csrWrite (s : State) (a : Nat) (v : Word) : State :=
  if a % 4 ≠ 0 then s
  else if 0x5100_0000 ≤ a ∧ a < 0x5110_0000 then s.teWrite a v
  else match a / 0x1_0000 with
    | 0x5000 => s.sysWrite a v
    | 0x5001 => s.pwrWrite a v
    | 0x5002 => s.clkWrite a v
    | 0x5003 => s.angWrite a v
    | 0x5004 => s.almWrite a v
    | 0x5005 => s.tmrWrite a v
    | 0x5006 => s.mtxWrite a v
    | 0x5007 => s.curWrite a v
    | 0x5008 => s.errWrite a v
    | 0x5009 => s.hlWrite a v
    | 0x500A => s.hlWrite a v
    | 0x500B => s.hlWrite a v
    | 0x500C => s.hlWrite a v
    | 0x500D => s.pcieWrite a v
    | 0x500E => s.ethWrite a v
    | 0x500F => s.ethWrite a v
    | 0x5010 => s.lbpRegWrite a v
    | 0x5011 => s.lbpRegWrite a v
    | 0x5012 => s.sioWrite a v
    | 0x5013 => s.gpioWrite a v
    | 0x5014 => s.perfRegWrite a v
    | _ => s

/-! Reads -/

/-- The bits of AB_SRC1 that the source in force lists (R55). -/
def src1Mask (src : Nat) : Word :=
  match src with
  | 2 => 0xFFF0_1FFF
  | 4 => 0x00FF_FF1F
  | 5 => 0x0000_7FFF
  | 6 => 0xFFFF_FFFF
  | _ => 0

/-- The bits of AB_SRC2 that the source in force lists (R55). -/
def src2Mask (src : Nat) : Word := if src = 2 ∨ src = 5 ∨ src = 6 then 0xFFFF_FFFF else 0

/-- AB_STAT as it reads: VALID, DIR, CLAMP and LOCK as they stand (R54). -/
def State.abStatRead (s : State) (b : BaseId) : Word :=
  (s.reg (Reg.abStat b) &&& 0xFFF0) |||
  BitVec.ofNat 32 (b2n (s.abValid b) + b2n (s.abReverse b) * 2 + b2n ((s.phaseAt b s.stamp).2) * 4 + b2n (s.abLock b) * 8)

/-- A read in the ANG block (R25, R53–R55). -/
def State.angRead (s : State) (a : Nat) : Word × State :=
  if a = Reg.angSum then
    (BitVec.ofNat 32 (((List.range 8).map fun n => b2n (s.flagged (Reg.abStat n) (Reg.abCtl n)) * 2 ^ n).sum), s)
  else match member a (Reg.abCtl 0) 8 0x80 with
    | none => (s.reg a, s)
    | some (n, o) =>
      let b : BaseId := Fin.ofNat 8 n
      if o = 8 then (s.abStatRead b, s)
      else if o = 0x10 then s.phaseRead b .phase
      else if o = 0x18 then s.phaseRead b .velocity
      else if o = 0x20 then s.phaseRead b .edge
      else if o = 0x38 then (s.reg a &&& src1Mask (s.abSrc b), s)
      else if o = 0x3C then (s.reg a &&& src2Mask (s.abSrc b), s)
      else (s.reg a, s)

/-- ALM_FST of an engine (R91). -/
def State.almFst (s : State) (e : EngId) : Word :=
  let f := s.frames e
  BitVec.ofNat 32 (b2n f.run.isSome * 2 ^ 31 + f.q.length * 2 ^ 16 + match f.run with | some r => r.desc | none => 0)

/-- A read in the ALM block (R91). -/
def State.almRead (s : State) (a : Nat) : Word :=
  if a = Reg.almStat then
    (s.reg a &&& 0xFF00) ||| BitVec.ofNat 32 (b2n ((List.finRange 8).any s.ringActs) * 2 + b2n s.elDrop)
  else match member a (Reg.almFst 0) 16 0x10 with
    | some (e, 0) => s.almFst (Fin.ofNat 16 e)
    | _ => s.reg a

/-- A read in the TMR block (R266, R268, R278, R281). -/
def State.tmrRead (s : State) (a : Nat) : Word × State :=
  if a = Reg.tmrTblo then s.tbRead
  else if a = Reg.tmrTbstat then ((s.reg a &&& ~~~(bitW 0)) ||| boolW s.syncd, s)
  else match member a (Reg.wcCtl 0) 32 0x40 with
    | some (m, o) => if o = 0xC then s.wcRead (Fin.ofNat 32 m) else (s.reg a, s)
    | none =>
      match member a (Reg.capCfg 0) 32 0x20 with
      | some (n, o) =>
        if o = 8 then s.capRead (Fin.ofNat 32 n) false
        else if o = 0x10 then s.capRead (Fin.ofNat 32 n) true
        else (s.reg a, s)
      | none => (s.reg a, s)

/-- MTX_MSTAT of a master (R315). -/
def State.mstat (s : State) (m : Nat) : Word :=
  BitVec.ofNat 32 ((s.mtx.reqs.filter fun r => r.m == m && (r.stage == .held || r.stage == .waiting)).length * 2 ^ 8 +
    s.outstanding m)

/-- Requests that a target has accepted and holds. -/
def State.accepted (s : State) (t : Nat) : Nat :=
  (s.mtx.reqs.filter fun r => r.tgt == some t && (r.stage == .accepted || r.stage == .passed || r.stage == .dropped true)).length

/-- A read in the MTX block (R315). -/
def State.mtxRead (s : State) (a : Nat) : Word :=
  match member a (Reg.mtxMstat 0) 33 4 with
  | some (m, _) => s.mstat m
  | none =>
    match member a (Reg.mtxTstat 0) 30 4 with
    | some (t, _) => BitVec.ofNat 32 (s.accepted t)
    | none => s.reg a

/-- A read in the SIO block (R371, R372, R379–R381). -/
def State.sioRead (s : State) (a : Nat) : Word × State :=
  match member a (Reg.uartCtl 0) 4 0x100 with
  | some (n, o) =>
    let u : PortId := Fin.ofNat 4 n
    if o = 0xC then s.uartRead u
    else if o = 4 then
      ((s.reg a &&& 0x1F00) ||| BitVec.ofNat 32 (s.uart[u].rx.length + s.uart[u].tx.length * 2 ^ 16), s)
    else (s.reg a, s)
  | none =>
    match member a (Reg.spiCtl 0) 4 0x100 with
    | some (0, o) =>
      if o = 0 then (s.reg a ||| bitW 2, s)
      else if o = 0xC then
        (BitVec.ofNat 32 ((if Config.flashSfdp then Config.flashDensity.toNat * 2 ^ 8 else 1) + b2n s.qspiBusy * 2), s)
      else if o = 4 ∨ o = 8 then (s.reg a, s)
      else (0, s)
    | some (n + 1, o) =>
      let k : SpiId := Fin.ofNat 3 n
      if o = 0x18 then s.spiRead k
      else if o = 4 then
        ((s.reg a &&& 0x1F00) |||
         BitVec.ofNat 32 (s.spi[k].rx.length + s.spi[k].tx.length * 2 ^ 16 + b2n (s.spiBusy k) * 2 ^ 7), s)
      else if o = 0 ∨ o = 0x14 then (s.reg a, s)
      else (0, s)
    | none =>
      match member a (Reg.i2cCtl 0) 2 0x100 with
      | some (n, o) =>
        let i : PairId := Fin.ofNat 2 n
        if o = 0x14 then s.i2cRead i
        else if o = 4 then
          ((s.reg a &&& 0xFF00) |||
           BitVec.ofNat 32 (s.i2c[i].rx.length + s.i2c[i].tx.length * 2 ^ 16 + b2n (s.i2cBusy i) * 2 ^ 7), s)
        else (s.reg a, s)
      | none => (s.reg a, s)

/-- The levels of the 24 pins of a group (R374). -/
def State.gpioLevels (s : State) (g : Nat) : Word :=
  BitVec.ofNat 32 (((List.range 24).map fun k => b2n (s.gpioLevel g k) * 2 ^ k).sum)

/-- The levels of the capture inputs (R374): what CAP_STAT.LEVEL holds. -/
def State.capLevels (s : State) : Word :=
  BitVec.ofNat 32 (((List.range 32).map fun n => b2n (s.rbit (Reg.capStat n) 0) * 2 ^ n).sum)

/-- A read in the GPIO block (R374, R379). -/
def State.gpioRead (s : State) (a : Nat) : Word :=
  if a = Reg.gpioEvoutLo then s.evOutRead false
  else if a = Reg.gpioEvoutHi then s.evOutRead true
  else if a = Reg.gpioEvinLo then s.evLevels false
  else if a = Reg.gpioEvinHi then s.evLevels true
  else if a = Reg.gpioCapin then s.capLevels
  else match member a (Reg.gpioDir 0) 4 0x20 with
    | some (g, 0xC) => s.gpioLevels g
    | _ => s.reg a

/-- A read in the PERF block (R426, R427). -/
def State.perfRegRead (s : State) (a : Nat) : Word × State :=
  match member a (Reg.perfCtl 0) 16 0x100 with
  | none => (s.reg a, s)
  | some (n, o) =>
    let e : EngId := Fin.ofNat 16 n
    if !s.present e then (0, s)
    else match member o 0x10 8 0xC with
      | some (k, 4) => s.perfRead e (Fin.ofNat 8 k)
      | _ => (s.reg a, s)

/-- TE_LSUSTAT (R200). -/
def State.lsuStat (s : State) (e : EngId) : Word :=
  let x := s.eng e
  BitVec.ofNat 32 (x.sbuf[0].length + x.sbuf[1].length * 2 ^ 8 + x.farOwed 0 * 2 ^ 16 + x.farOwed 1 * 2 ^ 24)

/-- A read in an engine's block (R101, R121, R200, R211, R220). -/
def State.teRead (s : State) (a : Nat) : Word :=
  let e : EngId := Fin.ofNat 16 (a / 0x1_0000)
  let o := a % 0x1_0000
  if !s.present e then 0
  else if o = 0x18 then BitVec.ofNat 32 ((s.eng e).inq.length + (s.eng e).outq.length * 2 ^ 8)
  else if o = 0x44 then s.lsuStat e
  else match member o 0x90 4 4 with
    | some (k, _) => BitVec.ofNat 32 (((List.range 32).map fun i => b2n (s.asserted e (32 * k + i)) * 2 ^ i).sum)
    | none =>
      match member o 0x800 128 4 with
      | some (i, _) => s.reg a ||| (if s.asserted e i then bitW 16 else 0)
      | none =>
        match member o 0x1000 4096 4 with
        | some (i, _) => BitVec.ofNat 32 ((s.eng e).connWord i)
        | none => s.reg a

/-- LBP_HSIN (R361, R382). -/
def State.hsRead (s : State) (p : PairId) : Word :=
  BitVec.ofNat 32 (((List.range 8).map fun k => b2n (s.hsLine p k) * 2 ^ k).sum)

/-- A 32-bit read of the register at `a` (R7, R286), with what the read changes. -/
def State.csrRead (s : State) (a : Nat) : Word × State :=
  if a % 4 ≠ 0 then (0, s)
  else if 0x5100_0000 ≤ a ∧ a < 0x5110_0000 then (s.teRead a, s)
  else match a / 0x1_0000 with
    | 0x5000 => (if a = Reg.sysId then 0x0001_0000 ||| s.engmask.setWidth 32 else s.reg a, s)
    | 0x5003 => s.angRead a
    | 0x5004 => (s.almRead a, s)
    | 0x5005 => s.tmrRead a
    | 0x5006 => (s.mtxRead a, s)
    | 0x5008 =>
      match member a (Reg.errOld 0) 4 4 with
      | some (w, _) => (s.errOld w, s)
      | none => (s.reg a, s)
    | 0x5010 => (if a = Reg.lbpHsin 0 then s.hsRead 0 else s.reg a, s)
    | 0x5011 => (if a = Reg.lbpHsin 1 then s.hsRead 1 else s.reg a, s)
    | 0x5012 => s.sioRead a
    | 0x5013 => (s.gpioRead a, s)
    | 0x5014 => s.perfRegRead a
    | _ => (s.reg a, s)

/-! The meanings -/

/-- REGISTER_WRITE (R7): a word written to a register, or to a word of a store that takes writes (R224, R285), where a partial write of
an uncorrectable unit writes nothing (R297); the Error Log names engine 0 as its master, and a write to a borrowed Vitrine waits as that
master's request (R405). No master runs outside Run and Hold. -/
def execRegisterWrite (addr value : Word) (s : State) : Host.Outcome State Fault Refusal :=
  .next (
    let a := addr.toNat
    if !s.awake then s
    else match s.target a with
      | some 27 =>
        if a % 4 = 0 ∧ 0x5100_0000 ≤ a ∧ 0x6000 ≤ a % 0x1_0000 then (s.storeWrite 0 a (bytesOf 4 value.toNat) false).2
        else if (lbpWindow a).isSome then s
        else s.csrWrite a value
      | some t =>
        let v := s.vitrines a 4 true
        if a % 4 ≠ 0 ∨ 24 = t ∨ 25 < t then s
        else if v.1 then (v.2.issueReq 0 { addr := addr, kind := .write, len := 4, data := bytesOf 4 value.toNat, ordered := false, node := 0 }).1
        else (v.2.storeWrite 0 a (bytesOf 4 value.toNat) false).2
      | none => s)
/-- MTX_INJ (R315, R316). -/
def execMtxInj (value : Word) (s : State) : Host.Outcome State Fault Refusal := .next (s.mtxInject value)
/-- MDIO_ACCESS (R357, R379). -/
def execMdioAccess (m : PairId) (value : Word) (phy : MdioPhy) (s : State) : Host.Outcome State Fault Refusal :=
  .next (if s.awake then s.mdio m value phy else s)
/-- START_CONFIRM (R395). -/
def execStartConfirm (value : Word) (s : State) : Host.Outcome State Fault Refusal := .next (s.confirm value)
/-- FAILED_START_CLEAR (R402). -/
def execFailedStartClear (s : State) : Host.Outcome State Fault Refusal := .next s.failedClear

end Sys2Proof.Machine
end

