-- ==== Sys2Proof/Machine/Image.lean ====
section
/-! DEFINITION. The Accession image as a byte string (R386–R389): CRC-32, SHA-256, the header, the section table, and the records of the
memory images. -/

namespace Sys2Proof.Machine

/-! CRC-32 (R323, R387) -/

/-- One bit of the CRC, least significant first. -/
def crcBit (c : Word) : Word := if c.getLsbD 0 then (c >>> 1) ^^^ 0xEDB8_8320 else c >>> 1

/-- One byte of the CRC. -/
def crcByte (c : Word) (b : Byte) : Word := crcBit (crcBit (crcBit (crcBit (crcBit (crcBit (crcBit (crcBit (c ^^^ b.setWidth 32))))))))

/-- CRC-32 with the IEEE 802.3 polynomial. -/
def crc32 (bs : List Byte) : Word := ~~~(bs.foldl crcByte 0xFFFF_FFFF)

/-! SHA-256 (R387), as FIPS 180-4 defines it -/

/-- The round constants. -/
def shaK : List Word :=
  [0x428a2f98, 0x71374491, 0xb5c0fbcf, 0xe9b5dba5, 0x3956c25b, 0x59f111f1, 0x923f82a4, 0xab1c5ed5] ++
  [0xd807aa98, 0x12835b01, 0x243185be, 0x550c7dc3, 0x72be5d74, 0x80deb1fe, 0x9bdc06a7, 0xc19bf174] ++
  [0xe49b69c1, 0xefbe4786, 0x0fc19dc6, 0x240ca1cc, 0x2de92c6f, 0x4a7484aa, 0x5cb0a9dc, 0x76f988da] ++
  [0x983e5152, 0xa831c66d, 0xb00327c8, 0xbf597fc7, 0xc6e00bf3, 0xd5a79147, 0x06ca6351, 0x14292967] ++
  [0x27b70a85, 0x2e1b2138, 0x4d2c6dfc, 0x53380d13, 0x650a7354, 0x766a0abb, 0x81c2c92e, 0x92722c85] ++
  [0xa2bfe8a1, 0xa81a664b, 0xc24b8b70, 0xc76c51a3, 0xd192e819, 0xd6990624, 0xf40e3585, 0x106aa070] ++
  [0x19a4c116, 0x1e376c08, 0x2748774c, 0x34b0bcb5, 0x391c0cb3, 0x4ed8aa4a, 0x5b9cca4f, 0x682e6ff3] ++
  [0x748f82ee, 0x78a5636f, 0x84c87814, 0x8cc70208, 0x90befffa, 0xa4506ceb, 0xbef9a3f7, 0xc67178f2]

/-- The eight working words. -/
structure Sha where
  a : Word
  b : Word
  c : Word
  d : Word
  e : Word
  f : Word
  g : Word
  h : Word
  deriving DecidableEq, Repr

/-- The initial hash value. -/
def Sha.init : Sha :=
  ⟨0x6a09e667, 0xbb67ae85, 0x3c6ef372, 0xa54ff53a, 0x510e527f, 0x9b05688c, 0x1f83d9ab, 0x5be0cd19⟩

/-- The words of two states added. -/
def Sha.add (x y : Sha) : Sha :=
  ⟨x.a + y.a, x.b + y.b, x.c + y.c, x.d + y.d, x.e + y.e, x.f + y.f, x.g + y.g, x.h + y.h⟩

/-- One round with the sum of its schedule word and its constant. -/
def Sha.round (x : Sha) (kw : Word) : Sha :=
  let t1 := x.h + (x.e.rotateRight 6 ^^^ x.e.rotateRight 11 ^^^ x.e.rotateRight 25) + ((x.e &&& x.f) ^^^ (~~~x.e &&& x.g)) + kw
  let t2 := (x.a.rotateRight 2 ^^^ x.a.rotateRight 13 ^^^ x.a.rotateRight 22) + ((x.a &&& x.b) ^^^ (x.a &&& x.c) ^^^ (x.b &&& x.c))
  ⟨t1 + t2, x.a, x.b, x.c, x.d + t1, x.e, x.f, x.g⟩

/-- The message schedule of `n` more words, newest first. -/
def shaSchedule : Nat → List Word → List Word
  | 0, w => w
  | n + 1, w =>
    let x := w.getD 14 0
    let y := w.getD 1 0
    let s0 := x.rotateRight 7 ^^^ x.rotateRight 18 ^^^ (x >>> 3)
    let s1 := y.rotateRight 17 ^^^ y.rotateRight 19 ^^^ (y >>> 10)
    shaSchedule n ((s1 + w.getD 6 0 + s0 + w.getD 15 0) :: w)

/-- The word at byte `o` of a block, most significant byte first. -/
def wordBig (bs : List Byte) (o : Nat) : Word := wordOf ((bs.drop o).take 4).reverse

/-- One block of 64 bytes. -/
def Sha.block (x : Sha) (bs : List Byte) : Sha :=
  let w := (List.range 16).map fun i => wordBig bs (4 * i)
  let ws := (shaSchedule 48 w.reverse).reverse
  x.add ((List.zipWith (· + ·) shaK ws).foldl Sha.round x)

/-- A message with its padding. -/
def shaPad (bs : List Byte) : List Byte :=
  bs ++ [0x80] ++ List.replicate ((119 - bs.length % 64) % 64) 0 ++ (bytesOf 8 (8 * bs.length)).reverse

/-- The SHA-256 digest of a byte string. -/
def sha256 (bs : List Byte) : List Byte :=
  let m := shaPad bs
  let x := (List.range (m.length / 64)).foldl (fun x i => Sha.block x ((m.drop (64 * i)).take 64)) Sha.init
  [x.a, x.b, x.c, x.d, x.e, x.f, x.g, x.h].flatMap fun w => (bytesOf 4 w.toNat).reverse

/-! Header and section table (R386, R388) -/

/-- The word at byte `o` of an image. -/
def imgWord (bs : List Byte) (o : Nat) : Word := wordOf ((bs.drop o).take 4)

/-- LENGTH and NSEC of the header. -/
def imgLength (bs : List Byte) : Nat := (imgWord bs 0x08).toNat
def imgSections (bs : List Byte) : Nat := (imgWord bs 0x14).toNat

/-- GEN of an image whose header can be read (R394). -/
def imgGen (bs : List Byte) : Option Word := if bs.length < 0x20 then none else some (imgWord bs 0x10)

/-- The header holds: MAGIC, FORMAT, HDRCRC, NLOG, NSEC, FLAGS and LENGTH (R386, R391). -/
def headerOk (bs : List Byte) : Bool :=
  let f := imgWord bs 0x0C
  let n := fldOf f 0 5
  imgWord bs 0x00 == 0x3639_545A && imgWord bs 0x04 == 0x0001_0000 && imgWord bs 0x1C == crc32 (bs.take 0x1C) &&
  decide (1 ≤ n) && decide (n ≤ 16) && (f &&& ~~~0x0011_001F) == 0 &&
  decide (6 ≤ imgSections bs) && decide (imgSections bs ≤ 11) && decide (imgLength bs % 4 = 0) && decide (0x60 ≤ imgLength bs)

/-- An entry of the section table. -/
structure ImgEntry where
  typ : Nat
  off : Nat
  len : Nat
  crc : Word
  deriving DecidableEq, Repr

/-- Entry `i` of the section table. -/
def imgEntry (bs : List Byte) (i : Nat) : ImgEntry :=
  let o := 0x20 + 16 * i
  ⟨(imgWord bs o).toNat, (imgWord bs (o + 4)).toNat, (imgWord bs (o + 8)).toNat, imgWord bs (o + 12)⟩

/-- The section table. -/
def imgTable (bs : List Byte) : List ImgEntry := (List.range (imgSections bs)).map (imgEntry bs)

/-- The section types (R388). -/
def requiredTypes : List Nat := [1, 2, 3, 4, 5, 6]
def knownTypes : List Nat := requiredTypes ++ [0x10, 0x11, 0x12, 0x13, 0x14]

/-- The bytes of a section. -/
def ImgEntry.bytes (x : ImgEntry) (bs : List Byte) : List Byte := (bs.drop x.off).take x.len

/-- An entry that does not hold beside the one before it: its type and the end of what lies before its section (R386, R388). -/
def ImgEntry.wrong (x : ImgEntry) (typ fin limit : Nat) : Bool :=
  !knownTypes.contains x.typ || decide (x.typ ≤ typ) || decide (x.off % 4 ≠ 0) || decide (x.len % 4 ≠ 0) ||
  decide (x.off < fin) || decide (limit < x.off + x.len)

/-- The index of the first entry that does not hold. -/
def tableWrong (limit : Nat) : Nat → Nat → Nat → List ImgEntry → Option Nat
  | _, _, _, [] => none
  | i, typ, fin, x :: xs => if x.wrong typ fin limit then some i else tableWrong limit (i + 1) x.typ (x.off + x.len) xs

/-- The bytes before the sections: header and section table. -/
def imgFront (bs : List Byte) : Nat := 0x20 + 16 * imgSections bs

/-- The section table's error: the first entry that does not hold, of those that the source gives; a missing required section of a table
that is there is counted at index 0 (R388, R391). -/
def tableError (bs : List Byte) : Option Nat :=
  match tableWrong (imgLength bs - 32) 0 0 (imgFront bs) ((imgTable bs).take ((bs.length - 0x20) / 16)) with
  | some i => some i
  | none =>
    if bs.length < imgFront bs ∨ requiredTypes.all fun t => (imgTable bs).any (·.typ == t) then none else some 0

/-- The bytes of the section of a type; none where the image has no such section. -/
def sectionBytes (bs : List Byte) (t : Nat) : List Byte :=
  match (imgTable bs).find? (·.typ == t) with
  | some x => x.bytes bs
  | none => []

/-- The digest holds (R387). -/
def digestOk (bs : List Byte) : Bool :=
  (bs.drop (imgLength bs - 32)).take 32 == sha256 (bs.take (imgLength bs - 32))

/-! Records (R389) -/

/-- The whole records of a memory images section, at most `n`, and whether what follows them does not hold: a header, or in a section that
is `whole` a record that passes its end. -/
def parseRecords (whole : Bool) : Nat → List Byte → List ImgRecord × Bool
  | 0, bs => ([], !bs.isEmpty)
  | n + 1, bs =>
    if bs.isEmpty then ([], false)
    else if bs.length < 12 then ([], whole)
    else
      let w := imgWord bs 0
      let len := (imgWord bs 8).toNat
      let pad := (len + 3) / 4 * 4
      if fldOf w 0 24 ≠ 0 ∨ len = 0 ∨ 2 ^ 24 < len then ([], true)
      else if bs.length < 12 + pad then ([], whole)
      else
        let r := parseRecords whole n (bs.drop (12 + pad))
        (⟨w.extractLsb' 28 4, Fin.ofNat 16 (fldOf w 24 4), imgWord bs 4, (bs.drop 12).take len⟩ :: r.1, r.2)

/-- The records of the memory images of an image, as far as the source gives them. -/
def imgRecords (whole : Bool) (bs : List Byte) : List ImgRecord × Bool :=
  parseRecords whole (bs.length / 12 + 1) (sectionBytes bs 0x14)

/-- An image as its bytes and the content of its other sections give it. -/
def imageOf (bs : List Byte) (body : ImgBody) : Image :=
  let f := imgWord bs 0x0C
  { body with
    gen := imgWord bs 0x10, nlog := fldOf f 0 5, lock := bitOf f 20, almen := bitOf f 16, bootwin := imgWord bs 0x18
    map := (sectionBytes bs 1).take (fldOf f 0 5)
    records := (imgRecords true bs).1 }

end Sys2Proof.Machine
end

