-- ==== Sys2Proof/Machine/Ethernet.lean ====
section
/-! DEFINITION. The Ethernet MACs (R357–R360): descriptor rings walked through the matrix in requests of at most 64 bytes, frames as whole
commands, PAUSE and the in-band link. -/

namespace Sys2Proof.Machine

/-- The master number of a MAC (R302). -/
def ethMaster (m : PairId) : Nat := 27 + m.val

/-- Word `k` of bytes. -/
def wordAt (bs : List Byte) (k : Nat) : Word := wordOf ((bs.drop (4 * k)).take 4)

/-- The speed that the in-band status reported last. -/
def State.ethInband (s : State) (m : PairId) : Nat := (match s.eth[m].speed with | some v => v | none => Config.inbandSpeed m.val).toNat

/-- The nanoseconds of one bit at the MAC's speed, which is that of the in-band status or of SPD (R357): 1, 10 or 100. -/
def State.ethBit (s : State) (m : PairId) : Nat :=
  match if s.rbit (Reg.ethCtl m) 2 then s.ethInband m else s.rfld (Reg.ethCtl m) 4 2 with
  | 0 => 100
  | 1 => 10
  | _ => 1

/-- A PAUSE frame of IEEE 802.3 Annex 31B, with its time in units of 512 bit times. -/
def pauseTime (bs : List Byte) : Option Nat :=
  if bs.take 6 = [0x01, 0x80, 0xC2, 0x00, 0x00, 0x01] ∧ (bs.drop 12).take 4 = [0x88, 0x08, 0x00, 0x01] then
    some ((bs.getD 16 0).toNat * 256 + (bs.getD 17 0).toNat)
  else none

/-- The FCS that the MAC appends to a frame (R357): the CRC of IEEE 802.3, low byte first. -/
def ethFcs (bs : List Byte) : List Byte := bytesOf 4 (crc32 bs).toNat

/-- A frame of `n` bytes with its FCS is one that the MAC sends and receives (R357). -/
def ethFits (n : Nat) : Bool := decide (64 ≤ n) && decide (n ≤ 1522)

/-- A ring position after a descriptor (R358). -/
def ringNext (pos : Nat) (w1 : Word) : Nat := if bitOf w1 30 then 0 else pos + 16

/-- A MAC issues its requests for `n` bytes at `a` (R357): at most 64 bytes each, and none crosses a multiple of 64. -/
def State.ethIssue (s : State) (m : PairId) (write : Bool) (a n : Nat) (data : List Byte) :
    List (Nat × Option (Resp × List Byte)) × State :=
  s.issueParts (ethMaster m) write a (partsAt 64 48 a n) data

/-! Transmission -/

def State.setTx (s : State) (m : PairId) (j : Option EthJob) : State := s.modEth m fun x => { x with txJob := j }

/-- The write-back of a transmit descriptor (R358): OWN = 0, ERR where the frame was not sent, and the timestamp that TSREQ asks for. -/
def State.ethTxBack (s : State) (m : PairId) (j : EthJob) (err : Bool) (ts : Stamp) : State :=
  let w := (j.w1 &&& ~~~(bitW 31 ||| bitW 27)) ||| (if err then bitW 27 else 0)
  let bs := bytesOf 4 w.toNat ++ if bitOf j.w1 29 then bytesOf 8 ts.toNat else []
  let r := s.ethIssue m true (j.at' + 4) bs.length bs
  r.2.setTx m (some { j with step := .back, parts := r.1 })

/-- ETH_TRANSMIT_FRAME (R358, R359): the MAC reads the next transmit descriptor, or sends the frame that it has read, with its FCS, and
writes its descriptor back. Nothing is sent while the link is down or a PAUSE runs. DESIGN CHOICE (log 130): a frame whose length with the
FCS lies outside 64 to 1,522 is not sent, and its descriptor is written back with ERR = 1. -/
def State.ethTransmit (s : State) (m : PairId) : State :=
  let x := s.eth[m]
  if !s.awake || !s.rbit (Reg.ethCtl m) 0 || x.down || decide (s.now < x.pause) then s
  else
    match x.txJob with
    | none =>
      let a := (s.reg (Reg.ethTxring m)).toNat + x.tx
      let r := s.ethIssue m false a 16 []
      r.2.setTx m (some { step := .desc, at' := a, w1 := 0, parts := r.1, bytes := [], ts := 0 })
    | some j =>
      if j.step ≠ .ready then s
      else if !ethFits (j.bytes.length + 4) then s.ethTxBack m j true (stampOf s.fc)
      else
        (s.modEth m fun x => { x with out := j.bytes ++ ethFcs j.bytes }).ethTxBack m j false
          (stampOf s.fc + BitVec.ofNat 64 (s.rfld (Reg.ethTsofs m) 16 16))

/-- Every request of the transmit descriptor's step is answered. One that cannot be read or that the MAC does not own is left; a buffer
that cannot be read, or a link that is down, ends in ERR = 1 (R360). -/
def State.ethTxStep (s : State) (m : PairId) (j : EthJob) : State :=
  let r := partsAnswer j.parts
  match j.step with
  | .desc =>
    let w1 := wordAt r.2 1
    if r.1 ≠ .okay || !bitOf w1 31 || s.eth[m].down then s.setTx m none
    else
      let n := fldOf w1 0 11
      let j := { j with w1 := w1 }
      let d := s.ethIssue m false (wordAt r.2 0).toNat n []
      d.2.setTx m (some { j with step := if n = 0 then .ready else .data, parts := d.1 })
  | .data =>
    if r.1 ≠ .okay ∨ s.eth[m].down then s.ethTxBack m j true (stampOf s.fc)
    else s.setTx m (some { j with step := .ready, bytes := r.2, parts := [] })
  | .ready => s
  | .back =>
    let base := (s.reg (Reg.ethTxring m)).toNat
    let s := s.modEth m fun x =>
      { x with txJob := none, tx := if j.at' = base + x.tx then ringNext x.tx j.w1 else x.tx }
    if bitOf j.w1 28 then s.orReg (Reg.ethStat m) (bitW 8) else s

/-! Reception -/

def State.setRx (s : State) (m : PairId) (j : Option EthJob) : State := s.modEth m fun x => { x with rxJob := j }

/-- The next received frame asks for the next receive descriptor. -/
def State.ethRxNext (s : State) (m : PairId) : State :=
  let x := s.eth[m]
  match x.rxJob, x.rxq with
  | none, f :: fs =>
    let a := (s.reg (Reg.ethRxring m)).toNat + x.rx
    let r := s.ethIssue m false a 16 []
    (r.2.modEth m fun x => { x with rxq := fs }).setRx m
      (some { step := .desc, at' := a, w1 := 0, parts := r.1, bytes := f.data,
              ts := f.ts - BitVec.ofNat 64 (s.rfld (Reg.ethTsofs m) 0 16) })
  | _, _ => s

/-- The write-back of a receive descriptor (R358, R359). What STATUS says of a frame that did not fit or could not be stored is free. -/
def State.ethRxBack (s : State) (m : PairId) (j : EthJob) (whole : Bool) : State :=
  let st := if whole then ((0 : Word), s) else s.drawWord
  let n := min j.bytes.length (fldOf j.w1 0 11)
  let w := putFld (putFld (j.w1 &&& ~~~(bitW 31)) 24 4 (fldOf st.1 0 4)) 0 11 n
  let r := st.2.ethIssue m true (j.at' + 4) 12 (bytesOf 4 w.toNat ++ bytesOf 8 j.ts.toNat)
  r.2.setRx m (some { j with step := .back, parts := r.1 })

/-- Every request of the receive descriptor's step is answered. A frame that finds no descriptor is discarded and counted. -/
def State.ethRxStep (s : State) (m : PairId) (j : EthJob) : State :=
  let r := partsAnswer j.parts
  match j.step with
  | .desc =>
    let w1 := wordAt r.2 1
    if r.1 ≠ .okay || !bitOf w1 31 then
      ((s.setRx m none).incReg (Reg.ethRxnodesc m)).orReg (Reg.ethStat m) (bitW 12) |>.ethRxNext m
    else
      let j := { j with w1 := w1 }
      let n := min j.bytes.length (fldOf w1 0 11)
      if n = 0 then s.ethRxBack m j j.bytes.isEmpty
      else
        let d := s.ethIssue m true ((wordAt r.2 0).toNat / 8 * 8) n (j.bytes.take n)
        d.2.setRx m (some { j with step := .data, parts := d.1 })
  | .data => s.ethRxBack m j (decide (j.bytes.length ≤ fldOf j.w1 0 11) && decide (r.1 = .okay))
  | .ready => s
  | .back =>
    let base := (s.reg (Reg.ethRxring m)).toNat
    let s := s.modEth m fun x =>
      { x with rxJob := none, rx := if j.at' = base + x.rx then ringNext x.rx j.w1 else x.rx }
    (if bitOf j.w1 28 then s.orReg (Reg.ethStat m) (bitW 9) else s).ethRxNext m

/-- ETH_RECEIVE_FRAME (R357, R358): a bad frame is counted, a PAUSE frame obeyed, another one waits for a receive descriptor. -/
def State.ethReceive (s : State) (m : PairId) (f : EthFrame) : State :=
  if !s.awake || !s.rbit (Reg.ethCtl m) 1 then s
  else if !f.fcsOk || !ethFits f.data.length then
    (s.incReg (Reg.ethRxerr m)).orReg (Reg.ethStat m) (bitW 11)
  else match pauseTime f.data with
    | some q => s.modEth m fun x => { x with pause := s.now + q * 512 * s.ethBit m }
    | none => (s.modEth m fun x => { x with rxq := x.rxq ++ [f] }).ethRxNext m

/-! Responses and the link -/

/-- A MAC has a request of a job outstanding. -/
def EthJob.asks (j : Option EthJob) (id : Nat) : Bool := match j with | some j => j.parts.any (·.1 == id) | none => false

/-- A response reaches a MAC (R312): with the last one of a step the job goes on. -/
def State.ethAnswer (s : State) (m : PairId) (r : Req) : State :=
  let go (j : EthJob) (set : State → PairId → Option EthJob → State) (step : State → PairId → EthJob → State) : State :=
    let j := { j with parts := j.parts.map (partTake r.id r.resp r.rdata) }
    let s := set s m (some j)
    if j.parts.all (·.2.isSome) then step s m j else s
  match s.eth[m].txJob, s.eth[m].rxJob with
  | some j, k =>
    if EthJob.asks (some j) r.id then go j State.setTx State.ethTxStep
    else match k with
      | some k => if EthJob.asks (some k) r.id then go k State.setRx State.ethRxStep else s
      | none => s
  | none, some k => if EthJob.asks (some k) r.id then go k State.setRx State.ethRxStep else s
  | none, none => s

/-- The in-band status reports the link down (R360): a frame that waits to be sent ends in ERR = 1. -/
def State.ethLinkDown (s : State) (m : PairId) : State :=
  if !s.awake then s
  else
    let s := ((s.clrReg (Reg.ethStat m) (bitW 0)).orReg (Reg.ethStat m) (bitW 10)).modEth m fun x => { x with down := true }
    match s.eth[m].txJob with
    | some j => if j.step = .ready then s.ethTxBack m j true (stampOf s.fc) else s
    | none => s

/-! The meanings -/

/-- ETH_TRANSMIT_FRAME (R358). -/
def execEthTransmitFrame (m : PairId) (s : State) : Host.Outcome State Fault Refusal := .next (s.ethTransmit m)
/-- ETH_RECEIVE_FRAME (R358). -/
def execEthReceiveFrame (m : PairId) (frame : EthFrame) (s : State) : Host.Outcome State Fault Refusal :=
  .next (s.ethReceive m frame)
/-- ETH_LINK_DOWN (R360). -/
def execEthLinkDown (m : PairId) (s : State) : Host.Outcome State Fault Refusal := .next (s.ethLinkDown m)
/-- ETH_LINK_UP (R360): the in-band status reports the link up, with its speed (R357). -/
def execEthLinkUp (m : EthUp) (s : State) : Host.Outcome State Fault Refusal :=
  .next (if s.awake then
      (s.orReg (Reg.ethStat m.mac) (bitW 0)).modEth m.mac fun x => { x with down := false, speed := some m.speed } else s)

end Sys2Proof.Machine
end

