-- ==== Sys2Proof/Machine/Flags.lean ====
section
/-! DEFINITION. The arithmetic of the micro-operations at the legacy word width W and the legacy flags C, Z, N and V (R235, R236). -/

namespace Sys2Proof.Machine

/-- What an arithmetic micro-operation gives: its result, the carry where it sets one, and the overflow. -/
structure Arith where
  r : Nat
  c : Option Bool
  v : Bool
  deriving DecidableEq, Repr

/-- The signed value of `x` at width `w`. -/
def signedAt (w x : Nat) : Int := if 2 ^ (w - 1) ≤ x then (x : Int) - 2 ^ w else x

/-- A signed value does not fit width `w`. -/
def overflowsAt (w : Nat) (v : Int) : Bool := decide (v < -2 ^ (w - 1)) || decide (2 ^ (w - 1) ≤ v)

/-- An addition at width `w` with a carry in (R235). -/
def addAt (w a b cin : Nat) : Arith :=
  { r := (a + b + cin) % 2 ^ w, c := some (decide (2 ^ w ≤ a + b + cin)),
    v := overflowsAt w (signedAt w a + signedAt w b + cin) }

/-- A subtraction at width `w` with a borrow in; C holds the borrow out or its complement (R235). -/
def subAt (w : Nat) (borrow : Bool) (a b bin : Nat) : Arith :=
  let out := decide (a < b + bin)
  { r := ((a : Int) - b - bin).emod (2 ^ w) |>.toNat, c := some (if borrow then out else !out),
    v := overflowsAt w (signedAt w a - signedAt w b - bin) }

/-- A logical operation: Z and N from the result, V cleared, C unchanged (R236). -/
def logicAt (w r : Nat) : Arith := { r := r % 2 ^ w, c := none, v := false }

/-- A shift or rotation by one place: C takes the bit that leaves (R236). -/
def shiftAt (w r : Nat) (out : Bool) : Arith := { r := r % 2 ^ w, c := some out, v := false }

/-- LFLG after an operation at width `w` (R235): bit 0 C, bit 1 Z, bit 2 N, bit 3 V; U0–U3 stay. -/
def Arith.flags (x : Arith) (w : Nat) (old : Word) : Word :=
  let c := match x.c with | some b => b | none => bitOf old 0
  putFld old 0 4 (b2n c + 2 * b2n (x.r == 0) + 4 * b2n (x.r.testBit (w - 1)) + 8 * b2n x.v)

/-- The arithmetic micro-operation `op` at width `w` on Ma and Mb with LFLG (R236); none for the others. -/
def microArith (op w : Nat) (borrow : Bool) (ma mb lflg : Word) : Option Arith :=
  let a := ma.toNat % 2 ^ w
  let b := mb.toNat % 2 ^ w
  let c := b2n (bitOf lflg 0)
  let top := b.testBit (w - 1)
  match op with
  | 0x03 => some (addAt w a b 0)
  | 0x04 => some (addAt w a b c)
  | 0x05 => some (subAt w borrow a b 0)
  | 0x06 => some (subAt w borrow a b (if borrow then c else 1 - c))
  | 0x07 => some (logicAt w (a &&& b))
  | 0x08 => some (logicAt w (a ||| b))
  | 0x09 => some (logicAt w (a ^^^ b))
  | 0x0A => some (logicAt w (2 ^ w - 1 - b))
  | 0x0B => some (shiftAt w (2 * b) top)
  | 0x0C => some (shiftAt w (b / 2) (b.testBit 0))
  | 0x0D => some (shiftAt w (b / 2 + b2n top * 2 ^ (w - 1)) (b.testBit 0))
  | 0x0E => some (shiftAt w (2 * b + c) top)
  | 0x0F => some (shiftAt w (b / 2 + c * 2 ^ (w - 1)) (b.testBit 0))
  | 0x10 => some (subAt w borrow a b 0)
  | 0x11 => some (logicAt w (a &&& b))
  | 0x12 => some (addAt w a (1 % 2 ^ w) 0)
  | 0x13 => some (subAt w borrow a (1 % 2 ^ w) 0)
  | _ => none

/-- CMP and TST write no register (R236). -/
def microWrites (op : Nat) : Bool := op != 0x10 && op != 0x11

end Sys2Proof.Machine
end

