-- ==== Sys2Proof/Machine/Sequencer.lean ====
section
/-! DEFINITION. Entering and leaving the sequencer (R222, R223), the three stores as it reads them (R224–R226), and the records of
its faults (R244). -/

namespace Sys2Proof.Machine

/-- Addresses of the three stores of an engine (R224). -/
def catAddr (e : EngId) (i : Nat) : Nat := 0x5100_6000 + e.val * 0x1_0000 + i % 4096 * 2
def microAddr (e : EngId) (i : Nat) : Nat := 0x5100_8000 + e.val * 0x1_0000 + i % 4096 * 4
def nanoAddr (e : EngId) (i : Nat) : Nat := 0x5100_C000 + e.val * 0x1_0000 + i % 512 * 32

/-- The sequencer reads a store through its private port (R224); an uncorrectable unit is exception 10 at the dispatch or
microword that needed the entry. Answers whether it failed, and the bytes. -/
def State.seqRead (s : State) (e : EngId) (a n : Nat) : Bool × Nat × State :=
  let r := s.eccRead e.val a n
  (r.1, ofBytes (s.readBytes a n), r.2)

/-- A synchronous exception of the group, microword or dispatch in hand (R203, R240). -/
def State.syncExc (s : State) (e : EngId) (n : Nat) : State := s.modEng e fun x => { x with sync := some ⟨n, 0, 0⟩ }

/-- The same, taken from model fc `t` on. -/
def State.syncDue (s : State) (e : EngId) (t : Nat) : State :=
  s.modEng e fun x => { x with sync := x.sync.map fun c => { c with due := t } }

/-- A Micro Fault is recorded and becomes the synchronous exception (R244). -/
def State.microFault (s : State) (e : EngId) (cause addr : Nat) : State :=
  (s.setReg (Reg.teEmufault e) (BitVec.ofNat 32 (addr % 4096 * 2 ^ 16 + cause))).syncExc e 7

/-- A Catalogue Miss is recorded and becomes the synchronous exception (R244). -/
def State.catMiss (s : State) (e : EngId) (index : Nat) : State :=
  (s.setReg (Reg.teEmufault e) (BitVec.ofNat 32 (index % 4096 * 2 ^ 16 + 2 ^ 7))).syncExc e 6

/-- The checks of an xio.t:mcall (R223): the faulting state, or the microroutine's address and the state. -/
def State.mcallCheck (s : State) (e : EngId) (t : Word) (barred : Bool) : State ⊕ (Nat × State) :=
  if barred then .inl (s.microFault e 6 0)
  else if bitOf t 31 then
    (if s.hnd e || (s.frames e).run.isSome || s.emu e then .inl (s.microFault e 8 0) else .inr (0, s))
  else
    let i := fldOf t 0 12
    let r := s.seqRead e (catAddr e i) 2
    if r.1 then .inl (r.2.2.syncExc e 10)
    else if r.2.1 = 0xFFFF then .inl (r.2.2.catMiss e i)
    else .inr (r.2.1 % 4096, r.2.2)

/-- An xio.t:mcall whose group issues starts its microroutine, or emulation with a dispatch at MPC (R223); `a` is the group's
first word and `nxt` the word after its last. -/
def State.mcallStart (s : State) (e : EngId) (t : Word) (uaddr : Nat) (a nxt : Word) : State :=
  let owed := match (s.eng e).owe with | some b => b | none => s.atLoopEnd e a
  let enter := bitOf t 31
  let s := s.setReg (Reg.teLink e) nxt
  let s := s.orReg (Reg.teEmustat e) (if enter then 1 else 2)
  let s := if enter then s else s.setPort e sUPC (BitVec.ofNat 32 uaddr)
  s.modEng e fun x =>
    { (if enter then x.discard else x.goTo nxt) with
      pc := nxt, owe := none,
      useq := { x.useq with run := true, disp := enter, start := s.now + 1, slipAt := s.now + 1, count := 0, intPt := enter, lpend := owed, fin := none
                            dirty := x.useq.dirty && !enter, old := if enter then [] else x.useq.old
                            wild := x.useq.wild && !enter } }

/-- The call or emulation mode ends in fc `t` (R223): the native code goes on at LINK, or at LPSk where the owed loop test jumps
back. -/
def State.seqEnd (s : State) (e : EngId) (t : Nat) : State :=
  let emu := !s.call e
  let link := s.reg (Reg.teLink e)
  let owed := (s.eng e).useq.lpend
  let a := if s.atLoopEnd e (link - 16) then link - 16 else link - 32
  let s := s.clrReg (Reg.teEmustat e) (if emu then 1 else 2)
  let s := s.modEng e fun x =>
    { (if emu then x.discard else x) with
      pc := link, useq := { x.useq with run := false, disp := false, intPt := false, lpend := false, fin := none },
      free := max x.free (t + 1), fetchAt := max x.fetchAt t }
  if owed then
    match s.loopTest e a with
    | (some k, s) => s.loopBack e k
    | (none, s) => s
  else s

/-- An xio.t:mcall by itself, as one of the group issued last. -/
def State.mcallOp (s : State) (e : EngId) (t : Word) : State :=
  let x := s.eng e
  if !s.runs e || x.useq.run || x.sync.isSome then s
  else
    match s.mcallCheck e t (decide (x.dly ≠ 0) || decide (x.rep ≠ 0)) with
    | .inl s => s
    | .inr (u, s) => (s.meetSpar e (window 15 + 4)).mcallStart e t u x.grp x.nxt

/-- An xio.t:fend by itself (R77, R119). -/
def State.fendOp (s : State) (e : EngId) : State :=
  if !s.runs e then s
  else if s.canFend e then (s.meetSpar e (window 15 + 3)).frameEnd e
  else s.undefinedOp e (window 15 + 3)

/-! The meanings -/

/-- XIO_FEND (R77). -/
def execXioFend (e : EngId) (_t : Word) (s : State) : Host.Outcome State Fault Refusal := .next (s.fendOp e)
/-- XIO_MCALL (R223). -/
def execXioMcall (e : EngId) (t : Word) (s : State) : Host.Outcome State Fault Refusal := .next (s.mcallOp e t)
/-- TE_EMUINJ_MISS (R246). -/
def execTeEmuinjMiss (e : EngId) (s : State) : Host.Outcome State Fault Refusal :=
  .next (if s.present e then s.modEng e fun x => { x with useq := { x.useq with injM := true } } else s)
/-- TE_EMUINJ_IPC (R246). -/
def execTeEmuinjIpc (e : EngId) (s : State) : Host.Outcome State Fault Refusal :=
  .next (if s.present e then s.modEng e fun x => { x with useq := { x.useq with injI := true } } else s)

end Sys2Proof.Machine
end

