-- ==== Sys2Proof/Machine/Issue.lean ====
section
/-! DEFINITION. Issuing an issue group (R95–R106, R118, R119, R125, R128–R134, R141–R147). -/

namespace Sys2Proof.Machine

/-- An issue group (R128): its moves in bus order, the address of its first word and of the word after its last, and whether it
is a split pair (R130). -/
structure Group where
  moves : List Move
  first : Word
  next  : Word
  split : Bool
  deriving DecidableEq, Repr

/-! Pairing -/

/-- The LSU operations that rule 4 of R129 counts (R182). -/
def usesNear (k : Nat) : Bool :=
  isTrigger k && (unitOfSocket k == 10 || unitOfSocket k == 11) &&
  (decide (offOfSocket k < 6) || offOfSocket k == 0xA || offOfSocket k == 0xB)

/-- The destinations that a move names for rule 2 of R129: a ctl.t:rep counts as a move to RPTC too (R142). -/
def namesOf (k : Nat) : List Nat := if k = window 13 + 4 then [portOf k, portOf sRPTC] else [portOf k]

/-- The moves of a pair keep the four rules of R129, decided on the encodings. -/
def pairRules (a b : List Move) : Bool :=
  let both := a ++ b
  decide ((both.filter fun m => isTrigger m.dst).length ≤ 4) &&
  !(a.any fun m => b.any fun n => m.dst != 0 && (namesOf m.dst).any (namesOf n.dst).contains) &&
  decide ((both.filter fun m => portOf m.dst == window 13).length ≤ 1) &&
  decide ((both.filter fun m => usesNear m.dst).length ≤ 1)

/-- The group of one word. -/
def single (a : Word) (w : Quad) : Group := { moves := movesOf a w (wLane w), first := a, next := a + 16, split := false }

/-- The group of two words (R128–R130). -/
def paired (a : Word) (w v : Quad) : Group :=
  let x := movesOf a w false
  let y := movesOf (a + 16) v true
  { moves := x ++ y, first := a, next := a + 32, split := !pairRules x y }

/-- The word of R127 that was written too late: its slots are free. -/
def freeSlots (s : State) (w : Quad) : Quad × State :=
  let f (i : Nat) : Nat := (Config.freeWord (s.free + i)).toNat % 2 ^ 28
  (BitVec.ofNat 128 (w.toNat / 2 ^ 112 * 2 ^ 112 + f 0 + f 1 * 2 ^ 28 + f 2 * 2 ^ 56 + f 3 * 2 ^ 84),
   { s with free := s.free + 4 })

/-- A word of the queue as it issues (R127). -/
def State.issueWord (s : State) (e : EngId) (a : Word) : Fetched × State :=
  match wordIn (s.eng e).lines a with
  | .word w => if (s.eng e).stale.contains a then (let r := freeSlots s w; (.word r.1, r.2)) else (.word w, s)
  | f => (f, s)

/-! What a group does -/

/-- The move of each port that has an effect: the executed one in the highest slot, lane B counted above lane A (R105, R130). -/
def winners : List Move → List Move
  | [] => []
  | m :: ms => if ms.any (fun n => portOf n.dst == portOf m.dst) then winners ms else m :: winners ms

/-- The first executed undefined socket in bus order, as TE_UNDEFINFO records it, and how many moves name one (R119). -/
def State.undefs (s : State) (e : EngId) (ms : List Move) : Option (Move × Bool) × Nat :=
  let bad := ms.filter fun m => !s.srcDefined e m || !s.dstDefined e m
  (bad.head?.map fun m => (m, s.srcDefined e m), bad.length)

/-- Undefined sockets are counted and recorded (R119). -/
def State.noteUndefs (s : State) (e : EngId) (u : Option (Move × Bool) × Nat) : State :=
  match u.1 with
  | none => s
  | some (m, dst) => s.undefined e m.at' u.2 dst m.bus (if dst then m.dst else m.src)

/-- The latency with which a unit's operation takes part in R134, and whether it takes an in-flight entry (R136, R153). -/
def opLat (u c : Nat) : Nat :=
  if u < 4 then 1 else if u < 6 then 3 else if u < 8 then 4 else if u = 8 then 18 else if u = 9 then bitLat c else 1
def takesEntry (u c : Nat) : Bool :=
  if u < 10 then decide (1 < opLat u c) else if u < 12 then decide (16 ≤ c) else u == 12 || u == 14

/-- A trigger of a group with its operand and the fc by which it starts late (R130, R132). -/
structure Trig where
  u : Nat
  c : Nat
  t : Word
  d : Nat
  deriving DecidableEq, Repr

/-- The bytes that the local stores of a group write (R458). -/
def State.ownStores (s : State) (e : EngId) (ts : List Trig) : List Nat :=
  ts.flatMap fun x =>
    if x.u = 10 ∨ x.u = 11 then
      let o := s.lsuDecode e (if x.u = 10 then 0 else 1) x.c x.t
      if !o.far && o.kind == .write then keysOf (s.access e o).sys o.size else []
    else []

/-- A trigger makes its group wait: the row of the table of R134, and the stall event of R423 that it is charged to, 0 where none counts
it. `own` are the bytes that the group's local stores write. -/
def State.trigStall (s : State) (e : EngId) (own : List Nat) (x : Trig) : Option (Nat × Nat) :=
  if x.u < 10 then (if (s.unit e (Fin.ofNat 16 x.u)).accepts (s.now + x.d) (opLat x.u x.c) then none else some (3, 0x0E))
  else if x.u < 12 then
    let n : PairId := if x.u = 10 then 0 else 1
    let o := s.lsuDecode e n x.c x.t
    let held := (s.memHeld e o).1
    match s.memWhy e o x.c x.t own with
    | some w => if held && decide (8 < w.1) then some (8, 0x0D) else some w
    | none => if held then some (8, 0x0D) else none
  else if x.u = 12 then s.bmuWhy e x.c
  else if x.u = 14 then (if (s.eng e).apu.isSome then some (9, 0) else none)
  else if x.u = 15 then (if (x.c = 0 ∨ x.c = 1) ∧ s.outFull e then some (10, 0) else none)
  else none

/-- The first cause in the order of the rows of R134 (R421). -/
def firstCause : List (Nat × Nat) → Option (Nat × Nat)
  | [] => none
  | x :: xs => match firstCause xs with
    | some y => if y.1 < x.1 then some y else some x
    | none => some x

/-- What a waiting trigger changes: what a local load waits for is fixed, and a borrowed Vitrine is given back early (R187, R405). -/
def State.trigWaits (s : State) (e : EngId) (own : List Nat) (x : Trig) : State :=
  if x.u = 10 ∨ x.u = 11 then
    let n : PairId := if x.u = 10 then 0 else 1
    let o := s.lsuDecode e n x.c x.t
    match s.memWhy e o x.c x.t own with
    | some (r, _) => if r = 7 then s.noteWait e o x.c x.t else if 8 < r then (s.memHeld e o).2 else s
    | none => (s.memHeld e o).2
  else s

/-- The precise memory fault of a trigger, if any (R191). A BMU trigger is checked once it need not wait (R196). -/
def State.trigFault (s : State) (e : EngId) (x : Trig) : Option State :=
  if x.u = 10 ∨ x.u = 11 then
    let n : PairId := if x.u = 10 then 0 else 1
    let o := s.lsuDecode e n x.c x.t
    let a := s.access e o
    if a.cause = 0 then none else some (s.memFault e o.a (o.info a) (causeExc a.cause))
  else if x.u = 12 ∧ x.c ≠ 6 then
    match (if s.bmuStall e x.c then none else s.bmuOdd e x.c (bmuSize x.t)) with
    | some (a, wr) => some (s.memFault e a (s.bmuInfo e a wr) 4)
    | none => none
  else none

/-- A trigger of a group that issues starts its operation (R104). CTL and XIO code 3 and 4 are handled with the group; bmu.t:stop and
xio.t:pop of a later fc wait for it (R130). -/
def State.trigStart (s : State) (e : EngId) (x : Trig) : State :=
  if x.u < 4 then s.aluOp e (Fin.ofNat 4 x.u) x.c x.d x.t
  else if x.u < 6 then s.mulOp e (Fin.ofNat 2 (x.u - 4)) x.c x.d x.t
  else if x.u < 8 then s.macOp e (Fin.ofNat 2 (x.u - 6)) x.c x.d x.t
  else if x.u = 8 then s.divOp e x.c x.d x.t
  else if x.u = 9 then s.bitOp e x.c x.d x.t
  else if x.u < 12 then
    let n : PairId := if x.u = 10 then 0 else 1
    ((s.memHeld e (s.lsuDecode e n x.c x.t)).2.memRun e (s.lsuDecode e n x.c x.t) x.d).meetSpar e (window x.u + x.c)
  else if x.u = 12 then
    (if x.c = 6 ∧ x.d ≠ 0 then s.modEng e fun g => { g with trigB := g.trigB ++ [(s.now + x.d, true)] }
     else s.bmuStart e x.c x.d x.t).meetSpar e (window 12 + x.c)
  else if x.u = 14 then (s.apuStart e x.c x.d x.t).meetSpar e (window 14 + x.c)
  else if x.u = 15 then
    (if x.c = 0 ∨ x.c = 1 then (s.xioQueue e (x.c == 1) x.d x.t).meetSpar e (window 15 + x.c)
     else if x.c = 2 then
       (if x.d = 0 then s.xioPop e else s.modEng e fun g => { g with trigB := g.trigB ++ [(s.now + x.d, false)] }).meetSpar e (window 15 + 2)
     else s)
  else s

/-- The triggers of a group whose fc is a later one start in it (R130), and the trigger moves of that fc are counted (R423). -/
def State.laneBDue (s : State) (e : EngId) : State :=
  let due := (s.eng e).trigB.filter fun p => decide (p.1 ≤ s.now)
  let s := if due.isEmpty then s else s.modEng e fun x => { x with trigB := x.trigB.filter fun p => decide (s.now < p.1) }
  let s := due.foldl (fun s p => if p.2 then s.bmuStart e 6 0 0 else s.xioPop e) s
  match (s.eng e).trigN with
  | some (t, n) => if t ≤ s.now then (s.modEng e fun x => { x with trigN := none }).perf e 0x08 n else s
  | none => s

/-- A bus parity injection is met by a move on its bus (R411, R412). -/
def State.meetBpar (s : State) (e : EngId) (ms : List Move) (pc : Word) : State :=
  match (s.eng e).injBpar with
  | none => s
  | some b =>
    match ms.find? (·.bus == b.val) with
    | none => s
    | some m => (s.modEng e fun x => { x with injBpar := none }).parity e false b.val m.dst pc

/-- How a group at the issue point fares: it raises a synchronous exception, waits (with the stall event of R423), or issues. The
state of the first two is the whole outcome; the third carries the triggers that the sequencing of the group still needs: of CTL,
xio.t:fend and xio.t:mcall with its microroutine. -/
inductive Fared where
  | fault (s : State)
  | wait (ev : Nat) (s : State)
  | issued (s : State) (ctl : Option (Nat × Word × Nat)) (fend : Bool) (mcall : Option (Word × Nat))
  deriving Repr

/-- The values that the executed moves read, paired with them (R103). -/
def State.values (s : State) (e : EngId) (ms : List Move) : List (Move × Word) :=
  ms.map fun m => (m, if s.srcDefined e m then s.readSocket e m else 0)

/-- The triggers of a group: LSU1 takes the near port after LSU0 of one word, and lane-B triggers of a split pair start late (R130,
R132). -/
def trigsOf (split : Bool) (vs : List (Move × Word)) : List Trig :=
  let ts := vs.filter fun p => isTrigger p.1.dst
  ts.map fun p =>
    let second := usesNear p.1.dst && unitOfSocket p.1.dst == 11 &&
      ts.any fun q => q.1.at' == p.1.at' && usesNear q.1.dst && unitOfSocket q.1.dst == 10
    { u := unitOfSocket p.1.dst, c := offOfSocket p.1.dst, t := p.2, d := b2n (split && p.1.laneB) + b2n second }

/-- The loop line buffer of a level whose LPSk is the group's address takes its line (R145). -/
def Engine.fillLoop (x : Engine) : Engine :=
  let f (b : Vector (Option Line) 2) (k : Fin 2) : Vector (Option Line) 2 :=
    if b[k].isNone && decide (x.get (sLPS k.val) &&& 0xFFFF_FFF0 = x.pc) then
      b.set k.val (x.lines.find? (·.addr == lineOf x.pc)) k.isLt
    else b
  { x with lbuf := f (f x.lbuf 0) 1 }

/-- The writes of registers and special registers that a group makes (R103). A ctl.t:rep counts as a move to RPTC in its slot: of the moves
to RPTC and the rep the one in the highest slot sets it, or shadows the others where it is undefined (R105, R119, R142). -/
def State.regWrites (s : State) (e : EngId) (vs : List (Move × Word)) (win : List Move) : List (Nat × Word) :=
  let counts := vs.filter fun p => p.1.dst = sRPTC || (p.1.dst == window 13 + 4 && win.contains p.1)
  (vs.filterMap fun p => if p.1.dst < 0x80 ∧ p.1.dst ≠ sRPTC ∧ win.contains p.1 then some (p.1.dst, p.2) else none) ++
  (match counts.getLast? with
   | some p => if s.dstDefined e p.1 then [(sRPTC, p.2)] else []
   | none => [])

/-- What the moves of a group that issues do: reads, operand ports, triggers in the order of R189 and R458, then registers (R103–R106).
`two` is the number of fc that the group takes. The trigger moves of a split pair's lane-B word count in its second fc (R130, R423). -/
def State.issueMoves (s : State) (e : EngId) (g : Group) (ex : List Move) (vs wv : List (Move × Word)) (win : List Move)
    (trigs : List Trig) (und : Option (Move × Bool) × Nat) (srcs : List Nat) (two : Nat) : State :=
  let sel := (s.port e sSEGSEL).toNat
  let laneB := if g.split then (wv.filter fun p => isTrigger p.1.dst && p.1.laneB).length else 0
  let s := (s.noteUndefs e und).modEng e fun x => { x.fillLoop with perfAt := some (s.now, s.perfMode e, s.frameDesc e), grp := g.first }
  let s := srcs.foldl (fun s k => s.tookSocket e k) s
  let s := (wv.filter fun p => isOperand p.1.dst).foldl (fun s p => s.setPort e p.1.dst p.2) s
  let s := s.meetBpar e ex g.first
  let store (x : Trig) : Bool := decide (6 ≤ x.c) && decide (x.c < 10)
  let of (u : Nat) (st : Bool) : List Trig := trigs.filter fun x => x.u == u && store x == st
  let order := of 10 true ++ of 11 true ++ of 10 false ++ of 11 false ++ trigs.filter fun x => x.u != 10 && x.u != 11
  let s := order.foldl (fun s x => s.trigStart e x) s
  let s := (s.regWrites e vs win).foldl (fun s p =>
    if p.1 < 0x40 then s.setVreg e p.1 p.2 else s.writeSpecial e sel p.1 p.2) s
  let s := s.modEng e fun x =>
    { x with trigN := if laneB = 0 then none else some (s.now + 1, laneB), mcall := none, issued := some s.now, last := s.now + two - 1, free := max x.free (s.now + two) }
  let s := s.perf e 0x01 1
  let s := s.perf e 0x02 ex.length
  let s := s.perf e 0x03 (8 - ex.length)
  let s := s.perf e 0x08 (trigs.length - laneB)
  let s := s.perf e 0x07 (b2n g.split)
  s.perf e 0x0F (trigs.filter fun x => (x.u == 10 || x.u == 11) && decide (16 ≤ x.c) && lsuKind x.c != .write).length

/-- The group as a whole, checked in the order of R223 and issued where nothing holds it: undefined sockets; once every source can be read,
an xio.t:mcall at the end of its wait of 2 fc and then the memory faults; the second sync-class write, which holds from the fc in which
the group first stands complete (R146); and the other stalls of R134. `barred` is a delay group or repeated group. -/
def State.fare (s : State) (e : EngId) (g : Group) (barred : Bool) : Fared :=
  let ex := g.moves.filter fun m => s.guardHolds e m.guard
  let und := s.undefs e ex
  if und.2 ≠ 0 ∧ s.rbit (Reg.teCtl e) 0 then .fault ((s.noteUndefs e und).syncExc e 2)
  else
    let vs := s.values e ex
    let win := (winners ex).filter fun m => s.dstDefined e m
    let wv := vs.filter fun p => win.contains p.1
    let trigs := trigsOf g.split wv
    let ctl := trigs.find? (·.u == 13)
    let mc := trigs.find? fun x => x.u == 15 && x.c == 4
    let srcs := (ex.filter fun m => s.srcDefined e m).map (·.src) |>.dedup
    let owed := firstCause (srcs.filterMap (s.srcStall e))
    let mwait := match mc, (s.eng e).mcall with
      | some _, none => true
      | some _, some t => decide (s.now < t + 2)
      | none, _ => false
    let s := if owed.isNone && mc.isSome && (s.eng e).mcall.isNone then s.modEng e fun x => { x with mcall := some s.now } else s
    let checked : State ⊕ (Nat × State) :=
      if owed.isSome || mwait then .inr (0, s)
      else match mc with
        | some x => s.mcallCheck e x.t (barred || ctl.isSome)
        | none => .inr (0, s)
    match checked with
    | .inl s => .fault (s.modEng e fun x => { x with mcall := none })
    | .inr (ua, s) =>
      -- operand ports and unit registers are written by the group before its triggers read them
      let s1 := (wv.filter fun p => isOperand p.1.dst).foldl (fun s p => s.setPort e p.1.dst p.2) s
      match (if owed.isSome || mwait then none else trigs.findSome? (s1.trigFault e)) with
      | some f =>
        let y := f.eng e
        .fault (((s.setReg (Reg.teMfaddr e) (f.reg (Reg.teMfaddr e))).setReg (Reg.teMfinfo e) (f.reg (Reg.teMfinfo e))).modEng e
          fun x => { x with sync := y.sync, mcall := none })
      | none =>
        let pendOther := wv.any fun p => isSync p.1.dst &&
          (match (s.eng e).pend with | some (j, _) => j != p.1.dst | none => false)
        let bmuBusy := (s.eng e).bmu.isSome && wv.any fun p => decide (window 12 + 0x30 ≤ p.1.dst ∧ p.1.dst ≤ window 12 + 0x33)
        let entries := (trigs.filter fun x => takesEntry x.u x.c).length
        let own := s1.ownStores e trigs
        let causes := owed.toList ++ (if owed.isSome then [] else trigs.filterMap (s1.trigStall e own)) ++
          (if bmuBusy then [(3, 0x0E)] else []) ++ (if 256 < s.iftUsed e + entries then [(4, 0x0E)] else []) ++
          (if mwait then [(15, 0)] else [])
        match firstCause causes with
        | some (_, ev) =>
          let s := if owed.isSome then s else trigs.foldl (fun (s : State) x =>
            let w := s1.trigWaits e own x
            { s with cur := w.cur, csr := w.csr }.modEng e fun g => { g with lwait := (w.eng e).lwait, charge := (w.eng e).charge }) s
          .wait ev (if pendOther then s.modEng e fun x => { x with hold := some .second } else s)
        | none =>
          if pendOther then .wait 0 (s.modEng e fun x => { x with hold := some .second })
          else
            let two := 1 + trigs.foldl (fun n x => if x.u = 10 ∨ x.u = 11 then max n x.d else n) (b2n g.split)
            .issued (s.issueMoves e g ex vs wv win trigs und srcs two) (ctl.map fun x => (x.c, x.t, x.d))
              (trigs.any fun x => x.u == 15 && x.c == 3) (mc.map fun x => (x.t, ua))

/-! The group at the issue point -/

/-- A fetch fault of a word that the group needs (R124, R181); one of the first line of a handler halts the engine (R216). -/
def State.fetchFault (s : State) (e : EngId) (a : Word) (exc : Nat) (info : Word) : State :=
  let s := if exc = 3 ∨ exc = 4 then (s.setReg (Reg.teMfaddr e) a).setReg (Reg.teMfinfo e) info else s
  if (s.eng e).first && lineOf a == lineOf (s.eng e).pc then (s.modEng e fun x => { x with first := false }).halt e else s.syncExc e exc

/-- The engine may issue a group now: it runs native code, and no entry, frame, SYNC or return stands in the way (R213, R147). -/
def State.canIssue (s : State) (e : EngId) : Bool :=
  let x := s.eng e
  s.runs e && !x.useq.run && !x.vecWait && x.hold.isNone && x.late.isNone && decide (x.free ≤ s.now) && !s.entryDue e && !s.frameDue e

/-- The group at the issue point, or why there is none yet: an exception, or a word that is not there (R125, R128). -/
def State.group (s : State) (e : EngId) : Option (Group × State) ⊕ State :=
  let a := (s.eng e).pc
  match s.issueWord e a with
  | (.missing, _) => .inl none
  | (.failed x i, _) => .inr (s.fetchFault e a x i)
  | (.word w, s1) =>
    if wReserved w then .inr (s1.syncExc e 1)
    else if wLane w || !wPair w then .inl (some (single a w, s1))
    else
      match s1.issueWord e (a + 16) with
      | (.missing, _) => .inl none
      | (.failed x i, _) => .inr (s.fetchFault e (a + 16) x i)
      | (.word v, s2) =>
        if wLane v && !wReserved v then .inl (some (paired a w v, s2)) else .inl (some (single a w, s1))

/-- The sequencing of a group that has issued: its CTL operation, frame end, microroutine call, repetition, and the next group
(R138–R147, R77, R223). `rep` is the repetition's state before the group. The CTL operation acts after the group's moves, so that a
ctl.t:lp0 or lp1 stands where one of them names the same loop register (DESIGN CHOICE, log 127). -/
def State.afterGroup (s : State) (e : EngId) (g : Group) (rep : Nat) (ctl : Option (Nat × Word × Nat)) (fend : Bool)
    (mcall : Option (Word × Nat)) : State :=
  let s := match ctl with
    | some (c, t, d) => if c = 0x11 then s.meetSpar e (window 13 + c) else (s.ctlDo e c d t).meetSpar e (window 13 + c)
    | none => s
  let branch := match ctl with | some (c, _, _) => decide (c ≤ 3) | none => false
  let s := if branch then s.perf e 0x09 1 else s
  if fend then (s.meetSpar e (window 15 + 3)).frameEnd e
  else
    match mcall with
    | some (t, ua) => (s.meetSpar e (window 15 + 4)).mcallStart e t ua g.first g.next
    | none =>
      match ctl with
      | some (0x11, _, _) => s.eret e
      | some (c, _, _) =>
        if branch then s.modEng e fun x => { x with owe := none }
        else if rep ≠ 0 ∧ c ≠ 0x10 then s.modEng e fun x => { x with rep := 2 }
        else s.leaveGroup e g.first g.next
      | none => if rep ≠ 0 then s.modEng e fun x => { x with rep := 2 } else s.leaveGroup e g.first g.next

/-- ISSUE_GROUP (R128): the start-of-iteration test, the group at the issue point with its checks, its effects, and what
follows. -/
def State.issueGroup (s : State) (e : EngId) : State :=
  if !s.canIssue e then s
  else
    let s := s.repTest e
    match s.group e with
    | .inr s => s
    | .inl none => s
    | .inl (some (g, s)) =>
      let x := s.eng e
      match s.fare e g (decide (x.dly ≠ 0) || decide (x.rep ≠ 0)) with
      | .fault s => s
      | .wait _ s => s
      | .issued s ctl fend mcall =>
        let s := s.modEng e fun x => { x with nxt := g.next, first := false }
        (s.perf e 0x06 1).afterGroup e g x.rep ctl fend mcall

/-! The meaning -/

/-- ISSUE_GROUP (R128). -/
def execIssueGroup (e : EngId) (s : State) : Host.Outcome State Fault Refusal := .next (s.issueGroup e)

end Sys2Proof.Machine
end

