-- ==== Sys2Proof/Machine/Micro.lean ====
section
/-! DEFINITION. Emulation: dispatches (R227), microwords with their timing, conditions and next addresses (R229–R234), and the
micro-operations (R235–R238). -/

namespace Sys2Proof.Machine

/-! Fields of a microword (R229) -/

def mwOp (w : Word) : Nat := fldOf w 26 6
def mwCl (w : Word) : Nat := fldOf w 22 4
def mwI (w : Word) : Bool := bitOf w 21
def mwCond (w : Word) : Nat := fldOf w 15 6
def mwNxt (w : Word) : Nat := fldOf w 12 3
def mwField (w : Word) : Nat := fldOf w 0 12

/-- The operand fields of FIELD (R236): a, b and c. -/
def mwA (w : Word) : Nat := fldOf w 8 4
def mwB (w : Word) : Nat := fldOf w 4 4
def mwC (w : Word) : Nat := fldOf w 0 4

/-- A micro temporary: M0–M15 are V40–V55 (R109). -/
def State.mreg (s : State) (e : EngId) (k : Nat) : Word := s.port e (40 + k)
def State.setMreg (s : State) (e : EngId) (k : Nat) (v : Word) : State := s.setPort e (40 + k) v

/-- The legacy word width W (R235). -/
def State.emuWidth (s : State) (e : EngId) : Nat := let w := s.rfld (Reg.teEmucfg e) 16 5; if w = 0 then 32 else w

/-- The microcycle base as it acts (R228). -/
def State.emuBase (s : State) (e : EngId) : Nat := max 1 (min (fldOf (s.port e sEMUBASE) 0 7) 64)

/-- Bytes in the order of TE_EMUCFG.MORD (R227). -/
def State.morder (s : State) (e : EngId) (bs : List Byte) : List Byte :=
  match s.rfld (Reg.teEmucfg e) 8 2 with
  | 1 => bs.reverse
  | 2 => match bs with
    | [a, b] => [b, a]
    | [a, b, c, d] => [b, a, d, c]
    | _ => bs
  | _ => bs

/-! Conditions -/

/-- Condition input `k` (R233, R234) at the end of the present fc. An interrupt input qualifies only while no handler runs (R211). -/
def State.microCond (s : State) (e : EngId) (k : Nat) : Bool :=
  let x := s.eng e
  let f (i : Nat) : Bool := bitOf (s.port e sLFLG) i
  let m0 := s.mreg e 0
  if k = 0 then true
  else if k ≤ 0x08 then f (k - 1)
  else if k ≤ 0x10 then !f (k - 9)
  else if k = 0x11 then f 2 != f 3
  else if k = 0x12 then f 2 == f 3
  else if k = 0x13 then f 0 || f 1
  else if k = 0x14 then !f 0 && !f 1
  else if k = 0x15 then s.reg (Reg.teEmumcnt e) == 0
  else if k = 0x16 then s.reg (Reg.teEmumcnt e) != 0
  else if k = 0x17 then
    (!s.hnd e && (List.range 128).any fun i => s.asserted e i && s.qualifies e i (s.inputThr e false)) || !(s.frames e).q.isEmpty
  else if k ≤ 0x1F then s.hsSeen 0 (k - 0x18)
  else if k ≤ 0x27 then s.hsSeen 1 (k - 0x20)
  else if k = 0x28 then !x.inq.isEmpty
  else if k = 0x29 then s.outFull e
  else if k = 0x2A then x.sbuf[0].isEmpty
  else if k = 0x2B then !x.fq[1].isEmpty
  else if k = 0x2C then x.bmu.isSome
  else if k = 0x2D then m0 == 0
  else if k = 0x2E then m0 != 0
  else if k = 0x2F then m0.msb
  else if k ≤ 0x37 then
    s.angleAt (Fin.ofNat 8 (s.rfld (Reg.teEmuacsel e) (3 * (k - 0x30)) 3)) (s.reg (Reg.teEmuacmp e (k - 0x30)))
  else if k = 0x38 then false
  else s.vreg e (k - 0x38) != 0

/-! Next address -/

/-- What follows a microword: a microword, a dispatch or the end of the call, or the end of emulation. -/
inductive Next where
  | to (a : Nat)
  | disp
  | exit
  deriving DecidableEq, Repr

/-- DEPTH of the micro stack (R232). -/
def State.microDepth (s : State) (e : EngId) : Nat := s.rfld (Reg.teEmustat e) 8 4

/-- The next address of the microword `w` at `a` (R231, R232), with the condition held where `force`; or the cause of the Micro
Fault. -/
def State.microNext (s : State) (e : EngId) (w : Word) (a : Nat) (force : Bool) : Nat ⊕ (Next × State) :=
  let c := force || s.microCond e (mwCond w)
  let on := .to ((a + 1) % 4096)
  let f := mwField w
  let d := s.microDepth e
  match mwNxt w with
  | 0 => .inr (on, s)
  | 1 => .inr (if c then .to f else on, s)
  | 2 => .inr (if c then on else .to f, s)
  | 3 =>
    if !c then .inr (on, s)
    else if 8 ≤ d then .inl 2
    else .inr (.to f, (s.setReg (Reg.teEmustk e d) (BitVec.ofNat 32 ((a + 1) % 4096))).setFld (Reg.teEmustat e) 8 4 (d + 1))
  | 4 =>
    if !c then .inr (on, s)
    else if d = 0 then .inl 3
    else .inr (.to ((s.reg (Reg.teEmustk e (d - 1))).toNat % 4096), s.setFld (Reg.teEmustat e) 8 4 (d - 1))
  | 5 => .inr (if c then .disp else on, s)
  | 6 => .inr (if c then .to ((f + (s.mreg e 0).toNat % 16) % 4096) else on, s)
  | _ =>
    let n := (s.reg (Reg.teEmumcnt e)).toNat % 4096
    if n = 0 then .inr (on, s) else .inr (.to f, s.setReg (Reg.teEmumcnt e) (BitVec.ofNat 32 (n - 1)))

/-! Periods -/

/-- A microword or dispatch with `period` and `work` slips (R230). -/
def State.microSlip (s : State) (e : EngId) (period work : Nat) : State :=
  let d := work - period
  if d = 0 then s else (s.setReg (Reg.teEmuslip e) (satAdd (s.reg (Reg.teEmuslip e)) d)).orReg (Reg.teEmustat e) (bitW 16)

/-- The period of a microword, and of a dispatch through a Catalogue entry (R227, R230). -/
def State.wordPeriod (s : State) (e : EngId) (w : Word) : Nat := (mwCl w + 1) * s.emuBase e
def State.entPeriod (s : State) (e : EngId) (ent : Nat) : Nat := (ent / 2 ^ 12 + 1) * s.emuBase e

/-- The Catalogue index of a macro instruction (R227). -/
def State.catIndex (s : State) (e : EngId) (mir : Word) : Nat :=
  let dec := s.reg (Reg.teEmudec e)
  (fldOf mir (fldOf dec 0 5) (max 1 (min (fldOf dec 8 4) 12)) + fldOf dec 16 12) % 4096

/-- The present fc is a slip fc (R230): one of the microword that runs from its period on, of one or of a dispatch that still waits, or of
the dispatch whose first microword starts later. -/
def State.slipping (s : State) (e : EngId) : Bool :=
  let u := (s.eng e).useq
  u.run &&
  (match u.fin with
   | some f => decide (u.start + s.wordPeriod e f.w ≤ s.now)
   | none =>
     if s.now < u.start then decide (u.slipAt ≤ s.now)
     else if u.intPt || u.back then false
     else if u.disp then
       let mir := wordOf (s.morder e (s.readBytes (s.xlatNow e (s.port e sMPC) 0 4 permR).1 4))
       decide (u.start + s.entPeriod e (ofBytes (s.readBytes (catAddr e (s.catIndex e mir)) 2)) ≤ s.now)
     else
       decide (u.start + s.wordPeriod e (wordOf (s.readBytes (microAddr e ((s.port e sUPC).toNat % 4096)) 4)) ≤ s.now))

/-- The end of a microword in fc `t` (R229, R231, R240): its next address, an interruptible point, a dispatch, or the end of the
call or of emulation. -/
def State.microEnd (s : State) (e : EngId) (w : Word) (nx : Next) (t : Nat) : State :=
  let point (x : Engine) (i : Bool) : Engine :=
    { x with useq := { x.useq with start := t, slipAt := t, intPt := i, count := if i then 0 else x.useq.count } }
  match nx with
  | .to a => (s.setPort e sUPC (BitVec.ofNat 32 a)).modEng e fun x => point x (mwI w)
  | .disp =>
    if s.call e then s.seqEnd e t
    else s.modEng e fun x => let y := point x true; { y with useq := { y.useq with disp := true } }
  | .exit => s.seqEnd e t

/-- How the operation of a microword fares: a synchronous exception, a wait for another command, its effect with its work in fc,
a far load whose answer is owed, or a WAITC, whose period runs. A wait carries the stall event to which its fc is charged, 0 where none
counts it (R421). -/
inductive Did where
  | fault (s : State)
  | wait (ev : Nat) (s : State)
  | done (s : State) (work : Nat)
  | owed (s : State)
  | settled (s : State)

/-- The fc from the start of the microword or dispatch to the present one: its waits for the near port, a Vitrine, a store or a unit, which
its work includes (R227, R230). -/
def State.microWaited (s : State) (e : EngId) : Nat := s.now - (s.eng e).useq.start

/-- A microword whose next address can be a stack fault: a CALL with the stack full, a RET with it empty (R232). -/
def State.mayFault (s : State) (e : EngId) (w : Word) : Bool :=
  mwOp w != 0x27 && ((mwNxt w == 3 && decide (8 ≤ s.microDepth e)) || (mwNxt w == 4 && s.microDepth e == 0))

/-- What a microword takes back that meets a stack fault, with the states before and after its operation (R240). -/
def State.undoOf (s0 s : State) (e : EngId) : MicroUndo :=
  let x := s0.eng e
  let y := s.eng e
  { ports := x.ports, mcnt := s0.reg (Reg.teEmumcnt e), mir := s0.reg (Reg.teEmumir e), slips := s0.reg (Reg.teEmuslip e)
    slip := s0.rbit (Reg.teEmustat e) 16, units := x.units, ift := s0.iftUsed e, noBmu := x.bmu.isNone && y.bmu.isSome, seq := x.seq
    outN := y.outq.length - x.outq.length, inq := x.inq.take (x.inq.length - y.inq.length) }

/-- A microword that meets a stack fault takes back what it has done, with no effect but the drain of what earlier microwords triggered
(R240): its writes have stayed where they were. -/
def State.takeBack (s : State) (e : EngId) (u : MicroUndo) : State :=
  let s := ((s.setReg (Reg.teEmumcnt e) u.mcnt).setReg (Reg.teEmumir e) u.mir).setReg (Reg.teEmuslip e) u.slips
  let s := (s.putBit (Reg.teEmustat e) 16 u.slip).setFld (Reg.teIft e) 0 9 u.ift
  s.modEng e fun x =>
    { x with ports := u.ports, units := u.units, bmu := if u.noBmu then none else x.bmu, trap := none,
             sbuf := x.sbuf.map fun l => l.filter fun t => decide (t.seq < u.seq),
             far := x.far.filter fun f => decide (f.seq < u.seq), farq := x.farq.filter fun f => decide (f.seq < u.seq),
             outq := x.outq.take (x.outq.length - u.outN), inq := u.inq ++ x.inq }

/-- The operation of a microword has been carried out, `k` fc of work in its present fc (R230): its end is known, and what follows it is
decided in the fc before its end. `s0` is the state before the operation. -/
def State.microFinish (s0 s : State) (e : EngId) (w : Word) (a k : Nat) (wait : Bool) : State :=
  let period := s0.wordPeriod e w
  let work := s0.microWaited e + k
  let t := (s0.eng e).useq.start + max period work
  let undo := if s0.mayFault e w && !wait then some (s0.undoOf s e) else none
  (s.microSlip e period work).modEng e fun x =>
    { x with trap := x.trap.map fun p => (p.1, t), useq := { x.useq with fin := some ⟨w, a, some t, wait, undo⟩ } }

/-- The sample fc of a microword (R230, R231): its next address is decided, with its condition at the end of that fc. A WAITC whose
condition does not hold is followed by another period (R237). With a stack fault the microword has no effect (R232, R240). -/
def State.microDecide (s : State) (e : EngId) : State :=
  match (s.eng e).useq.fin with
  | none => s
  | some f =>
    match f.at' with
    | none => s
    | some t =>
      if s.now + 1 < t then s
      else
        let s := s.modEng e fun x => { x with useq := { x.useq with fin := none } }
        if mwOp f.w = 0x27 then s.microEnd e f.w (if s.call e then .disp else .exit) t
        else if f.wait && !s.microCond e (mwCond f.w) then s.microEnd e f.w (.to f.a) t
        else
          match s.microNext e f.w f.a f.wait with
          | .inl c => (match f.undo with | some u => s.takeBack e u | none => s).microFault e c f.a
          | .inr (nx, s) => s.microEnd e f.w nx t

/-- A microword or dispatch can start now (R230, R240): the sequencer stands before one, the one before has ended, and no entry, frame
or SYNC is in the way. -/
def State.microReady (s : State) (e : EngId) (disp : Bool) : Bool :=
  let x := s.eng e
  s.runs e && x.useq.run && x.useq.fin.isNone && (x.useq.disp == disp) && decide (x.useq.start ≤ s.now) && !x.vecWait &&
  x.hold.isNone && !s.entryDue e && !s.frameDue e

/-- Bytes of the stores as the sequencer reads them (R226): in emulation mode without the writes that no SYNC has followed. -/
def State.seqByte (s : State) (e : EngId) (a : Nat) : Byte :=
  match (if s.call e then none else (s.eng e).useq.old.find? (·.1 == a)) with
  | some p => p.2
  | none => s.memByte a

/-- An entry of `n` bytes of the stores, as read through the private port (R224, R226). -/
def State.seqEntry (s : State) (e : EngId) (a n : Nat) : Bool × Nat × State :=
  let r := s.seqRead e a n
  (r.1, ofBytes ((List.range n).map fun i => s.seqByte e (a + i)), r.2.2)

/-- A microword of a dispatch that ran after a store write without a SYNC: what it does is undefined (R226). -/
def State.wildMicro (s : State) (e : EngId) : Bool := (s.eng e).useq.wild && !s.call e

/-- What waiting leaves: the ECC state and records of reads, what the Curator and the operation's own wait keep, and the
wait's stall event. The microword or dispatch has begun, so that the sequencer stands at no interruptible point (R240). -/
def State.waited (s w : State) (e : EngId) (ev : Nat) : State :=
  { s with cur := w.cur, csr := w.csr, ecc := w.ecc, logn := w.logn }.modEng e fun x =>
    { x with hold := (w.eng e).hold, lwait := (w.eng e).lwait, charge := (w.eng e).charge, wev := some (s.now, ev)
             useq := { x.useq with intPt := false, back := false } }

/-- The microword at the µPC with an operation that `p` picks runs: the checks before it starts (R224, R241), its operation and its
next address. A wild dispatch leaves every field but the operation free (R226). -/
def State.micro (s : State) (e : EngId) (p : Nat → Bool) (f : State → Word → Nat → Did) : State :=
  let u := (s.eng e).useq
  let a := (s.port e sUPC).toNat % 4096
  let wild := s.wildMicro e
  let r := s.seqEntry e (microAddr e a) 4
  let stored := BitVec.ofNat 32 r.2.1
  if !s.microReady e false || !(wild || p (mwOp stored)) then s
  else if u.injI || 256 ≤ u.count then
    (s.modEng e fun x => { x with useq := { x.useq with injI := false } }).microFault e 4 a
  else
    if r.1 then r.2.2.syncExc e 10
    else
      let s0 := r.2.2
      let d := s0.drawWord
      let op := match (List.range 64).find? p with | some k => k | none => 0
      let w := if wild then putFld d.1 26 6 op else stored
      let s0 := if wild then d.2 else s0
      let s1 := (s0.modEng e fun x =>
        { x with useq := { x.useq with count := x.useq.count + 1, intPt := false, back := false } }).perf e 0x13 1
      match f s1 w a with
      | .fault s => s
      | .wait ev w => s.waited w e ev
      | .settled s => s
      | .done s2 work => s1.microFinish s2 e w a work false
      | .owed s2 => s2.modEng e fun x => { x with useq := { x.useq with fin := some ⟨w, a, none, false, none⟩ } }

/-! The expander's use of ALU0 (R239): the spec does not give what its moves leave in the unit's ports. -/

/-- ALU0 after an operation of the expander: its operand port and its result are free. It meets an injected socket parity error (R412); its
trigger socket, which the spec does not give, is free. -/
def State.expandAlu (s : State) (e : EngId) : State :=
  let d := s.drawWord
  let k := d.2.drawWord
  let r := (k.2.setPort e (opO 0) d.1).drawWord
  let s := (r.2.trigger e 0 r.2.now 1 1 r.1 0 false 0).meetSpar e (window 0 + k.1.toNat % 32)
  s.setUnit e 0 ((s.unit e 0).read false)

/-- An arithmetic micro-operation (R235, R236): 2 fc of work. -/
def State.microArith (s : State) (e : EngId) (op : Nat) (w : Word) (stall : Nat) : Did :=
  let n := s.emuWidth e
  match Sys2Proof.Machine.microArith op n (s.rbit (Reg.teEmucfg e) 12) (s.mreg e (mwA w)) (s.mreg e (mwB w)) (s.port e sLFLG) with
  | none => .done s (2 + stall)
  | some x =>
    let s := (s.expandAlu e).setPort e sLFLG (x.flags n (s.port e sLFLG))
    .done (if microWrites op then s.setMreg e (mwA w) (BitVec.ofNat 32 x.r) else s) (2 + stall)

/-- A 32-bit operation of ALU0 without flags (R236): ADDI, ADDA and SHLA. -/
def State.microWide (s : State) (e : EngId) (w v : Word) (stall : Nat) : Did :=
  .done ((s.expandAlu e).setMreg e (mwA w) v) (2 + stall)

/-- An operation of 1 fc that only moves a value (R236). -/
def microMove (s : State) (stall : Nat) : Did := .done s (1 + stall)

/-! Memory access -/

/-- The size of a memory micro-operation (R236). -/
def microSize (w : Word) : Nat := match mwC w % 4 with | 0 => 1 | 1 => 2 | _ => 4

/-- The codes of the table of R182 that the expander's loads and stores use. -/
def loadCode (z : Nat) : Nat := if z = 1 then 0 else if z = 2 then 2 else 4
def storeCode (z : Nat) : Nat := if z = 1 then 6 else if z = 2 then 7 else 8

/-- The value that LSU0.q holds for the expander's read when its load met an uncorrectable unit: the result before (R192). -/
def State.oldQ (s : State) (e : EngId) : Word :=
  match ((s.eng e).lq[0]).getLast? with | some p => p.val | none => s.port e (keyLq 0)

/-- The stall event of an LSU access that waits, with what the Curator holds before the near port's other service (R421). -/
def State.memEvent (s : State) (e : EngId) (o : MemOp) (code : Nat) (a : Word) : Nat :=
  match s.memWhy e o code a [] with
  | some (r, ev) => if (s.memHeld e o).1 && decide (8 < r) then 0x0D else ev
  | none => if (s.memHeld e o).1 then 0x0D else 0

/-- A local load of the sequencer through LSU0 (R227, R237): a precise fault, a wait with its stall event, or the value, whether it split,
and the state. The load meets an injected socket parity error (R239, R412). -/
def State.microLoad (s : State) (e : EngId) (a : Word) (z : Nat) : State ⊕ (Nat × State) ⊕ (Word × Bool × State) :=
  let o : MemOp := { lsu := 0, far := false, kind := .read, size := z, signed := false, a := a, data := 0, micro := none }
  let x := s.access e o
  if x.cause ≠ 0 then .inl (s.memFault e a (o.info x) (causeExc x.cause))
  else if s.memStall e o 0x40 a then .inr (.inl (s.memEvent e o 0x40 a, s.noteWait e o 0x40 a))
  else if (s.memHeld e o).1 then .inr (.inl (0x0D, (s.memHeld e o).2))
  else
    let old := s.oldQ e
    let s := ((s.memHeld e o).2.memRun e o 0).meetSpar e (window 10 + loadCode z)
    match ((s.eng e).lq[0]).getLast? with
    | some p => .inr (.inr (if p.bad then old else p.val, x.split, s))
    | none => .inr (.inr (old, x.split, s))

/-- A loaded value with its bytes ordered (R236). -/
def State.microOrder (s : State) (e : EngId) (z : Nat) (on : Bool) (v : Word) : Word :=
  if on then wordOf (s.morder e (bytesOf z v.toNat)) else v

/-- MRD (R236, R237). A far one is answered later. -/
def State.mrd (s : State) (e : EngId) (w : Word) (a stall : Nat) : Did :=
  let z := microSize w
  let addr := s.mreg e (mwB w)
  if bitOf w 3 then
    let o : MemOp := { lsu := 1, far := true, kind := .read, size := z, signed := false, a := addr, data := 0,
                       micro := some (Fin.ofNat 16 (mwA w)) }
    let x := s.access e o
    if (s.eng e).farOwed 1 ≠ 0 then .fault (s.microFault e 7 a)
    else if x.cause ≠ 0 then .fault (s.memFault e addr (o.info x) (causeExc x.cause))
    else if s.memStall e o 0x50 addr then .wait (s.memEvent e o 0x50 addr) s
    else if 256 ≤ s.iftUsed e then .wait 0x0E s
    else .owed (((s.memRun e o 0).meetSpar e (window 11 + 16 + loadCode z)).perf e 0x0F 1)
  else
    match s.microLoad e addr z with
    | .inl s => .fault s
    | .inr (.inl (ev, s)) => .wait ev s
    | .inr (.inr (v, split, s)) =>
      .done (s.setMreg e (mwA w) (s.microOrder e z (bitOf w 2) v)) ((if split then 6 else 5) + stall)

/-- MWR (R236, R237). -/
def State.mwr (s : State) (e : EngId) (w : Word) (stall : Nat) : Did :=
  let z := microSize w
  let far := bitOf w 3
  let v := s.microOrder e z (bitOf w 2) (s.mreg e (mwA w))
  let o : MemOp := { lsu := if far then 1 else 0, far := far, kind := .write, size := z, signed := false,
                     a := s.mreg e (mwB w), data := v, micro := none }
  let x := s.access e o
  if x.cause ≠ 0 then .fault (s.memFault e o.a (o.info x) (causeExc x.cause))
  else if s.memStall e o 0x60 o.a then .wait (s.memEvent e o 0x60 o.a) s
  else if far && decide (256 ≤ s.iftUsed e) then .wait 0x0E s
  else .done (((s.setPort e (opO (10 + b2n far)) v).memRun e o 0).meetSpar e (window (10 + b2n far) + 16 * b2n far + storeCode z)) (1 + stall)

/-- MFETCH (R236). -/
def State.mfetch (s : State) (e : EngId) (w : Word) (stall : Nat) : Did :=
  let z := microSize w
  let mpc := s.port e sMPC
  match s.microLoad e mpc z with
  | .inl s => .fault s
  | .inr (.inl (ev, s)) => .wait ev s
  | .inr (.inr (v, split, s)) =>
    .done ((s.setMreg e (mwA w) (s.microOrder e z true v)).setPort e sMPC (mpc + BitVec.ofNat 32 z))
      ((if split then 6 else 5) + stall)

/-- A far MRD is answered (R230, R237): its value, or for a failed one zero with the deferred fault, and the microword ends 2 fc
after the answer or with its period. -/
def State.mrdAnswered (s : State) (e : EngId) : State :=
  match (s.eng e).far.find? (fun f => f.micro.isSome && f.ready), (s.eng e).useq.fin with
  | some f, some x =>
    let v := match f.wild with | some w => extLoad false f.size (bytesOf f.size w.toNat) | none => if f.halves.any (·.failed) then 0 else wordOf f.bytes
    let k := match f.micro with | some k => k.val | none => 0
    let s1 := (s.modEng e fun g => { g with far := g.far.filter (·.seq != f.seq) }).iftFree e 1
    let s2 := (s1.setMreg e k (s1.microOrder e f.size (bitOf x.w 2) v)).farFault e f
    s1.microFinish s2 e x.w x.a 2 false
  | _, _ => s

/-! The other micro-operations with rules of their own -/

/-- EXF (R236): bit.t:extu through BIT0; 3 fc of work. -/
def State.exf (s : State) (e : EngId) (w : Word) (stall : Nat) : Did :=
  if !s.canTrigger e 9 s.now (bitLat 0) then .wait 0x0E s
  else
    let spec := s.mreg e (mwB w)
    let mir := s.reg (Reg.teEmumir e)
    let s := (s.setPort e (opO1 9) spec).bitOp e 0 0 mir
    let s := s.setUnit e 9 ((s.unit e 9).read false)
    .done (s.setMreg e (mwA w) (bitFn 0 0 spec mir)) (3 + stall)

/-- SYNC (R236): steps 1 and 2 of R147, and the read-ahead of R226 discarded; 3 fc after the last store. -/
def State.microSync (s : State) (e : EngId) (stall : Nat) : Did :=
  if !s.storesDone e then .wait 0 s
  else .done ((s.applyPend e).modEng e fun x => { x with useq := { x.useq with dirty := false, old := [] } }) (3 + stall)

/-- WAITC (R237): a period whose condition does not hold is followed by another; else NXT acts as with the condition held. -/
def State.waitc (s : State) (e : EngId) (stall : Nat) : State :=
  s.micro e (· == 0x24) fun s1 w a => .settled (s1.microFinish s1 e w a (1 + stall) true)

/-- Sockets that a nanoword may not name: CTL triggers, XIO.t:mcall and XIO.t:fend (R238). -/
def nanoBarred (k : Nat) : Bool :=
  (decide (window 13 ≤ k) && decide (k < window 13 + 0x20)) || k == window 15 + 3 || k == window 15 + 4

/-- NANO (R238): the nanoword issues as a group of two words; its work is that of the group and its stalls. -/
def State.nano (s : State) (e : EngId) (w : Word) (a stall : Nat) : Did :=
  let n := (mwOp w - 0x38) * 64 + fldOf w 0 6
  let r := s.seqEntry e (nanoAddr e n) 32
  if r.1 then .fault (r.2.2.syncExc e 10)
  else
    let wild := s.wildMicro e
    let v := if wild then ofBytes (freeBytes r.2.2.free 32) else r.2.1
    let lo := BitVec.ofNat 128 (v % 2 ^ 128)
    let hi := BitVec.ofNat 128 (v / 2 ^ 128)
    let s := if wild then r.2.2.drawn 32 else r.2.2
    if wReserved lo || wReserved hi then .fault (s.syncExc e 1)
    else
      let g := paired (BitVec.ofNat 32 a) lo hi
      if g.moves.any fun m => nanoBarred m.dst then .fault (s.microFault e 5 a)
      else
        match s.fare e g false with
        | .fault s => .fault s
        | .wait ev s => .wait ev s
        | .issued s _ _ _ => .done (s.perf e 0x06 1) ((if g.split then 2 else 1) + stall)

/-! Dispatch -/

/-- EMU_DISPATCH (R227): the macro instruction is read at MPC and decoded through the Catalogue, MPC advances, and the first
microword starts at the end of the dispatch period. Where the Catalogue read fails nothing of it takes effect (R224). After a write to a store without a SYNC its results are free (R226). -/
def State.dispatch (s : State) (e : EngId) : State :=
  let u := (s.eng e).useq
  if !s.microReady e true then s
  else
    let mpc := s.port e sMPC
    match s.microLoad e mpc 4 with
    | .inl f => f
    | .inr (.inl (ev, w)) => s.waited w e ev
    | .inr (.inr (v, split, s')) =>
      let d := s'.drawWord
      let mir := if u.dirty then d.1 else s.microOrder e 4 true v
      let i := s.catIndex e mir
      let work := s.microWaited e + (if split then 7 else 6)
      if (s.seqEntry e (catAddr e i) 2).1 then ((s.seqEntry e (catAddr e i) 2).2.2.syncExc e 10).syncDue e (u.start + work)
      else
        let r := ((if u.dirty then d.2 else s').setReg (Reg.teEmumir e) mir).seqEntry e (catAddr e i) 2
        let x := r.2.2.drawWord
        let ent := if u.dirty then x.1.toNat % 2 ^ 16 else r.2.1
        let s := if u.dirty then x.2 else r.2.2
        if u.injM || ent = 0xFFFF then
          ((s.modEng e fun x => { x with useq := { x.useq with injM := false } }).catMiss e i).syncDue e (u.start + work)
        else
          let y := s.drawWord
          let next := if u.dirty then y.1 else mpc + BitVec.ofNat 32 (s.rfld (Reg.teEmucfg e) 0 4)
          let s := if u.dirty then y.2 else s
          let period := s.entPeriod e ent
          let s := ((s.setPort e sMPC next).setPort e sUPC (BitVec.ofNat 32 (ent % 4096))).microSlip e period work
          s.modEng e fun x =>
            { x with useq := { x.useq with disp := false, start := u.start + max period work, slipAt := u.start + period, intPt := false, back := false, count := 0,
                                           wild := u.dirty } }

/-! The meanings -/

/-- NOP (R236): micro-operation 0x00. -/
def execMuNop (e : EngId) (stall : Stall) (s : State) : Host.Outcome State Fault Refusal :=
  .next (s.micro e (· == 0x00) fun s _ _ => microMove s stall.toNat)
/-- MOV (R236): micro-operation 0x01. -/
def execMuMov (e : EngId) (stall : Stall) (s : State) : Host.Outcome State Fault Refusal :=
  .next (s.micro e (· == 0x01) fun s w _ => microMove (s.setMreg e (mwA w) (s.mreg e (mwB w))) stall.toNat)
/-- LDI (R236): micro-operation 0x02. -/
def execMuLdi (e : EngId) (stall : Stall) (s : State) : Host.Outcome State Fault Refusal :=
  .next (s.micro e (· == 0x02) fun s w _ => microMove (s.setMreg e (mwA w) (BitVec.ofNat 32 (fldOf w 0 8))) stall.toNat)
/-- ADD (R235, R236): micro-operation 0x03. -/
def execMuAdd (e : EngId) (stall : Stall) (s : State) : Host.Outcome State Fault Refusal :=
  .next (s.micro e (· == 0x03) fun s w _ => s.microArith e 0x03 w stall.toNat)
/-- ADC (R235, R236): micro-operation 0x04. -/
def execMuAdc (e : EngId) (stall : Stall) (s : State) : Host.Outcome State Fault Refusal :=
  .next (s.micro e (· == 0x04) fun s w _ => s.microArith e 0x04 w stall.toNat)
/-- SUB (R235, R236): micro-operation 0x05. -/
def execMuSub (e : EngId) (stall : Stall) (s : State) : Host.Outcome State Fault Refusal :=
  .next (s.micro e (· == 0x05) fun s w _ => s.microArith e 0x05 w stall.toNat)
/-- SBC (R235, R236): micro-operation 0x06. -/
def execMuSbc (e : EngId) (stall : Stall) (s : State) : Host.Outcome State Fault Refusal :=
  .next (s.micro e (· == 0x06) fun s w _ => s.microArith e 0x06 w stall.toNat)
/-- AND (R235, R236): micro-operation 0x07. -/
def execMuAnd (e : EngId) (stall : Stall) (s : State) : Host.Outcome State Fault Refusal :=
  .next (s.micro e (· == 0x07) fun s w _ => s.microArith e 0x07 w stall.toNat)
/-- OR (R235, R236): micro-operation 0x08. -/
def execMuOr (e : EngId) (stall : Stall) (s : State) : Host.Outcome State Fault Refusal :=
  .next (s.micro e (· == 0x08) fun s w _ => s.microArith e 0x08 w stall.toNat)
/-- XOR (R235, R236): micro-operation 0x09. -/
def execMuXor (e : EngId) (stall : Stall) (s : State) : Host.Outcome State Fault Refusal :=
  .next (s.micro e (· == 0x09) fun s w _ => s.microArith e 0x09 w stall.toNat)
/-- NOT (R235, R236): micro-operation 0x0A. -/
def execMuNot (e : EngId) (stall : Stall) (s : State) : Host.Outcome State Fault Refusal :=
  .next (s.micro e (· == 0x0A) fun s w _ => s.microArith e 0x0A w stall.toNat)
/-- SHL (R235, R236): micro-operation 0x0B. -/
def execMuShl (e : EngId) (stall : Stall) (s : State) : Host.Outcome State Fault Refusal :=
  .next (s.micro e (· == 0x0B) fun s w _ => s.microArith e 0x0B w stall.toNat)
/-- SHR (R235, R236): micro-operation 0x0C. -/
def execMuShr (e : EngId) (stall : Stall) (s : State) : Host.Outcome State Fault Refusal :=
  .next (s.micro e (· == 0x0C) fun s w _ => s.microArith e 0x0C w stall.toNat)
/-- SRA (R235, R236): micro-operation 0x0D. -/
def execMuSra (e : EngId) (stall : Stall) (s : State) : Host.Outcome State Fault Refusal :=
  .next (s.micro e (· == 0x0D) fun s w _ => s.microArith e 0x0D w stall.toNat)
/-- RLC (R235, R236): micro-operation 0x0E. -/
def execMuRlc (e : EngId) (stall : Stall) (s : State) : Host.Outcome State Fault Refusal :=
  .next (s.micro e (· == 0x0E) fun s w _ => s.microArith e 0x0E w stall.toNat)
/-- RRC (R235, R236): micro-operation 0x0F. -/
def execMuRrc (e : EngId) (stall : Stall) (s : State) : Host.Outcome State Fault Refusal :=
  .next (s.micro e (· == 0x0F) fun s w _ => s.microArith e 0x0F w stall.toNat)
/-- CMP (R235, R236): micro-operation 0x10. -/
def execMuCmp (e : EngId) (stall : Stall) (s : State) : Host.Outcome State Fault Refusal :=
  .next (s.micro e (· == 0x10) fun s w _ => s.microArith e 0x10 w stall.toNat)
/-- TST (R235, R236): micro-operation 0x11. -/
def execMuTst (e : EngId) (stall : Stall) (s : State) : Host.Outcome State Fault Refusal :=
  .next (s.micro e (· == 0x11) fun s w _ => s.microArith e 0x11 w stall.toNat)
/-- INC (R235, R236): micro-operation 0x12. -/
def execMuInc (e : EngId) (stall : Stall) (s : State) : Host.Outcome State Fault Refusal :=
  .next (s.micro e (· == 0x12) fun s w _ => s.microArith e 0x12 w stall.toNat)
/-- DEC (R235, R236): micro-operation 0x13. -/
def execMuDec (e : EngId) (stall : Stall) (s : State) : Host.Outcome State Fault Refusal :=
  .next (s.micro e (· == 0x13) fun s w _ => s.microArith e 0x13 w stall.toNat)
/-- ADDI (R236): micro-operation 0x14. -/
def execMuAddi (e : EngId) (stall : Stall) (s : State) : Host.Outcome State Fault Refusal :=
  .next (s.micro e (· == 0x14) fun s w _ =>
    s.microWide e w (s.mreg e (mwA w) + ((BitVec.ofNat 8 (fldOf w 0 8)).signExtend 32)) stall.toNat)
/-- ADDA (R236): micro-operation 0x15. -/
def execMuAdda (e : EngId) (stall : Stall) (s : State) : Host.Outcome State Fault Refusal :=
  .next (s.micro e (· == 0x15) fun s w _ => s.microWide e w (s.mreg e (mwA w) + s.mreg e (mwB w)) stall.toNat)
/-- SHLA (R236): micro-operation 0x16. -/
def execMuShla (e : EngId) (stall : Stall) (s : State) : Host.Outcome State Fault Refusal :=
  .next (s.micro e (· == 0x16) fun s w _ => s.microWide e w (s.mreg e (mwB w) <<< mwC w) stall.toNat)
/-- EXF (R236): micro-operation 0x17. -/
def execMuExf (e : EngId) (stall : Stall) (s : State) : Host.Outcome State Fault Refusal :=
  .next (s.micro e (· == 0x17) fun s w _ => s.exf e w stall.toNat)
/-- LDMIR (R236): micro-operation 0x18. -/
def execMuLdmir (e : EngId) (stall : Stall) (s : State) : Host.Outcome State Fault Refusal :=
  .next (s.micro e (· == 0x18) fun s w _ => microMove (s.setMreg e (mwA w) (s.reg (Reg.teEmumir e))) stall.toNat)
/-- MRD (R236, R237): micro-operation 0x19. -/
def execMuMrd (e : EngId) (stall : Stall) (s : State) : Host.Outcome State Fault Refusal :=
  .next (s.micro e (· == 0x19) fun s w a => s.mrd e w a stall.toNat)
/-- MWR (R236, R237): micro-operation 0x1A. -/
def execMuMwr (e : EngId) (stall : Stall) (s : State) : Host.Outcome State Fault Refusal :=
  .next (s.micro e (· == 0x1A) fun s w _ => s.mwr e w stall.toNat)
/-- MFETCH (R236, R237): micro-operation 0x1B. -/
def execMuMfetch (e : EngId) (stall : Stall) (s : State) : Host.Outcome State Fault Refusal :=
  .next (s.micro e (· == 0x1B) fun s w _ => s.mfetch e w stall.toNat)
/-- MPCW (R236): micro-operation 0x1C. -/
def execMuMpcw (e : EngId) (stall : Stall) (s : State) : Host.Outcome State Fault Refusal :=
  .next (s.micro e (· == 0x1C) fun s w _ => microMove (s.setPort e sMPC (s.mreg e (mwA w))) stall.toNat)
/-- MPCR (R236): micro-operation 0x1D. -/
def execMuMpcr (e : EngId) (stall : Stall) (s : State) : Host.Outcome State Fault Refusal :=
  .next (s.micro e (· == 0x1D) fun s w _ => microMove (s.setMreg e (mwA w) (s.port e sMPC)) stall.toNat)
/-- LDF (R236): micro-operation 0x1E. -/
def execMuLdf (e : EngId) (stall : Stall) (s : State) : Host.Outcome State Fault Refusal :=
  .next (s.micro e (· == 0x1E) fun s w _ => microMove (s.setMreg e (mwA w) (s.port e sLFLG)) stall.toNat)
/-- STF (R236): micro-operation 0x1F. -/
def execMuStf (e : EngId) (stall : Stall) (s : State) : Host.Outcome State Fault Refusal :=
  .next (s.micro e (· == 0x1F) fun s w _ => microMove (s.setPort e sLFLG (s.mreg e (mwA w) &&& 0xFF)) stall.toNat)
/-- SETF (R236): micro-operation 0x20. -/
def execMuSetf (e : EngId) (stall : Stall) (s : State) : Host.Outcome State Fault Refusal :=
  .next (s.micro e (· == 0x20) fun s w _ =>
    microMove (s.setPort e sLFLG (s.port e sLFLG ||| BitVec.ofNat 32 (fldOf w 0 8))) stall.toNat)
/-- CLRF (R236): micro-operation 0x21. -/
def execMuClrf (e : EngId) (stall : Stall) (s : State) : Host.Outcome State Fault Refusal :=
  .next (s.micro e (· == 0x21) fun s w _ =>
    microMove (s.setPort e sLFLG (s.port e sLFLG &&& ~~~(BitVec.ofNat 32 (fldOf w 0 8)))) stall.toNat)
/-- LDCNT (R236): micro-operation 0x22. -/
def execMuLdcnt (e : EngId) (stall : Stall) (s : State) : Host.Outcome State Fault Refusal :=
  .next (s.micro e (· == 0x22) fun s w _ => microMove (s.setReg (Reg.teEmumcnt e) (BitVec.ofNat 32 (mwField w))) stall.toNat)
/-- LDCNTR (R236): micro-operation 0x23. -/
def execMuLdcntr (e : EngId) (stall : Stall) (s : State) : Host.Outcome State Fault Refusal :=
  .next (s.micro e (· == 0x23) fun s w _ => microMove (s.setReg (Reg.teEmumcnt e) (s.mreg e (mwA w) &&& 0xFFF)) stall.toNat)
/-- WAITC (R237): micro-operation 0x24. -/
def execMuWaitc (e : EngId) (stall : Stall) (s : State) : Host.Outcome State Fault Refusal := .next (s.waitc e stall.toNat)
/-- SYNC (R236, R147): micro-operation 0x25. -/
def execMuSync (e : EngId) (stall : Stall) (s : State) : Host.Outcome State Fault Refusal :=
  .next (s.micro e (· == 0x25) fun s _ _ => s.microSync e stall.toNat)
/-- TRAP (R236): micro-operation 0x26. -/
def execMuTrap (e : EngId) (stall : Stall) (s : State) : Host.Outcome State Fault Refusal :=
  .next (s.micro e (· == 0x26) fun s w _ =>
    microMove (s.modEng e fun x => { x with trap := some (fldOf w 0 8, 0) }) stall.toNat)
/-- EXIT (R223, R236): micro-operation 0x27. -/
def execMuExit (e : EngId) (stall : Stall) (s : State) : Host.Outcome State Fault Refusal :=
  .next (s.micro e (· == 0x27) fun s _ _ => microMove s stall.toNat)
/-- NANO (R238): micro-operations 0x38 to 0x3F. -/
def execMuNano (e : EngId) (stall : Stall) (s : State) : Host.Outcome State Fault Refusal :=
  .next (s.micro e (fun k => decide (0x38 ≤ k)) fun s w a => s.nano e w a stall.toNat)
/-- MICRO_OP_UNDEFINED (R236): micro-operations 0x28 to 0x37 raise Micro Fault, cause 0x1. -/
def execMicroOpUndefined (e : EngId) (_stall : Stall) (s : State) : Host.Outcome State Fault Refusal :=
  .next (s.micro e (fun k => decide (0x28 ≤ k) && decide (k < 0x38)) fun s _ a => .fault (s.microFault e 1 a))
/-- EMU_DISPATCH (R227). -/
def execEmuDispatch (e : EngId) (s : State) : Host.Outcome State Fault Refusal := .next (s.dispatch e)

end Sys2Proof.Machine
end

