-- ==== Sys2Proof/Machine/Monitor.lean ====
section
/-! DEFINITION. The answers of the Boot ROM's monitor (R401): as text for UART0, and of its accesses through the matrix. -/

namespace Sys2Proof.Machine

/-- A hexadecimal digit in ASCII. -/
def hexDigit (n : Nat) : Byte := BitVec.ofNat 8 (if n < 10 then 48 + n else 55 + n)

/-- The lowest `k` hexadecimal digits of a number, highest first. -/
def hexText : Nat → Nat → List Byte
  | 0, _ => []
  | k + 1, n => hexDigit (n / 16 ^ k % 16) :: hexText k n

/-- The line that answers: OK with the words requested, or ERR with a code. DESIGN CHOICE (log 129): a space before each value, capitals,
and a carriage return at the end. -/
def answerText (err : Option Word) (ws : List Word) : List Byte :=
  (match err with
   | some c => [0x45, 0x52, 0x52, 0x20] ++ hexText 2 c.toNat
   | none => [0x4F, 0x4B] ++ ws.flatMap fun w => 0x20 :: hexText 8 w.toNat) ++ [0x0D]

/-- An answer of the monitor, which waits for UART0; `rdata` notes it as 0 with the words, or 0x100 with the code. -/
def State.answer (s : State) (err : Option Word) (ws : List Word) : State :=
  { s with rdata := match err with | some c => [0x100 + c] | none => 0 :: ws
           boot := { s.boot with out := s.boot.out ++ answerText err ws } }

/-- The causes of R399. -/
def bootCauses : List Word := [0x00, 0x01, 0x02, 0x03, 0x04, 0x05, 0x06, 0x07, 0x08, 0x09, 0x0A, 0x0B, 0x0C, 0x0D, 0x20]

/-- ERR where no rule gives the code: a free one of the causes of R399. -/
def State.answerErr (s : State) : State :=
  s.drawWord.2.answer (some (bootCauses.getD (s.drawWord.1.toNat % 15) 0x0C)) []

/-- The monitor waits for the response to a request. -/
def State.monAsks (s : State) (id : Nat) : Bool :=
  match s.boot.mon with | some j => j.parts.any (·.1 == id) | none => false

/-- A response to the monitor's access: with the last one it answers its line. -/
def State.monTake (s : State) (r : Req) : State :=
  match s.boot.mon with
  | none => s
  | some j =>
    let parts := j.parts.map (partTake r.id r.resp r.rdata)
    if parts.all (·.2.isSome) then
      let x := partsAnswer parts
      let s := { s with boot := { s.boot with mon := none } }
      if x.1 = .okay then s.answer none (if j.write then [] else [wordOf x.2]) else s.answerErr
    else { s with boot := { s.boot with mon := some { j with parts := parts } } }

/-- The monitor reads or writes a word at a system address as TE0, through the matrix. -/
def State.monAccess (s : State) (write : Bool) (a : Word) (bs : List Byte) : State :=
  let r := s.issueParts 0 write a.toNat (partsAt 256 2 a.toNat 4) bs
  { r.2 with boot := { r.2.boot with mon := some ⟨r.1, write⟩ } }

end Sys2Proof.Machine
end

