-- ==== Sys2Proof/Machine/Fabric.lean ====
section
/-! DEFINITION. The bus matrix at work (R302–R316): issue, acceptance, what each target does, and the response at its master. -/

namespace Sys2Proof.Machine

/-! Issue -/

/-- A request that R304 allows: 1 to 256 bytes in one 256-byte block, at most 32 from an engine; an atomic is an aligned word; a write
carries its bytes. -/
def reqOk (q : ReqSpec) (m : Nat) : Bool :=
  let a := q.addr.toNat
  decide (1 ≤ q.len) && decide (a % 256 + q.len ≤ 256) && (decide (16 ≤ m) || decide (q.len ≤ 32)) &&
  (match q.kind with
   | .read => q.data.isEmpty
   | .write => decide (q.data.length = q.len)
   | _ => decide (q.len = 4) && decide (a % 4 = 0) && decide (q.data.length = 4))

/-- A master may issue (R302, R305): an engine that is present, or any other master with a place left. -/
def State.mayIssue (s : State) (m : MasterId) : Bool :=
  s.awake && (if h : m.val < 16 then s.present ⟨m.val, h⟩ else decide (s.outstanding m.val < 32))

/-! Acceptance (R305–R307) -/

/-- The oldest request of a master to a target that no target has accepted; an ordered one that is held lets no later one pass. -/
def State.oldest (s : State) (t m : Nat) : Option Req :=
  match s.mtx.reqs.find? fun r => r.m == m && r.tgt == some t && (r.stage == .held || r.stage == .waiting) with
  | some r => if r.stage = .waiting then some r else none
  | none => none

/-- A place is free for a master (R305): more than 8 for a local one, any for a bridge master. -/
def State.placeFor (s : State) (t m : Nat) : Bool :=
  if bridgeMaster m then decide (s.accepted t < 64) else decide (s.accepted t < 56)

/-- The next `n` masters in round-robin order after `k`, the first of which can be accepted. -/
def State.roundRobin (s : State) (t : Nat) : Nat → Nat → Option Req
  | 0, _ => none
  | n + 1, k =>
    let m := (k + 1) % 33
    match s.oldest t m with
    | some r => if s.placeFor t m then some r else s.roundRobin t n m
    | none => s.roundRobin t n m

/-- A target has accepted a request of master `m` in this fc, and accepts no other in it (R306). -/
def State.noteAccept (s : State) (t : TargetId) (m : Nat) : State :=
  { s with mtx := { s.mtx with last := s.mtx.last.set t.val m t.isLt, accAt := s.mtx.accAt.set t.val (some s.now) t.isLt } }

/-- A target accepts one request, at most one in an fc. -/
def State.accept (s : State) (t : TargetId) : State :=
  if !s.awake || s.mtx.accAt[t] == some s.now then s
  else match s.roundRobin t.val 33 s.mtx.last[t] with
    | none => s
    | some r =>
      let n := s.mtx.next
      let s := s.modReq r.id fun q => { q with stage := .accepted, accSeq := n }
      { s with mtx := { s.mtx with next := n + 1 } }.noteAccept t r.m

/-! Targets (R287, R311) -/

/-- The emulation stores of an engine's block (R224). -/
def emuStore (a : Nat) : Bool := decide (0x5100_0000 ≤ a) && decide (a < 0x5110_0000) && decide (0x6000 ≤ a % 0x1_0000)

/-- A request that its target refuses (R57, R190, R224, R287, R311, R372). -/
def Req.refused (r : Req) : Bool :=
  let a := r.addr.toNat
  let atom := r.kind == .atomAdd || r.kind == .atomSwap
  match r.tgt with
  | some 24 => r.kind != .read
  | some 25 => atom || !((r.len == 4 || r.len == 8 || r.len == 16) && decide (a % r.len = 0))
  | some 26 => r.kind != .read
  | some 27 =>
    let two := emuStore a && decide (a % 0x1_0000 < 0x8000) && r.len == 2
    atom || !((r.len == 4 || two) && decide (a % r.len = 0))
  | some 29 => atom
  | _ => false

/-- Whether every byte of a request at the QSPI window lies below the flash's density (R372). -/
def Req.inFlash (r : Req) : Bool := qspiServes ((r.addr.toNat - 0x4000_0000) + r.len - 1)

/-- A beat of a request at the QSPI window (R372). -/
def State.flashBeat (s : State) (r : Req) : State :=
  if s.qspiBusy then s
  else if !r.inFlash then s.modReq r.id fun q => { q.answered .decErr with beats := r.beats + 1 }
  else
    let p := r.span r.beats
    let bs := s.qspiRead (r.addr.toNat - 0x4000_0000 + p.1) p.2
    s.modReq r.id fun q =>
      { q with beats := r.beats + 1, rdata := r.rdata ++ bs, stage := if r.total ≤ r.beats + 1 then .done else q.stage }

/-- An access at the CSR target: a register, an emulation store, or the cycle window of a backplane port, where it waits (R363). -/
def State.csrBeat (s : State) (r : Req) : State :=
  let a := r.addr.toNat
  if emuStore a then s.storeBeat r
  else match lbpWindow a with
    | some (p, _) =>
      if s.lbpMode p = 1 then s.modReq r.id fun q => { q with stage := .passed }
      else s.modReq r.id fun q => { q.answered .refuse with beats := 1 }
    | none =>
      let done (q : Req) : Req := { q with stage := .done, beats := 1 }
      if r.kind = .read then (s.csrRead a).2.modReq r.id fun q => { done q with rdata := bytesOf 4 (s.csrRead a).1.toNat }
      else (s.csrWrite a (wordOf r.data)).modReq r.id done

/-- A request of this part that its routing gives back to it (R336) goes on to the target of its own address, which accepts and carries
it out like any other. -/
def State.ownRemote (s : State) (r : Req) (a : Word) : State :=
  s.modReq r.id fun q => (s.decoded { q with orig := some q.addr, addr := a, beats := 0 }).enter

/-- The request that a target has in hand: the first that it accepted (R307). -/
def State.inHand (s : State) (t : Nat) : Option Req :=
  let first (b : Option Req) (r : Req) : Option Req :=
    if r.tgt = some t ∧ r.stage = .accepted then
      (match b with
       | some q => if r.accSeq < q.accSeq then some r else b
       | none => some r)
    else b
  s.mtx.reqs.foldl first none

/-- A beat at the table, in an fc that the walker leaves free (R61). -/
def State.tableBeat (s : State) (r : Req) : State :=
  if s.alm.walkAt == some s.now || s.alm.portAt == some s.now then s
  else { s with alm := { s.alm with portAt := some s.now } }.storeBeat r

/-- The bank of the Main Store in which the next beat of a request lies (R293). -/
def Req.bank (r : Req) : Nat := (r.site + (r.span r.beats).1) % 0x100_0000 / 0x4_0000

/-- A beat at a port of the Main Store: an atomic keeps its bank busy for a second fc, in which no other access starts there (R293,
R294). -/
def State.mainBeat (s : State) (r : Req) : State :=
  let busy := s.mtx.busy.filter fun p => decide (s.now < p.2)
  if busy.any (·.1 == r.bank) then s
  else { s with mtx := { s.mtx with busy := busy ++ [(r.bank, s.now + (if kindAtomic r.kind then 2 else 1))] } }.storeBeat r

/-- A beat at a bridge target: with the last one the request goes its way (R303, R336, R354). -/
def State.bridgeBeat (s : State) (r : Req) (out : State) : State :=
  if r.beats + 1 < r.total then s.modReq r.id fun q => { q with beats := r.beats + 1 } else out

/-- One beat of the request that a target has in hand, at most one in an fc (R303, R457). -/
def State.targetAccess (s : State) (t : TargetId) : State :=
  if !s.awake || s.mtx.beatAt[t] == some s.now then s
  else match s.inHand t.val with
    | none => s
    | some r =>
      let s := { s with mtx := { s.mtx with beatAt := s.mtx.beatAt.set t.val (some s.now) t.isLt } }
      if r.refused then s.modReq r.id fun q => { q.answered .refuse with beats := 1 }
      else match t.val with
        | 24 => s.storeBeat r
        | 25 => s.tableBeat r
        | 26 => s.flashBeat r
        | 27 => s.csrBeat r
        | 28 => s.bridgeBeat r (s.remoteOut r (s.ownRemote r))
        | 29 => s.bridgeBeat r (s.pcieOut r)
        | k => if k < 8 then s.mainBeat r else s.storeBeat r

/-! Responses (R307, R311, R312) -/

/-- The next response that reaches a master: completions of one target come in the order of issue. -/
def State.nextResponse (s : State) (m : Nat) : Option Req :=
  go [] s.mtx.reqs
where
  /-- The first answered request with no earlier one of the master open at the same target. -/
  go (open' : List (Option Nat)) : List Req → Option Req
    | [] => none
    | r :: rs =>
      if r.m ≠ m ∨ r.stage = .queued ∨ r.gone then go open' rs
      else if r.stage = .done ∧ !open'.contains r.named.2 then some r
      else go (r.named.2 :: open') rs

/-- The halves that a response answers. -/
def FarHalf.take (h : FarHalf) (r : Req) : FarHalf := if h.id = r.id then { h with resp := some r.resp, data := r.rdata } else h

/-- A response reaches an engine (R124, R192, R213): its far operations, its BMU, its fetch, or a vector word. -/
def State.engineAnswer (s : State) (e : EngId) (r : Req) : State :=
  let s := s.modEng e fun x => { x with
    far := x.far.map fun f => { f with halves := f.halves.map (·.take r) }
    bmu := x.bmu.map fun o => { o with elems := o.elems.map fun el => { el with reqs := el.reqs.map (·.take r) } }
    lines := x.lines.map fun l => l.answer s.now r.id r.resp r.rdata
    lbuf := x.lbuf.map fun b => b.map fun l => l.answer s.now r.id r.resp r.rdata }
  let s := (s.bmuSettle e).mrdAnswered e
  match (s.eng e).vreq with
  | some (id, v, waits) =>
    if id ≠ r.id then s
    else if waits then
      (if r.resp = .okay then (s.vecWord e v (wordOf r.rdata)).2.startHandler e (s.vecWord e v (wordOf r.rdata)).1 s.now
       else (s.modEng e fun x => { x with vreq := none }).halt e)
    else
      let w := s.vecWord e v (wordOf r.rdata)
      w.2.modEng e fun x => { x with vreq := none, ahead := if r.resp = .okay then some (v, w.1, s.now) else none }
  | none => s

/-- A request that some block of this part waits for. -/
def State.waitsFor (s : State) (r : Req) : Bool :=
  s.alm.caps.any (·.id == r.id) || s.hl.inb.any (fun q => q.parts.any (·.1 == r.id)) ||
  s.eth.toList.any (fun x => EthJob.asks x.txJob r.id || EthJob.asks x.rxJob r.id) || s.pcie.inb.any (fun q => q.parts.any (·.1 == r.id)) ||
  s.dma.toList.any (fun d => match d.op with | some (i, _, _) => i == r.id | none => false) ||
  s.lbp.toList.any (·.asks r.id)

/-- What the master does with its response: the monitor, which reads and writes as TE0, an engine under R192, the table walker, whose failed capture write is an entry that cannot be
performed, under R63 (R312), a DMA channel or the port that it serves,
the PCIe endpoint, a Hatorlink port; a request that came from outside this model has its data noted. -/
def State.masterAnswer (s : State) (r : Req) : State :=
  if s.monAsks r.id then s.monTake r
  else if h : r.m < 16 then s.engineAnswer ⟨r.m, h⟩ r
  else if !s.waitsFor r then { s with rdata := (List.range ((r.rdata.length + 3) / 4)).map fun k => wordOf ((r.rdata.drop (4 * k)).take 4) }
  else if r.m = 17 then
    match s.alm.caps.find? (·.id == r.id) with
    | none => s
    | some c =>
      let s := { s with alm := { s.alm with caps := s.alm.caps.filter (·.id != r.id) } }
      if r.resp = .okay then s else s.badEntry (Fin.ofNat 8 c.ring) c.slot c.ctl
  else if r.m < 26 then
    let c : ChanId := Fin.ofNat 8 (r.m - 18)
    if s.lbp.toList.any (·.asks r.id) then forAll (fun (p : PairId) s => if s.lbp[p].asks r.id then s.lbpAnswer p r else s) s
    else s.dmaAnswer c r
  else if r.m = 26 then s.pcieAnswer r
  else if r.m < 29 then s.ethAnswer (Fin.ofNat 2 (r.m - 27)) r
  else s.remoteDone r.id r.resp r.rdata

/-- A response reaches its master: it is recorded when it is not OKAY, the place is free, and the next request of the master's queue is
issued before any that the response brings about (R137, R305, R307, R312). -/
def State.respond (s : State) (m : Nat) : State :=
  if !s.awake then s
  else match s.nextResponse m with
    | none => s
    | some r => (((s.errResp r).dropReq r.id).pumpReq m).masterAnswer r

/-- An ordered request is issued, and reaches the target decode, once every earlier request of its master has completed (R288, R308). -/
def State.release (s : State) (m : Nat) : State :=
  match s.mtx.reqs.find? (·.m == m) with
  | some r => if r.stage = .held then s.modReq r.id fun q => (s.decoded q).enter else s
  | none => s

/-! The meanings -/

/-- MATRIX_REQUEST (R302, R304, R305). -/
def execMatrixRequest (m : MasterId) (req : ReqSpec) (s : State) : Host.Outcome State Fault Refusal :=
  .next (if s.mayIssue m && reqOk req m.val then (s.issueReq m.val req).1 else s)
/-- ORDERED_RELEASE (R308). -/
def execOrderedRelease (m : MasterId) (s : State) : Host.Outcome State Fault Refusal := .next (s.release m.val)
/-- TARGET_ACCEPT (R306). -/
def execTargetAccept (t : TargetId) (s : State) : Host.Outcome State Fault Refusal := .next (s.accept t)
/-- TARGET_ACCESS (R303, R457). -/
def execTargetAccess (t : TargetId) (s : State) : Host.Outcome State Fault Refusal := .next (s.targetAccess t)
/-- RESPONSE (R311, R312). -/
def execResponse (m : MasterId) (s : State) : Host.Outcome State Fault Refusal := .next (s.respond m.val)

end Sys2Proof.Machine
end

