-- ==== Sys2Proof/Machine/Boot.lean ====
section
/-! DEFINITION. The start-up sequence (R384–R399) with the image that a Hatorlink neighbour sends (R390), and the origins of a start (R21,
R384, R430, R435, R440, R452). The Boot ROM's work from one origin to a wait, the holding registers or Fallback is one command. -/

namespace Sys2Proof.Machine

/-! Engine mapping (R396, R397) -/

/-- The physical engine that a map byte requires. -/
def mapNeeds (b : Byte) : Option EngId := if b.getLsbD 7 then some (Fin.ofNat 16 (b.toNat % 16)) else none

/-- The first present engine that is not taken. -/
def State.freeEngine (s : State) (used : List EngId) : Option EngId :=
  (List.finRange 16).find? fun e => s.present e && !used.contains e

/-- The second pass: engines for logical numbers that require none, in ascending order. -/
def State.mapRest (s : State) (used : List EngId) : List Byte → List (Option EngId)
  | [] => []
  | b :: bs =>
    match mapNeeds b with
    | some e => some e :: s.mapRest used bs
    | none =>
      match s.freeEngine used with
      | some e => some e :: s.mapRest (e :: used) bs
      | none => none :: s.mapRest used bs

/-- The map of an image over the engines present. -/
def State.mapOf (s : State) (g : Image) : Vector (Option EngId) 16 :=
  let l := s.mapRest (g.map.filterMap mapNeeds) g.map
  Vector.ofFn fun i => match l[i.val]? with | some x => x | none => none

/-- Engine masks over logical engines, as masks over physical ones (R397). -/
def State.physMask (s : State) (v : Word) : Word :=
  BitVec.ofNat 32 (((List.finRange 16).map fun l => match s.map[l] with
    | some e => if bitOf v l.val then 2 ^ e.val else 0
    | none => 0).sum)

/-- The retention classes in their registers (R298, R301), those of an engine under its physical number. -/
def State.setClasses (s : State) (g : Image) : State :=
  let s := (s.setReg Reg.sysMsclassLo (loW g.msClass)).setReg Reg.sysMsclassHi (hiW g.msClass)
  let all := ((List.finRange 16).map fun l => match s.map[l] with
    | some e => (match g.tsClass[l.val]? with | some c => c.toNat * 2 ^ (4 * e.val) | none => 0)
    | none => 0).sum
  (s.setReg Reg.sysTsclassLo (BitVec.ofNat 32 (all % 2 ^ 32))).setReg Reg.sysTsclassHi (BitVec.ofNat 32 (all / 2 ^ 32))

/-! What the loader refuses (R389, R391, R399) -/

/-- A mask with exactly one bit set (R101). -/
def oneBit (m : Byte) : Bool := m != 0 && (m &&& (m - 1)) == 0

/-- The system address of a record (R389, R397); none where it names no engine of the image. -/
def State.recordAddr (s : State) (r : ImgRecord) : Option Nat :=
  match r.kind.toNat with
  | 0 => some r.dest.toNat
  | 1 => s.map[r.log].map fun e => 0x2000_0000 + e.val * 0x10_0000 + r.dest.toNat
  | 2 => s.map[r.log].map fun e => 0x5100_0000 + e.val * 0x1_0000 + r.dest.toNat
  | _ => none

/-- The bytes of a record stay in what its KIND names. -/
def recordFits (r : ImgRecord) : Bool :=
  let n := r.bytes.length
  decide (1 ≤ n) && decide (n ≤ 2 ^ 24) &&
  (match r.kind.toNat with
   | 1 => decide (r.dest.toNat + n ≤ 0x10_0000)
   | 2 => decide (r.dest.toNat + n ≤ 0x1_0000)
   | _ => decide (r.dest.toNat + n ≤ 2 ^ 32))

/-- The blocks of 8 KiB that `n` bytes at `a` meet: no region, bank or area has a border within one. -/
def blocksOf (a n : Nat) : List Nat :=
  (List.range ((a + n - 1) / 0x2000 - a / 0x2000 + 1)).map fun k => (a / 0x2000 + k) * 0x2000

/-- Bytes that a record may not meet: the Boot ROM area and the Data-class banks (R389). -/
def State.keptBlock (s : State) (b : Nat) : Bool := s.dataKey (memKey b) || bootArea (memKey b)

/-- A block that a record may not meet: a decode error or a refusal of R311, the Boot ROM area, a Data-class bank. The remote window answers
so where node 0, that of a descriptor without one, has no route (R330), the outbound window while the link is down (R354), and a cycle
window outside master mode (R363). -/
def State.barred (s : State) (r : ImgRecord) (a b : Nat) : Bool :=
  match s.target b with
  | none => true
  | some 24 => true
  | some 26 => true
  | some 28 =>
    (match s.route 0 with
     | .none => true
     | .port _ => false
     | .own => (match remoteAddr (BitVec.ofNat 32 b - 0x6000_0000) with | some x => s.keptBlock x.toNat | none => true))
  | some 29 => !s.pcieUp
  | some t =>
    if t = 25 || t = 27 then
      a % 4 != 0 || r.bytes.length % 4 != 0 || (match lbpWindow b with | some (p, _) => s.lbpMode p != 1 | none => false)
    else s.keptBlock b

/-- A record is refused. -/
def State.recordBad (s : State) (r : ImgRecord) : Bool :=
  match s.recordAddr r with
  | none => true
  | some a => !recordFits r || (blocksOf a r.bytes.length).any fun b => s.barred r a b

/-! Writing contents (R389, R391) -/

/-- A request of master 0 for bytes that a bridge or a backplane port carries. -/
def State.recordPost (s : State) (a : Nat) (bs : List Byte) (g : Nat) : State :=
  (s.issueParts 0 true a (partsAt g (bs.length / g + 2) a bs.length) bs).2

/-- A word of a record, with engine masks over physical engines (R397). -/
def State.recordWord (s : State) (a : Nat) (v : Word) : State :=
  let mask := a == Reg.almLsdest || (List.range 8).any fun b => a == Reg.abLsdest b
  if emuStore a then s.storeBytes a (bytesOf 4 v.toNat)
  else if inTable a then s.tableWrite a (bytesOf 4 v.toNat)
  else if (lbpWindow a).isSome then s.recordPost a (bytesOf 4 v.toNat) 4
  else s.csrWrite a (if mask then s.physMask v else v)

/-- Words of a record, from address `a` on. -/
def State.recordWords (s : State) (a : Nat) (bs : List Byte) : State :=
  (List.range (bs.length / 4)).foldl (fun s k => s.recordWord (a + 4 * k) (wordOf ((bs.drop (4 * k)).take 4))) s

/-- A record is written (R389). -/
def State.record (s : State) (r : ImgRecord) : State :=
  match s.recordAddr r with
  | none => s
  | some a =>
    match s.target a with
    | some 27 => s.recordWords a r.bytes
    | some 25 => s.recordWords a r.bytes
    | some 28 => s.recordPost a r.bytes 256
    | some 29 => s.recordPost a r.bytes 256
    | _ => s.storeBytes a r.bytes

/-- The engines that a map names, as a mask. -/
def State.mapMask (s : State) : Half :=
  BitVec.ofNat 16 (((List.finRange 16).map fun e => b2n (s.map.any (· == some e)) * 2 ^ e.val).sum)

/-- The stores and registers as the sections before the memory images leave them: the Catalogue words that the image does not give hold
0xFFFF (R224). -/
def State.loadFront (s : State) (g : Image) : State :=
  let s := { s with map := s.mapOf g }
  g.contents.foldl State.record (s.setCatalogues s.mapMask)

/-- One of the records is refused as it is to be written, after those before it (R389). -/
def State.recordsBad (s : State) : List ImgRecord → Bool
  | [] => false
  | r :: rs => s.recordBad r || (s.record r).recordsBad rs

/-- The cause that the content of a section of type `t` gives (R396, R399): the map, connectivity, addressing, slices, the pin functions
and the memory images have causes of their own, and any structural section can hold a value outside its range. Of a section that is not `whole` the part that
the source gives is looked at. -/
def State.sectionError (s : State) (bs : List Byte) (g : Image) (whole : Bool) (t : Nat) : Option Nat :=
  let n := g.nlog
  let needs := g.map.filterMap mapNeeds
  let out (l : EngId) : Bool := decide (n ≤ l.val)
  if g.odd.any fun x => x.toNat == t && requiredTypes.contains t then some 0x0D
  else match t with
    | 1 =>
      if (whole && g.map.length != n) || g.map.any (fun b => b.toNat / 16 % 8 != 0) then some 0x0D
      else if ((List.finRange 16).filter s.present).length < n then some 0x07
      else if needs.any (fun e => !s.present e) || !decide needs.Nodup then some 0x08
      else none
    | 2 =>
      if g.conn.any (fun c => out c.log) then some 0x0D
      else if g.conn.any (fun c => oneBit c.dst || oneBit c.src) then some 0x09
      else none
    | 3 =>
      if g.engines.length ≠ n || g.engines.any (fun e => e.segs.any fun d => match d.tile with | some l => out l | none => false) then
        some 0x0D
      else none
    | 4 => if g.slices.any (fun x => x.n == 3) then some 0x0A else none
    | 6 => if g.lbpBw.any (· == 3) then some 0x0D else none
    | 0x14 =>
      let r := imgRecords whole bs
      if r.2 || ((s.loadFront g).setClasses g).recordsBad r.1 then some 0x0B else none
    | _ => none

/-- The first error of the sections, in table order, with the index of its section: the content of a section as it is written, then its
CRC as it ends (R391). A source that ends within a section is a read error there. -/
def State.passError (s : State) (bs : List Byte) (g : Image) : Nat → List ImgEntry → Option (Nat × Nat)
  | _, [] => none
  | i, x :: xs =>
    let whole := decide (x.off + x.len ≤ bs.length)
    if !whole && decide (bs.length ≤ x.off) then some (0x0C, 0)
    else match s.sectionError bs g whole x.typ with
      | some c => some (c, if c = 0x0B ∨ c = 0x0D then i else 0)
      | none =>
        if !whole then some (0x0C, 0)
        else if x.crc = crc32 (x.bytes bs) then s.passError bs g (i + 1) xs else some (0x04, i)

/-- The cause and section index of an image's first error in the one pass of the Boot ROM (R391): header, table, sections, digest. A source
that ends before LENGTH is a read error where the pass comes to its end. -/
def State.imageError (s : State) (bs : List Byte) (body : ImgBody) : Option (Nat × Nat) :=
  if bs.length < 0x20 then some (0x0C, 0)
  else if !headerOk bs then some (0x03, 0)
  else match tableError bs with
    | some i => some (0x06, i)
    | none =>
      if bs.length < imgFront bs then some (0x0C, 0)
      else match s.passError bs (imageOf bs body) 0 (imgTable bs) with
        | some e => some e
        | none => if bs.length < imgLength bs then some (0x0C, 0) else if digestOk bs then none else some (0x05, 0)

/-! Applying an image -/

/-- The structure takes effect (R22, R393): map, connectivity, addressing, slices, classes, I/O bank voltages (R350), pins, capture inputs,
the never-borrow map and the backplane widths. -/
def State.applyImage (s : State) (g : Image) : State :=
  let s := { s with image := some g, volts := g.volts.setWidth 8 }
  let s := (List.finRange 16).foldl (fun s l => match s.map[l] with
    | some e =>
      let seg := match g.engines[l.val]? with | some x => b2n x.segm | none => 0
      s.setReg (Reg.teCfg e) (BitVec.ofNat 32 (l.val + seg * 2 ^ 8))
    | none => s) s
  let s := g.conn.foldl (fun s c => match s.map[c.log] with
    | some e => s.modEng e fun x => { x with conn := mapSet (fun _ => 0) x.conn c.socket.toNat (c.dst ++ c.src) }
    | none => s) s
  let s := g.slices.foldl (fun s x =>
    if x.t.val < 16 then s.setFld (Reg.mtxSliceLo x.m) (2 * x.t.val) 2 x.n.toNat
    else s.setFld (Reg.mtxSliceHi x.m) (2 * (x.t.val - 16)) 2 x.n.toNat) s
  let s := s.setClasses g
  let s := g.pins.foldl (fun s p => s.setPin p.pin { Pin.zero with owner := p.owner, safe := p.safe }) s
  let s := g.caps.foldl (fun (s : State) c =>
    { s with caps := s.caps.set c.1.val { Capture.zero with owner := some c.2 } c.1.isLt }) s
  let s := g.never.foldl (fun s w => s.setReg (Reg.curNb w.1) w.2) s
  forAll (fun (p : PairId) s => match g.lbpBw[p.val]? with
    | some w => s.setFld (Reg.lbpStat p) 16 2 w.toNat
    | none => s) s

/-- SYS_BOOTCAUSE of a slot: its fields but ORIGIN and FALLBACK (R402). -/
def State.bootCause (s : State) (cause src slot sec : Nat) : State :=
  (((s.setFld Reg.sysBootcause 0 8 cause).setFld Reg.sysBootcause 8 2 src).setFld Reg.sysBootcause 12 1 slot).setFld
    Reg.sysBootcause 24 8 sec

/-- The holding registers of the structural sections take an image: from master 0, and while PHASE is 0x2 (R393). -/
def State.holdWrite (s : State) (m : Nat) (v : Verified) : State :=
  if m = 0 ∧ s.rfld Reg.sysBootst 4 4 = 2 then { s with boot := { s.boot with hold := some v } } else s

/-- The end of step 0x3 of R398 and the start of step 0x4: the structure takes effect in one fc, TE0 stops, and the Data class and the Boot
ROM area are cleared, which takes as long as the table says. -/
def State.bootApply (s : State) (v : Verified) : State :=
  let s := (({ s with map := s.mapOf v.img }).romStop v.chk).applyImage v.img
  let s := (s.clearBanks (fun k => s.dataKey k || bootArea k) 4 s.mainData).bootPhase 4 v.src
  { s with boot := { s.boot with hold := some { v with till := s.now + if s.mainData then 16384 else 4096 } } }

/-- Step 0x5 of R398: the release. A pin to which the image gives no owner stays in its reset state (R12, R450); a start that has been
confirmed already has no window (R395). -/
def State.releaseImage (s : State) (v : Verified) : State :=
  let g := v.img
  let s := s.orReg Reg.sysCtl (bitW 0 ||| if g.lock then bitW 1 else 0)
  let n := s.now
  let s := { s with pins := s.pins.map fun (x : Pin) => if x.owner = PinOwner.none then x else { x with lvl := x.safe, cmpAt := n + 4 } }
  let ms := if g.bootwin = 0 then 1000 else g.bootwin.toNat
  let win := if s.rbit Reg.sysBootst 9 then none else some (s.now + ms * 1_000_000)
  let s := { s with power := .run, released := true, boot := { s.boot with hold := none, wait := none, window := win, due := none } }
  let s := (s.bootCause 0 v.src v.slot 0).bootPhase 5 v.src
  let s := forAll (fun (e : EngId) s =>
    if s.mapped e then (s.modEng e fun x => { x with clocked := true }).resetEntry e else s) s
  if g.almen then s.almEnable else s

/-- A slot fails (R391): its entry in the Error Log, the record of the cause, and every bank but the Boot ROM area cleared again. -/
def State.slotFails (s : State) (cause src slot sec : Nat) : State :=
  ((s.log 0x38 (src + slot * 16) cause (BitVec.ofNat 32 sec)).bootCause cause src slot sec).clearBanks (fun k => !bootArea k) 3 true

/-- The error of a slot as the Boot ROM finds it. -/
def State.slotError (s : State) (o : SlotOffer) : Option (Nat × Nat) :=
  match o with
  | .readError _ => some (0x0C, 0)
  | .image bs body => s.imageError bs body

/-- The contents sections are written (R391). The map acts for what the records name only: it is structure. -/
def State.loadContents (s : State) (g : Image) : State := { g.records.foldl State.record (s.loadFront g) with map := s.map }

/-- A slot is verified: its contents are written, its structure stands in the holding registers, and step 0x3 of R398 begins. What its
records leave in TE0's SEGCHK acts once the Boot ROM has stopped (R392). -/
def State.slotHolds (s : State) (g : Image) (src slot : Nat) : State :=
  let s := (s.clrReg (Reg.teMemctl 0) 1).loadContents g
  let chk := s.rbit (Reg.teMemctl 0) 0
  (((s.orReg (Reg.teMemctl 0) 1).holdWrite 0 ⟨g, src, slot, chk, s.now + 1⟩).bootPhase 3 src)

/-- A slot is loaded (R391): none where it fails, else on its way to the release. -/
def State.loadSlot (s : State) (o : SlotOffer) (src slot : Nat) : State ⊕ State :=
  match s.slotError o, o with
  | some (c, sec), _ => .inl (s.slotFails c src slot sec)
  | none, .image bs body => .inr (s.slotHolds (imageOf bs body) src slot)
  | none, _ => .inl s

/-! Slot choice (R394) -/

/-- GEN of a slot whose header can be read. -/
def SlotOffer.gen : SlotOffer → Option Word
  | .readError g => g
  | .image bs _ => imgGen bs

/-- Slot B comes first. -/
def bFirst (pref : Nat) (a b : Option SlotOffer) : Bool :=
  match pref with
  | 1 => false
  | 2 => true
  | _ =>
    match a.bind SlotOffer.gen, b.bind SlotOffer.gen with
    | some x, some y => decide (x < y)
    | _, _ => false

/-- Bytes of the flash. -/
def State.flashBytes (s : State) (o n : Nat) : List Byte := (List.range n).map fun i => s.flashAt (o + i)

/-- The directory of the flash (R390): offset and length of slots A and B, where it is valid. -/
def State.flashDir (s : State) : Option ((Nat × Nat) × Nat × Nat) :=
  let d := s.flashBytes 0 32
  if wordAt d 0 = 0x5249_4444 ∧ wordAt d 5 = 0 ∧ wordAt d 6 = 0 ∧ wordAt d 7 = crc32 (d.take 28) then
    some (((wordAt d 1).toNat, (wordAt d 2).toNat), (wordAt d 3).toNat, (wordAt d 4).toNat)
  else none

/-- A slot as the Boot ROM reads it; none where it is empty. -/
def State.slotAt (s : State) (d : Nat × Nat) (x : FlashSlot) : Option SlotOffer :=
  if d.2 = 0 then none
  else match x with
    | .readError g => some (.readError g)
    | .image body => some (.image (s.flashBytes d.1 d.2) body)

/-- The slots of the flash that are not empty, in the order in which they are tried. -/
def slotOrder (pref : Nat) (a b : Option SlotOffer) : List (Nat × SlotOffer) :=
  let p := match a with | some x => [(0, x)] | none => []
  let q := match b with | some x => [(1, x)] | none => []
  if bFirst pref a b then q ++ p else p ++ q

/-- Slots of one source tried in turn. -/
def State.trySlots (s : State) (src : Nat) : List (Nat × SlotOffer) → State ⊕ State
  | [] => .inl s
  | (k, o) :: r =>
    match s.loadSlot o src k with
    | .inr t => .inr t
    | .inl t => t.trySlots src r

/-- SYS_BOOTPREF as the Boot ROM reads it: ONCE clears with PREF (R394). -/
def State.readPref (s : State) : Nat × State :=
  (s.rfld Reg.sysBootpref 0 2, if s.rbit Reg.sysBootpref 2 then s.setReg Reg.sysBootpref 0 else s)

/-- The QSPI source (R390, R394). -/
def State.fromFlash (s : State) (o : BootOffer) : State ⊕ State :=
  if !o.flash then .inl (s.bootCause 1 0 0 0)
  else match s.flashDir with
    | none => .inl (s.bootCause 2 0 0 0)
    | some (da, db) =>
      let a := s.slotAt da o.slotA
      let b := s.slotAt db o.slotB
      if a.isNone && b.isNone then .inl (s.bootCause 2 0 0 0)
      else
        let p := s.readPref
        (p.2.bootPhase 2 0).trySlots 0 (slotOrder p.1 a b)

/-! The sequence -/

/-- The device is in Fallback. -/
def State.inFallback (s : State) : Bool := s.rbit Reg.sysBootcause 15 && s.power == .run && !s.released

/-- The PCIe source (R390): the link trains, and the Boot ROM waits for GO. -/
def State.waitPcie (s : State) : State :=
  { (s.bootPhase 1 1).orReg Reg.pcieCtl 1 with boot := { s.boot with wait := some (1, s.now) } }

/-- The Hatorlink source (R390): every port trains, and the Boot ROM waits for one that comes up. -/
def State.waitLink (s : State) : State :=
  let s := forAll (fun (p : PortId) s => (s.orReg (Reg.hlCtl p) (bitW 1)).hlEnable p) (s.bootPhase 1 2)
  { s with boot := { s.boot with wait := some (2, s.now) } }

/-- The start fails for want of a slot (R395): it counts, and a sequence begins again at once with its origin. -/
def State.startFails (s : State) : State :=
  let k := s.rfld Reg.sysBootcause 16 4
  let s := s.failedStart
  ({ s with boot := { s.boot with unconf := false } }.begin k).2

/-- The Boot ROM samples the straps and looks for its source (R390), again at once after a start that fails for want of a slot; a start
fails at most three times before Fallback. While TESTEN is high it runs no image (R453). -/
def State.search (s : State) (o : BootOffer) : Nat → State
  | 0 => s
  | n + 1 =>
    if !s.boot.seek || o.testen then s
    else
      let s := { s with boot := { s.boot with straps := o.straps, seek := false } }
      match o.straps.toNat with
      | 1 => s.waitPcie
      | 2 => s.waitLink
      | k =>
        match s.fromFlash o with
        | .inr t => t
        | .inl t => if k = 3 then t.waitPcie else t.startFails.search o n

/-- A start of an origin with what its sources hold. -/
def State.start (s : State) (origin : Nat) (o : BootOffer) : State := (s.begin origin).2.search o 4

/-- The source that is waited for fails: the neighbour follows the host under straps 0b11 (R390). -/
def State.sourceFails (s : State) (src : Nat) : State := if src = 1 ∧ s.boot.straps = 3 then s.waitLink else s.startFails

/-- The slot of the host or of the neighbour, counted as slot A, is loaded. -/
def State.loadOffered (s : State) (src : Nat) (x : SlotOffer) : State :=
  let s := { s with boot := { s.boot with wait := none, go := false, fetch := none } }
  match (s.bootPhase 2 src).loadSlot x src 0 with
  | .inr t => t
  | .inl t => t.sourceFails src

/-- The Boot ROM reads the host's image through the outbound window: PCIE_OBBASE goes with it, up to the image's last byte. -/
def State.mailboxBase (s : State) : State :=
  let last := dword (s.reg (Reg.sysBootmbx 1)) (s.reg (Reg.sysBootmbx 0)) + (s.reg (Reg.sysBootmbx 2)).setWidth 64 - 1
  (s.setReg Reg.pcieObbaseLo (loW last &&& 0xF000_0000)).setReg Reg.pcieObbaseHi (hiW last)

/-- The host's image (R390): as many bytes as SYS_BOOTMBX2 gives. -/
def State.fromHost (s : State) (o : BootOffer) : State :=
  let n := (s.reg (Reg.sysBootmbx 2)).toNat
  let x := match o.pcie with
    | some (.image bs body) => SlotOffer.image (bs.take n) body
    | some x => x
    | none => .readError none
  (s.mailboxBase.loadOffered 1 x).search o 4

/-- What waits for the contents of a source goes on: a sequence whose origin RESET# held back, an image whose GO the host has written, or
the search for a source. -/
def State.runDue (s : State) (o : BootOffer) : State :=
  match s.boot.due with
  | some k => if s.boot.low then s else s.start k o
  | none => if s.boot.go then s.fromHost o else s.search o 4

/-- No slot has failed so far: CAUSE, SLOT and SRC describe the last slot tried where one has (R399). -/
def State.noSource (s : State) (src : Nat) : State := if 3 ≤ s.rfld Reg.sysBootcause 0 8 then s else s.bootCause 1 src 0 0

/-- A port is up. -/
def State.anyUp (s : State) : Bool := (List.finRange 4).any fun p => s.hlState p == 2

/-- The wait for a source has lasted: 10 s for GO, 100 ms for a port (R390). -/
def State.sourceTimeout (s : State) (o : BootOffer) : State :=
  match s.boot.wait with
  | some (1, t) =>
    if s.boot.go then s.fromHost o
    else if t + 10_000_000_000 ≤ s.now then ((s.noSource 1).sourceFails 1).search o 4 else s
  | some (2, t) => if t + 100_000_000 ≤ s.now ∧ !s.anyUp then ((s.noSource 2).sourceFails 2).search o 4 else s
  | _ => s

/-! Origins -/

/-- The always-on domain loses its state (R417, R435): what it holds takes the values of power-on. -/
def State.loseAlwaysOn (s : State) : State :=
  let s := s.stopDevice
  { s with
    csr := mapDrop (fun a => !(List.range 4).any fun g => a == Reg.gpioIn g) s.csr, tb := 0, logq := [], logn := [], logAt := none,
    tap := ⟨none, 0⟩, supply := State.reset.supply,
    boot := { Boot.zero with low := s.boot.low, fall := s.boot.fall, later := s.boot.later } }

/-- An origin that RESET# can hold back: while RESET# is low, and for 10 µs once it has risen before (R452). -/
def State.originate (s : State) (k : Nat) (o : BootOffer) : State :=
  if s.boot.later.isSome then { s.stopDevice with boot := { s.stopDevice.boot with later := some (s.now + 10000, k, o) } }
  else (s.beginDue k).search o 4

/-- A Barometer reset (R435) until VIN is back. -/
def State.baroReset (s : State) (cause : BaroCause) (o : BootOffer) : State :=
  match cause with
  | .vinLost => s.loseAlwaysOn.originate 0 o
  | .vcore => if s.awake then s.stopDevice.originate 3 o else s
  | .rail => (s.stopDevice.orReg Reg.pwrBarstat (bitW 10)).originate 3 o
  | .vin => s.stopDevice.originate 3 o

/-- The origins that wait and that a low level of RESET# does not replace: power-on and a Barometer reset (R452). -/
def State.heldOrigin (s : State) : Option Nat :=
  (match s.boot.later with | some (_, k, _) => some k | none => s.boot.due).filter fun k => k == 0 || k == 3

/-- RESET# has been low for 1 µs (R452): everything stops. -/
def State.resetLow (s : State) : State :=
  let k := s.heldOrigin
  let s := s.stopDevice
  { s with boot := { s.boot with low := true, fall := none, later := none, due := k } }

/-- RESET# falls. -/
def State.resetFall (s : State) : State :=
  if s.boot.low || s.boot.fall.isSome then s else { s with boot := { s.boot with fall := some s.now } }

/-- RESET# rises: a pulse that has not lasted 1 µs is ignored; else the sequence begins 10 µs later, with the origin that RESET# held back
or 0x1 (R452). -/
def State.resetRise (s : State) (o : BootOffer) : State :=
  if s.boot.low then
    let k := match s.boot.due with | some k => k | none => 1
    { s with boot := { s.boot with low := false, due := none, later := some (s.now + 10000, k, o) } }
  else { s with boot := { s.boot with fall := none } }

/-! What the sequence does by time alone -/

/-- RESET# as its filter sees it, and the sequence that begins 10 µs after it rose (R452). -/
def State.resetTick (s : State) : State :=
  let s := match s.boot.fall with | some t => if t + 1000 ≤ s.now then s.resetLow else s | none => s
  match s.boot.later with
  | some (t, k, o) => if t ≤ s.now then s.start k o else s
  | none => s

/-- The steps 0x3 and 0x4 of R398 end. -/
def State.bootStep (s : State) : State :=
  match s.boot.hold with
  | none => s
  | some v => if s.now < v.till then s else if s.rfld Reg.sysBootst 4 4 = 3 then s.bootApply v else s.releaseImage v

/-! The image of a Hatorlink neighbour (R390) -/

/-- The tag of the request for the bytes from an offset on. DESIGN CHOICE (log 135): no rule gives the tags. -/
def imageTag (o : Nat) : Byte := BitVec.ofNat 8 (o / 256)

/-- The neighbour at a port. -/
def State.hlNeighbour (s : State) (p : PortId) : NodeId := (s.reg (Reg.hlPartner p)).truncate 12

/-- Image requests of 256 bytes leave, eight outstanding at a time; the header comes with the first. DESIGN CHOICE (log 135): the last one asks
for what is left. -/
def State.fetchAsk (s : State) : Nat → State
  | 0 => s
  | n + 1 =>
    match s.boot.fetch with
    | none => s
    | some h =>
      let fin := match h.len with | some l => l | none => 256
      if fin ≤ h.pos ∨ 8 ≤ (h.out.filter (·.2.2.isNone)).length then s
      else
        let k := min 256 (fin - h.pos)
        let f := s.hlFrame hlConfig false false false (s.hlNeighbour h.port) (imageTag h.pos) (BitVec.ofNat 32 (k * 2 ^ 8 + 1))
          (BitVec.ofNat 32 h.pos) []
        let s := { s with boot := { s.boot with fetch := some { h with pos := h.pos + k, out := h.out ++ [(h.pos, k, none)] } } }
        (s.hlQueue h.port f s.stamp false).fetchAsk n

/-- The lowest-numbered port that has come up gives the image (R390); a request that stays unanswered for HL_TXTO is a read error. DESIGN
CHOICE (log 135) for that time. -/
def State.fetchTick (s : State) : State :=
  match s.boot.wait, s.boot.fetch with
  | some (2, _), none =>
    (match (List.finRange 4).find? fun p => s.hlState p == 2 with
     | none => s
     | some p =>
       let h : HlImage := { port := p, len := none, pos := 0, out := [], got := [], body := none, since := s.now }
       { s.bootPhase 2 2 with boot := { s.boot with wait := none, fetch := some h } }.fetchAsk 8)
  | _, some h => if h.since + s.txto ≤ s.now then s.loadOffered 2 (.readError none) else s
  | _, _ => s

/-- An image without content beside its bytes. -/
def ImgBody.empty : ImgBody :=
  { ids := none, conn := [], engines := [], slices := [], msClass := 0, tsClass := [], pins := [], volts := 0, rcvs := [], scks := [],
    caps := [], never := [], lbpBw := [], contents := [], odd := [] }

/-- Bytes of the image are there: the requests answered in order join them, the header gives the length or fails the slot, and with the last
byte the slot is loaded. -/
def State.fetchGoes (s : State) (h : HlImage) : State :=
  let ready := h.out.takeWhile (·.2.2.isSome)
  let got := h.got ++ ready.flatMap fun x => match x.2.2 with | some bs => bs | none => []
  let h := { h with got := got, out := h.out.drop ready.length, since := s.now
                    len := if 0x20 ≤ got.length then some (imgLength got) else none }
  let body := match h.body with | some b => b | none => ImgBody.empty
  if 0x20 ≤ got.length ∧ !headerOk got ∨ 0x20 ≤ got.length ∧ imgLength got ≤ got.length then
    s.loadOffered 2 (.image (got.take (max 0x20 (imgLength got))) body)
  else { s with boot := { s.boot with fetch := some h } }.fetchAsk 8

/-- An answer to an image request (R339, R390); one that matches no outstanding request is stale (R342), and one that disagrees with its
request is unknown (R340). -/
def State.fetchTake (s : State) (p : PortId) (f : HlFrame) (loaded : Option ImgBody) : State :=
  match s.boot.fetch with
  | none => s.incReg Reg.hlStale
  | some h =>
    match h.out.find? fun x => x.2.2.isNone && imageTag x.1 == f.tag with
    | none => s.incReg Reg.hlStale
    | some x =>
      if h.port ≠ p ∨ f.src ≠ s.hlNeighbour p then s.incReg Reg.hlStale
      else if f.w3.toNat ≠ x.1 ∨ fldOf f.w2 8 9 ≠ x.2.1 then s.hlError p (Reg.hlUnkerr p) 13
      else if fldOf f.w2 24 3 ≠ 0 then s.loadOffered 2 (.readError (imgGen h.got))
      else
        s.fetchGoes { h with out := h.out.map fun y => if y.1 = x.1 then (y.1, y.2.1, some f.payload) else y
                             body := match loaded with | some b => some b | none => h.body }

/-! CONFIG frames (R339) -/

/-- An image request is answered from the window of HL_IMGBASE, which the port's inbound master reads, or refused. -/
def State.imageRequest (s : State) (p : PortId) (f : HlFrame) : State :=
  let n := fldOf f.w2 8 9
  if (s.reg Reg.hlImglen).toNat < f.w3.toNat + n then s.hlRespond p f.typ f.src f.tag (putFld f.w2 24 3 2) f.w3 []
  else
    let a := (s.reg Reg.hlImgbase).toNat + f.w3.toNat
    let r := s.issueParts (29 + p.val) false a (partsOf 3 a n) []
    { r.2 with hl := { r.2.hl with inb := r.2.hl.inb ++ [⟨r.1, p, f.src, f.tag, f.typ, f.w2, f.w3, n⟩] } }

/-! The meanings -/

/-- CONFIG_IMAGE_REQUEST (R339). -/
def execConfigImageRequest (p : PortId) (f : HlFrame) (s : State) : Host.Outcome State Fault Refusal :=
  .next (if isFrame f hlConfig false then s.hlReceive p f s.stamp (·.imageRequest p f) else s)
/-- CONFIG_RESPONSE (R339, R342, R390): `loaded` is the content of the sections without a layout, as far as the bytes bring it. -/
def execConfigResponse (p : PortId) (f : HlFrame) (loaded : Option ImgBody) (s : State) : Host.Outcome State Fault Refusal :=
  .next (if isFrame f hlConfig true then s.hlReceive p f s.stamp (·.fetchTake p f loaded) else s)
/-- POWER_ON (R384, R430). -/
def execPowerOn (offer : BootOffer) (s : State) : Host.Outcome State Fault Refusal := .next (s.loseAlwaysOn.originate 0 offer)
/-- RESET_ASSERT (R452). -/
def execResetAssert (s : State) : Host.Outcome State Fault Refusal := .next s.resetFall
/-- RESET_RELEASE (R452). -/
def execResetRelease (offer : BootOffer) (s : State) : Host.Outcome State Fault Refusal := .next (s.resetRise offer)
/-- DEVICE_RESET (R402): of a sequence that has begun, the search for its source; else SYS_RST itself. -/
def execDeviceReset (offer : BootOffer) (s : State) : Host.Outcome State Fault Refusal :=
  .next (if s.boot.due.isSome || s.boot.seek then s.runDue offer else if s.awake then s.start 2 offer else s)
/-- BOOT_MAILBOX_GO (R390). -/
def execBootMailboxGo (offer : BootOffer) (s : State) : Host.Outcome State Fault Refusal :=
  .next (match s.boot.wait with
    | some (1, _) => s.fromHost offer
    | _ => s.runDue offer)
/-- BOOT_SOURCE_TIMEOUT (R390). -/
def execBootSourceTimeout (offer : BootOffer) (s : State) : Host.Outcome State Fault Refusal :=
  .next (match s.boot.wait with | some _ => s.sourceTimeout offer | none => s.runDue offer)
/-- CONFIRMATION_WINDOW_EXPIRY (R398). -/
def execConfirmationWindowExpiry (offer : BootOffer) (s : State) : Host.Outcome State Fault Refusal :=
  .next (match s.boot.window with
    | some w => if w ≤ s.now then s.start 5 offer else s
    | none => s.runDue offer)
/-- BAROMETER_RESET (R435). -/
def execBarometerReset (cause : BaroCause) (offer : BootOffer) (s : State) : Host.Outcome State Fault Refusal :=
  .next (s.baroReset cause offer)
/-- XIN_LOSS_TIMEOUT (R440): XIN has been away for 100 µs. -/
def execXinLossTimeout (offer : BootOffer) (s : State) : Host.Outcome State Fault Refusal :=
  .next (match s.supply.xinAt with
    | some t => if t + 100_000 ≤ s.now then { s with supply := { s.supply with xinAt := none } }.baroReset .vin offer else s
    | none => s.runDue offer)
/-- WAKE_PIN_EDGE (R20, R453). -/
def execWakePinEdge (offer : BootOffer) (s : State) : Host.Outcome State Fault Refusal :=
  .next ((if s.rbit Reg.pwrWakecfg 0 then s.wake 1 else s).runDue offer)
/-- PWR_ALARM (R20, R21). -/
def execPwrAlarm (offer : BootOffer) (s : State) : Host.Outcome State Fault Refusal :=
  .next ((if s.rbit Reg.pwrWakecfg 1 && decide (dword (s.reg Reg.pwrAlarmHi) (s.reg Reg.pwrAlarmLo) ≤ s.fc) then s.wake 2
    else s).runDue offer)

end Sys2Proof.Machine
end

