-- ==== Sys2Proof/Machine/Console.lean ====
section
/-! DEFINITION. The Boot ROM's monitor in Fallback (R401): its commands, and the lines of ASCII that it reads from UART0 and answers there. -/

namespace Sys2Proof.Machine

/-! Commands -/

/-- A command of the monitor acts in Fallback only, once the access before it has been answered. -/
def State.monitor (s : State) (f : State → State) : State := if s.inFallback && s.boot.mon.isNone then f s else s

/-- I: SYS_ID, SYS_BOOTCAUSE and SYS_BOOTST. -/
def State.monitorInfo (s : State) : State :=
  s.answer none [0x0001_0000 ||| s.engmask.setWidth 32, s.reg Reg.sysBootcause, s.reg Reg.sysBootst]

/-- R: a word read by TE0 through the matrix. What the Boot ROM keeps in its area is its own. -/
def State.monitorRead (s : State) (a : Word) : State :=
  if bootArea (memKey a.toNat) then s.drawWord.2.answer none [s.drawWord.1] else s.monAccess false a []

/-- W: a word written by TE0 through the matrix. -/
def State.monitorWrite (s : State) (a v : Word) : State := s.monAccess true a (bytesOf 4 v.toNat)

/-- L: an image received into the Main Store, with its CRC-32. -/
def State.monitorLoad (s : State) (n : Word) (bs : List Byte) (crc : Word) : State :=
  if 0x0100_0000 < n.toNat ∨ bs.length ≠ n.toNat then s.answerErr
  else
    let s := s.storeBytes 0x1000_0000 bs
    if crc = crc32 bs then { s with boot := { s.boot with recv := some n.toNat } }.answer none []
    else { s with boot := { s.boot with recv := none } }.answerErr

/-- C: the checks of R391 on the received image, with no write; what it answers without one is free. -/
def State.monitorCheck (s : State) (body : ImgBody) : State :=
  match s.boot.recv with
  | none => s.answerErr
  | some n =>
    match s.imageError (s.readBytes 0x1000_0000 n) body with
    | some (c, _) => s.answer (some (BitVec.ofNat 32 c)) []
    | none => s.answer none []

/-- P: a slot erased and programmed with the received image, as far as the slot reaches. Where no flash answers there is no directory. -/
def State.monitorProgram (s : State) (slotB flash : Bool) : State :=
  match if flash then s.flashDir else none with
  | none => s.answer (some 2) []
  | some (a, b) =>
    let d := if slotB then b else a
    let n := match s.boot.recv with | some n => min n d.2 | none => 0
    ((s.flashPut d.1 (List.replicate d.2 0xFF)).flashPut d.1 (s.readBytes 0x1000_0000 n)).answer none []

/-! Lines -/

/-- A line as the monitor understands it. -/
inductive MonLine where
  | info | read (a : Word) | write (a v : Word) | load (n : Word) | wait (w : MonWait) | unknown
  deriving DecidableEq, Repr

/-- The value of a hexadecimal digit in ASCII. -/
def hexValue (n : Nat) : Option Nat :=
  if 48 ≤ n ∧ n ≤ 57 then some (n - 48) else if 65 ≤ n ∧ n ≤ 70 then some (n - 55) else if 97 ≤ n ∧ n ≤ 102 then some (n - 87) else none

/-- Eight hexadecimal digits. -/
def hexWord (l : List Nat) : Option Word :=
  if l.length = 8 then (l.foldl (fun a c => a.bind fun x => (hexValue c).map (16 * x + ·)) (some 0)).map (BitVec.ofNat 32) else none

/-- A line by its ASCII codes. DESIGN CHOICE (log 129): one space stands before each operand, digits and letters of either case are read, and
a line of another form is an unknown command. -/
def monLine : List Nat → MonLine
  | [73] => .info
  | 82 :: 32 :: l => (match hexWord l with | some a => .read a | none => .unknown)
  | 87 :: 32 :: l =>
    (match hexWord (l.take 8), (l.drop 8).head?, hexWord (l.drop 9) with
     | some a, some 32, some v => .write a v
     | _, _, _ => .unknown)
  | 76 :: 32 :: l => (match hexWord l with | some n => .load n | none => .unknown)
  | [67] => .wait .check
  | [80, 32, 65] => .wait (.program false)
  | [80, 32, 66] => .wait (.program true)
  | [66] => .wait .boot
  | _ => .unknown

/-- What a line does: C, P and B act with the command that carries what the flash or the sources hold. -/
def State.monDo (s : State) : MonLine → State
  | .info => s.monitorInfo
  | .read a => s.monitorRead a
  | .write a v => s.monitorWrite a v
  | .load n => if 0x0100_0000 < n.toNat then s.answerErr else { s with boot := { s.boot with raw := some (n.toNat + 4) } }
  | .wait w => { s with boot := { s.boot with line := some w } }
  | .unknown => s.answer (some 0xFF) []

/-- A character of a line, or a raw byte of L with the CRC-32 in its last four. -/
def State.monChar (s : State) (b : Byte) : State :=
  match s.boot.raw with
  | some k =>
    let bs := s.boot.inp ++ [b]
    if 1 < k then { s with boot := { s.boot with inp := bs, raw := some (k - 1) } }
    else
      let n := bs.length - 4
      { s with boot := { s.boot with inp := [], raw := none } }.monitorLoad (BitVec.ofNat 32 n) (bs.take n) (wordOf (bs.drop n))
  | none =>
    if b = 0x0D then { s with boot := { s.boot with inp := [] } }.monDo (monLine (s.boot.inp.map fun (c : Byte) => c.toNat))
    else { s with boot := { s.boot with inp := s.boot.inp ++ [b] } }

/-- The monitor takes a character that UART0 has received, while no command of it waits. -/
def State.monListen (s : State) : State :=
  if s.inFallback && s.boot.mon.isNone && s.boot.line.isNone then
    match s.uart[0].rx with
    | v :: vs => (s.modUart 0 fun x => { x with rx := vs }).monChar (v.truncate 8)
    | [] => s
  else s

/-- The monitor's answers go to UART0 as its transmit FIFO has room. -/
def State.monSpeak (s : State) : State :=
  let k := 64 - s.uart[0].tx.length
  if s.inFallback && !s.boot.out.isEmpty then
    { s with boot := { s.boot with out := s.boot.out.drop k } }.modUart 0 fun x => { x with tx := x.tx ++ s.boot.out.take k }
  else s

/-- A line that waits is taken up. -/
def State.monLineDone (s : State) : State := { s with boot := { s.boot with line := none } }

/-- The slot that a waiting line P names; else that of the command. -/
def State.monSlot (s : State) (slotB : Bool) : Bool := match s.boot.line with | some (.program b) => b | _ => slotB

/-! The meanings -/

/-- MONITOR_INFO (R401). -/
def execMonitorInfo (s : State) : Host.Outcome State Fault Refusal := .next (s.monitor State.monitorInfo)
/-- MONITOR_READ (R401). -/
def execMonitorRead (addr : Word) (s : State) : Host.Outcome State Fault Refusal := .next (s.monitor (·.monitorRead addr))
/-- MONITOR_WRITE (R401). -/
def execMonitorWrite (addr value : Word) (s : State) : Host.Outcome State Fault Refusal :=
  .next (s.monitor (·.monitorWrite addr value))
/-- MONITOR_LOAD (R401). -/
def execMonitorLoad (n : Word) (bytes : List Byte) (crc : Word) (s : State) : Host.Outcome State Fault Refusal :=
  .next (s.monitor (·.monitorLoad n bytes crc))
/-- MONITOR_CHECK (R401). -/
def execMonitorCheck (body : ImgBody) (s : State) : Host.Outcome State Fault Refusal :=
  .next (s.monitor fun s => s.monLineDone.monitorCheck body)
/-- MONITOR_PROGRAM (R401). -/
def execMonitorProgram (slotB flash : Bool) (s : State) : Host.Outcome State Fault Refusal :=
  .next (s.monitor fun s => s.monLineDone.monitorProgram (s.monSlot slotB) flash)
/-- MONITOR_BOOT (R401, R402). -/
def execMonitorBoot (offer : BootOffer) (s : State) : Host.Outcome State Fault Refusal :=
  .next (s.monitor fun s => s.failedClear.start 2 offer)
/-- MONITOR_UNKNOWN_COMMAND (R401). -/
def execMonitorUnknownCommand (s : State) : Host.Outcome State Fault Refusal := .next (s.monitor (·.answer (some 0xFF) []))

end Sys2Proof.Machine
end

