-- ==== Sys2Proof/Machine/Pads.lean ====
section
/-! DEFINITION. The signal balls (R448), what the part puts on each (R450, R451), and the test access port (R454). -/

namespace Sys2Proof.Machine

/-- A signal ball, or the two balls of a pair (R448). The signals of a port are numbered in ball order from 0. -/
inductive Ball where
  | ev (p : PinId) | cap (n : Fin 32) | mains | perst | gpio (n : GpioId) | enc (n : RcvId) | sck (n : BaseId)
  /-- TX, RX, RTS, CTS. -/
  | uart (u : PortId) (k : Fin 4)
  /-- SCL, SDA. -/
  | i2c (i : PairId) (k : Fin 2)
  /-- TCK, TMS, TDI, TDO, TRST#. -/
  | tap (k : Fin 5)
  /-- RESET#, WAKE, BOOTSRC0, BOOTSRC1, TESTEN. -/
  | ctl (k : Fin 5)
  /-- SPI0: SCK, CS#, IO0–IO3. -/
  | qspi (k : Fin 6)
  /-- SPI1–SPI3: SCK, MOSI, MISO, CS0–CS3. -/
  | spi (i : SpiId) (k : Fin 7)
  /-- TXC, TX_CTL, TXD0–TXD3, RXC, RX_CTL, RXD0–RXD3, MDC, MDIO. -/
  | eth (m : PairId) (k : Fin 14)
  /-- A0–A23, HS0–HS7, D0–D31. -/
  | lbp (p : PairId) (k : Fin 64)
  /-- TX0, TX1, RX0, RX1. -/
  | hl (p : PortId) (k : Fin 4)
  /-- TX0, TX1, RX0, RX1, REFCLK. -/
  | pcie (k : Fin 5)
  | xin | xout
  deriving DecidableEq, Repr

/-- A pull of the part. -/
inductive Pull where
  | none | up | down
  deriving DecidableEq, Repr

/-- What the part puts on a ball (R450, R451): a level, high impedance with its pull, the fail-safe bias of a receiver with or without its
termination, the idle state of a lane, or a waveform whose level the model does not follow. -/
inductive Pad where
  | drive (level : Bool) | z (pull : Pull) | bias (term : Bool) | idle | active
  deriving DecidableEq, Repr

/-- The boundary-scan cell of a ball. DESIGN CHOICE (log 136): R454 names the balls and no order; a pair has one cell. -/
def Ball.cell : Ball → Option Nat
  | .ev p => some p.val
  | .cap n => some (64 + n.val)
  | .mains => some 96
  | .perst => some 97
  | .gpio n => some (98 + n.val)
  | .enc n => some (194 + n.val)
  | .sck n => some (218 + n.val)
  | .uart u k => some (226 + 4 * u.val + k.val)
  | .i2c i k => some (242 + 2 * i.val + k.val)
  | .tap k => some (246 + k.val)
  | .ctl k => some (251 + k.val)
  | .qspi k => some (256 + k.val)
  | .spi i k => some (262 + 7 * i.val + k.val)
  | .eth m k => some (283 + 14 * m.val + k.val)
  | .lbp p k => some (311 + 64 * p.val + k.val)
  | .hl _ _ | .pcie _ | .xin | .xout => none

/-- The balls with a cell, in the order of their cells. -/
def cellBalls : List Ball :=
  (List.finRange 64).map .ev ++ (List.finRange 32).map .cap ++ [.mains, .perst] ++ (List.finRange 96).map .gpio ++
  (List.finRange 24).map .enc ++ (List.finRange 8).map .sck ++
  (List.finRange 4).flatMap (fun u => (List.finRange 4).map (.uart u)) ++
  (List.finRange 2).flatMap (fun i => (List.finRange 2).map (.i2c i)) ++
  (List.finRange 5).map .tap ++ (List.finRange 5).map .ctl ++ (List.finRange 6).map .qspi ++
  (List.finRange 3).flatMap (fun i => (List.finRange 7).map (.spi i)) ++
  (List.finRange 2).flatMap (fun m => (List.finRange 14).map (.eth m)) ++
  (List.finRange 2).flatMap (fun p => (List.finRange 64).map (.lbp p))

/-- The ball belongs to the always-on group or the reference, which keeps its power in every state (R450, R451). -/
def Ball.alwaysOn : Ball → Bool
  | .tap _ | .ctl _ | .xin | .xout => true
  | _ => false

/-- The part only receives on the ball (R450): EXTEST drives nothing there. -/
def Ball.input : Ball → Bool
  | .cap _ | .mains | .perst | .enc _ | .ctl _ | .xin => true
  | .tap k => k.val != 3
  | .uart _ k => k.val % 2 == 1
  | .eth _ k => decide (6 ≤ k.val) && decide (k.val < 12)
  | .hl _ k => decide (2 ≤ k.val)
  | .pcie k => decide (2 ≤ k.val)
  | _ => false

/-- The rails of IOB0–IOB7 and of the drivers are down (R451). -/
def State.railsDown (s : State) : Bool := s.power == .off || s.power == .stopped

/-- The Boot ROM has started since the last origin, or an image runs (R398). -/
def State.romStarted (s : State) : Bool := s.released || s.inFallback || s.rfld Reg.sysBootst 4 4 != 0

/-- What a UART puts on its signals: its function while it runs, and the reset state of R450 else. -/
def State.uartPad (s : State) (u : PortId) (k : Fin 4) : Pad :=
  let on := s.rbit (Reg.uartCtl u) 0
  match k.val with
  | 0 => if on then (if s.uart[u].shift then .active else .drive true)
         else if u = 0 ∧ s.romStarted then .drive true else .z .up
  | 2 => if on then .drive (s.uartRts u == Config.rtsLevel) else if u = 0 then .drive false else .z .up
  | _ => .z .none

/-- What SPI1–SPI3 put on their signals: by mode while enabled (R380), and the reset state of R450 else. -/
def State.spiPad (s : State) (i : SpiId) (k : Fin 7) : Pad :=
  let c := Reg.spiCtl (spiNo i)
  let rest : Pad := .z (if 3 ≤ k.val then .up else .down)
  let word : Pad := if s.spiBusy i then .active else rest
  if !s.rbit c 0 then rest
  else if s.rbit c 2 then
    match k.val with
    | 0 => if s.spiBusy i then .active else .drive (s.rbit c 4)
    | 1 => word
    | 2 => rest
    | n => if n - 3 = s.rfld c 5 2 then .drive (!s.spi[i].cs) else rest
  else if k.val = 2 then word else rest

/-- What an Ethernet MAC puts on its signals (R357): the clock and the data of an enabled transmitter, MDC and MDIO in an access. -/
def State.ethPad (s : State) (m : PairId) (k : Fin 14) : Pad :=
  if k.val < 6 then (if s.rbit (Reg.ethCtl m) 0 then .active else .drive false)
  else if k.val < 12 then .z .none
  else if s.eth[m].mdio.isSome then .active
  else if k.val = 12 then .drive false else .z .up

/-- What a backplane port drives (R361, R362, R364): an address, the low BW bits of a word, and the lines of its roles. -/
def State.lbpPad (s : State) (p : PairId) (k : Fin 64) : Pad :=
  let bit (v : Option Bool) : Pad := match v with | some b => .drive b | none => .z .none
  if k.val < 24 then bit (s.lbp[p].a.map fun a => a.getLsbD k.val)
  else if k.val < 32 then bit (s.hsDrive p (k.val - 24))
  else
    let n := match s.rfld (Reg.lbpStat p) 16 2 with | 0 => 8 | 1 => 16 | _ => 32
    if k.val - 32 < n then bit (s.lbp[p].d.map fun d => bitOf d (k.val - 32)) else .z .none

/-- What the part puts on a ball by its owner (R450). A high-impedance safe level keeps the pull-down (R451). -/
def State.ownPad (s : State) : Ball → Pad
  | .ev p => if !s.released then .z .down else match (s.pin p).lvl with | .low => .drive false | .high => .drive true | .z => .z .down
  | .cap _ | .mains => .z .none
  | .perst => .z (if s.inFallback then .none else .up)
  | .gpio n =>
    let g := n.val / 24
    let k := n.val % 24
    if s.rbit (Reg.gpioDir g) k && !(s.rbit (Reg.gpioOd g) k && s.rbit (Reg.gpioOut g) k) then .drive (s.rbit (Reg.gpioOut g) k)
    else .z .down
  | .enc n => .bias (match s.image with | some g => g.rcvs.any fun x => x.rcv == n && x.term | none => false)
  | .sck n => (match s.sckLevel n with | .low => .drive false | .high => .drive true | .z => .z .none)
  | .uart u k => s.uartPad u k
  | .i2c i k => if k.val = 0 ∧ s.i2c[i].held then .drive false else if s.i2c[i].held then .active else .z .none
  | .tap k => .z (match k.val with | 0 => .down | 1 => .up | 2 => .up | 3 => .none | _ => .down)
  | .ctl k => .z (if k.val = 0 then .up else .down)
  | .qspi k => (match k.val with | 0 => .drive false | 1 => .drive true | _ => .z .up)
  | .spi i k => s.spiPad i k
  | .eth m k => s.ethPad m k
  | .lbp p k => s.lbpPad p k
  | .hl p k => if 2 ≤ k.val then .z .none else if s.hlState p = 0 then .idle else .active
  | .pcie k => if 2 ≤ k.val then .z .none else if s.rbit Reg.pcieCtl 0 then .active else .idle
  | .xin => .z .none
  | .xout => .active

/-- What the part puts on a ball: nothing while its rail is down, its cell under EXTEST, else what its owner gives it (R450, R451, R454). -/
def State.pad (s : State) (b : Ball) : Pad :=
  if s.railsDown && !b.alwaysOn then .z .none
  else match if s.extest && !b.input then b.cell else none with
    | some n => .drive (s.cell n)
    | none => s.ownPad b

/-- The level of a ball as the part knows it: what it drives, RESET# as its filter sees it, or the input that GPIO_IN holds. -/
def State.ballLevel (s : State) (b : Ball) : Option Bool :=
  match s.pad b, b with
  | .drive v, _ => some v
  | _, .gpio n => some (s.rbit (Reg.gpioIn (n.val / 24)) (n.val % 24))
  | _, .ctl k => if k.val = 0 then some (!(s.boot.low || s.boot.fall.isSome)) else none
  | _, _ => none

/-- The levels of the balls as the boundary-scan register captures them (R454): one that the part does not know is free. -/
def State.capture (s : State) : Cells × State :=
  (BitVec.ofNat 439 ((cellBalls.zipIdx.map fun x =>
    b2n (match s.ballLevel x.1 with | some v => v | none => bitOf (Config.freeWord (s.free + x.2)) 0) * 2 ^ x.2).sum), s.drawn 439)

/-- Cells as words, the lowest first. -/
def cellWords (c : Cells) : List Word := (List.range 14).map fun k => BitVec.ofNat 32 (c.toNat / 2 ^ (32 * k))

/-- The instruction register takes a value. -/
def State.tapSelect (s : State) (ir : Byte) : State := { s with tap := { s.tap with ir := some ir } }

/-- The register between TDI and TDO is shifted out, and with `bsr` the boundary-scan register takes what is shifted in (R454). EXTEST has
code 0x00 and BYPASS 0xFF (PRESUMED, log 136), the codes of the other two are free, and a code without an instruction acts as BYPASS. -/
def State.tapInstruction (s : State) (ir : Byte) (bsr : Option Cells) : State :=
  let s := s.tapSelect ir
  let scan : State :=
    let r := s.capture
    { r.2 with rdata := cellWords r.1, tap := { s.tap with bsr := match bsr with | some c => c | none => s.tap.bsr } }
  if ir = 0x00 then scan
  else if ir = 0xFF then { s with rdata := [0] }
  else if ir = Config.tapIdcode then { s with rdata := [0x1A96_0B85] }
  else if ir = Config.tapSample then scan
  else { s with rdata := [0] }

/-- TAP_INSTRUCTION (R454): no engine is stopped. -/
def execTapInstruction (ir : Byte) (bsr : Option Cells) (s : State) : Host.Outcome State Fault Refusal := .next (s.tapInstruction ir bsr)
/-- TEST_LOGIC_RESET (R454). -/
def execTestLogicReset (s : State) : Host.Outcome State Fault Refusal := .next { s with tap := { s.tap with ir := none } }

end Sys2Proof.Machine
end

