-- ==== Sys2Proof/Machine/Tick.lean ====
section
/-! DEFINITION. One fc passes (R265): the Time Base and its slew (R267), what the monitors count in each fc (R79, R81, R413, R420–R423),
and what becomes due by time alone. A command acts inside the present fc; this is how the next one begins. -/

namespace Sys2Proof.Machine

/-! The Time Base (R16, R265, R267) -/

/-- TMR_TBSYNC.SLEWDIV; below 8 acts as 8 (R284). -/
def State.slewDiv (s : State) : Nat := max 8 (s.rfld Reg.tmrTbsync 16 16)

/-- The fc that begins is a slew fc (R267). -/
def State.slewDue (s : State) : Bool := s.tmrOn && s.time.slew != 0 && decide (s.slewDiv ≤ s.time.since + 1)

/-- The steps by which the Time Base advances: 8, in a slew fc 9 or 7; in Retain and Off 40 fc at once every 40 fc, or none on a
recovered reference (R16). -/
def State.tbSteps (s : State) : Nat :=
  if s.tmrOn then (if s.slewDue then (if s.time.slew.msb then 7 else 9) else 8)
  else if s.rbit Reg.clkStat 0 then 0
  else if (s.now + 1) % 40 = 0 then 320 else 0

/-- The Time Base advances, with a step that a frame of the fc before has given it, and an outstanding slew by one step (R265, R267). -/
def State.tbAdvance (s : State) : State :=
  let due := s.slewDue
  let slew := if due then (if s.time.slew.msb then s.time.slew + 1 else s.time.slew - 1) else s.time.slew
  { s with now := s.now + 1, tb := s.tb + BitVec.ofNat 67 (s.tbSteps + s.time.jump.toNat),
           time := { s.time with jump := 0, slew := slew, since := if due then 0 else s.time.since + 1, quiet := s.time.quiet + 1 } }

/-! Tabulated latencies (R149, R250, R337) -/

/-- The crossing of a CSR block (R317, R349, R440); 0 on the fabric clock. -/
def crossing (a : Nat) : Nat :=
  let b := a / 0x1_0000
  if b = 0x5001 ∨ b = 0x5002 then 120
  else if 0x5009 ≤ b ∧ b ≤ 0x500C then 8
  else if b = 0x500D then 12
  else if b = 0x500E ∨ b = 0x500F then 16
  else if b = 0x5010 ∨ b = 0x5011 then 2
  else if b = 0x5012 ∨ b = 0x5013 then 20
  else 0

/-- The 0-slice figure of a region; none where R149 tabulates none. A cycle of the backplane window lasts as long as its strobe
(R363). -/
def State.regionLat (s : State) (a : Nat) : Option Nat :=
  match s.region a with
  | .tile _ => some 12
  | .main => some 24
  | .rom => some 20
  | .table => some 23
  | .te _ => some 14
  | .dev => if (lbpWindow a).isSome then none else some (14 + crossing a)
  | _ => none

/-- The slices of a master's path to a target (R310). -/
def State.slicesOf (s : State) (m t : Nat) : Nat :=
  if t < 16 then s.rfld (Reg.mtxSliceLo m) (2 * t) 2 else s.rfld (Reg.mtxSliceHi m) (2 * (t - 16)) 2

/-- The tabulated latency of a far transaction of master `m` with `n` bytes at `addr` (R250), none where there is none. -/
def State.farLat (s : State) (m : Nat) (addr : Word) (kind : ReqKind) (n : Nat) (node : NodeId) (split : Bool) : Option Nat :=
  let atom := kindAtomic kind
  match s.target addr.toNat with
  | none => none
  | some t =>
    let sl := 2 * s.slicesOf m t
    if t = 28 then
      match remoteAddr (addr - 0x6000_0000) with
      | none => none
      | some a =>
        match s.regionLat a.toNat with
        | none => none
        | some l =>
          let rt := l + (if atom then 2 else 0)
          if node = s.hlId then some (24 + rt + sl + b2n split)
          else some (123 + 192 * Config.hops node.toNat + rt + sl + b2n split + 13 * ((n - 8 + 7) / 8) + (if atom then 13 else 0))
    else (s.regionLat addr.toNat).map fun l => l + sl + b2n split + (if atom then 2 else 0)

/-! Gust (R81) -/

/-- A transaction with a tabulated latency that began in model fc `t` is still outstanding at its end. -/
def State.lateBy (s : State) (l : Option Nat) (t : Nat) : Bool := match l with | some l => decide (t + l ≤ s.now) | none => false

/-- The matrix request `id` is outstanding beyond its latency; `first` says that it is the first half of a split access. -/
def State.reqLate (s : State) (id : Nat) (first : Bool) : Bool :=
  match s.findReq id with
  | some r => s.lateBy (s.farLat r.m r.named.1 r.kind r.len r.node first) r.issued
  | none => false

/-- A half of a BMU element's access is outstanding beyond the latency of the access (R184, R250). -/
def State.elemLate (s : State) (el : BmuElem) : Bool :=
  el.reqs.zipIdx.any fun h => h.1.resp.isNone && s.reqLate h.1.id (h.2 == 0 && decide (1 < el.reqs.length + el.rest.length))

/-- A far transaction of the running frame is outstanding beyond its tabulated latency: of its loads, stores and atomics from their fc
at the unit on, of its block operation, and of its fetch. -/
def State.farOverdue (s : State) (e : EngId) (f : FReq) : Bool :=
  let x := s.eng e
  (x.far.any fun o => o.frame == some f.start &&
    s.lateBy (s.farLat e.val o.addr o.kind o.size o.node (decide (1 < o.parts))) o.issued) ||
  (match x.bmu with
   | some o => o.frame == some f.start && o.elems.any s.elemLate
   | none => false) ||
  (s.ofFrame e == some f.start && x.lines.any fun l => l.parts.any fun p => match p.id with | some i => s.reqLate i false | none => false)

/-- An interrupt handler runs on the engine: inputs have the vectors from 32 on (R202). -/
def State.interruptRuns (s : State) (e : EngId) : Bool :=
  let v := s.rfld (Reg.teExcstat e) 16 8
  s.hnd e && decide (32 ≤ v) && decide (v < 160)

/-- An interrupt handler is charged to the frame: from its entry up to the first group after the return. -/
def State.handlerCharged (s : State) (e : EngId) : Bool :=
  s.interruptRuns e || ((s.eng e).chargeI && (s.hnd e || (s.eng e).issued != some s.now))

/-- The frame was delayed by an Elastic one during a warning, and its first group has not issued yet. -/
def State.startCharged (s : State) (e : EngId) (f : FReq) : Bool :=
  f.late && s.elDrop && (match (s.eng e).issued with | some i => decide (i < f.start) | none => true)

/-- A waiting Strict frame is delayed by an Elastic one that runs during a warning: charged from its arrival up to its first group. -/
def State.waitCharged (s : State) (g : Option FReq) (f : FReq) : FReq :=
  if s.elDrop && f.strict && (match g with | some g => !g.strict | none => false) then { f with gust := f.gust + 1, late := true }
  else if s.elDrop && f.late then { f with gust := f.gust + 1 }
  else f

/-- The Curator stall of a frame's access lasts while the borrow does. -/
def State.stallCharged (s : State) (e : EngId) : Bool := (s.eng e).charge && s.cur.borrow.isSome

/-- What the Deadline Monitor counts of the present fc at an engine: at most one fc of Gust for the running frame (R81), with its
event (R423), and for each frame that an Elastic one has delayed. -/
def State.gustCount (s : State) (e : EngId) : State :=
  match (s.frames e).run with
  | none => s.setFrames e { s.frames e with q := (s.frames e).q.map (s.waitCharged none) }
  | some f =>
    let h := s.handlerCharged e
    let k := s.stallCharged e
    let on := s.live e && (h || k || s.farOverdue e f || s.startCharged e f)
    let s := (s.modEng e fun x => { x with charge := k, chargeI := h }).perf e 0x10 (b2n on)
    let x := s.frames e
    s.setFrames e { x with run := some { f with gust := f.gust + b2n on }, q := x.q.map (s.waitCharged (some f)) }

/-- The counts that ALM_FELAP and ALM_FGUST show of the running frame (R79, R91). -/
def State.frameShow (s : State) (e : EngId) : State :=
  match (s.frames e).run with
  | none => s
  | some f => (s.setReg (Reg.almFelap e) (BitVec.ofNat 32 (s.now - f.fire))).setReg (Reg.almFgust e) (BitVec.ofNat 32 f.gust)

/-! Slot classes of an fc in which no group issues (R420, R421) -/

/-- The stall event of the group that stands complete at the issue point; 0 where no event counts it. -/
def State.stallEvent (s : State) (e : EngId) : Option (Nat × Bool) :=
  match s.group e with
  | .inl (some (g, t)) =>
    match t.fare e g (decide ((s.eng e).dly ≠ 0) || decide ((s.eng e).rep ≠ 0)) with
    | .wait ev _ => some (ev, ev == 0x0D)
    | _ => some (0, false)
  | _ => none

/-- The present fc is a later one of the group that issued last: of a split pair, of two near-port accesses, or of a load that waits for a
store of its group (R130, R132, R458). -/
def State.laterFc (s : State) (e : EngId) : Bool := (s.eng e).late.isSome || decide (s.now ≤ (s.eng e).last)

/-- The class of the fc's slots, when no group has issued in it: Front-starved where the group at the issue point is not wholly in
the queue, from the issue of an eret on, and before the sequencer begins again after a return or a frame; else Back-stalled with its
cause; a later fc of a group that has issued is Back-stalled. -/
def State.perfIdle (s : State) (e : EngId) : State :=
  if !s.counts e || (s.eng e).issued == some s.now then s
  else
    let s := s.perf e 0x01 1
    if (s.eng e).useq.run then
      if (s.eng e).useq.back then s.perf e 0x04 8
      else
        let s := s.perf e 0x05 8
        let ev := match (s.eng e).wev with
          | some (t, ev) => if t = s.now then ev else 0
          | none => 0
        if ev = 0 then s else s.perf e ev 1
    else if (s.eng e).hold == some .eret then s.perf e 0x04 8
    else
      match s.stallEvent e with
      | none => s.perf e (if s.laterFc e then 0x05 else 0x04) 8
      | some (ev, vit) =>
        let s := s.perf e 0x05 8
        let s := if vit && (s.eng e).inFrame && !s.hnd e then s.modEng e fun x => { x with charge := true } else s
        if ev = 0 then s else s.perf e ev 1

/-- A slip fc of the microword or dispatch that runs is counted (R230, R423). -/
def State.perfSlip (s : State) (e : EngId) : State := s.perf e 0x14 (b2n (s.slipping e))

/-! Engines at the start of an fc -/

/-- The watchdog counts while it is enabled and the engine's clock runs, also in a halted engine (R413). -/
def State.wdCount (s : State) (e : EngId) : State :=
  let c := s.reg (Reg.teWdcnt e)
  if s.live e && s.rbit (Reg.teWdctl e) 0 && c != 0 then
    (s.setReg (Reg.teWdcnt e) (c - 1)).modEng e fun x => { x with wdgDue := if c = 1 then some s.now else x.wdgDue }
  else s

/-- An input whose source has deasserted before arbitration is forgotten. Arbitration chooses an asynchronous exception or an input 3 fc
after its raise or assertion, an input in emulation at an interruptible point only, and the choice stays (R211–R213). -/
def State.arbitrate (s : State) (e : EngId) : State :=
  let s := s.modEng e fun x => { x with inputs := x.inputs.filter fun p => s.asserted e p.1 }
  if s.live e && (s.eng e).chosen.isNone then
    let c := match s.asyncReady e 3 false with
      | some n => some (.async n)
      | none => if s.hnd e || s.seqBusy e then none else (s.inputReady e 3 false).map .input
    s.modEng e fun x => { x with chosen := c }
  else s

/-! What becomes due by time alone -/

/-- A Hatorlink snapshot of this part reaches the received bases that follow it (R45). -/
def State.loopArrive (s : State) : State :=
  let due := s.hl.loop.filter fun p => decide (p.1 ≤ s.now)
  due.foldl (fun s p => s.angleDeliver s.hlId p.2.1.val p.2.2)
    { s with hl := { s.hl with loop := s.hl.loop.filter fun p => decide (s.now < p.1) } }

/-- A difference injected into a base shows (R51, R55). -/
def State.baseInjected (s : State) (b : BaseId) : State :=
  if (s.base b).injLs then (s.modBase b fun x => { x with injLs := false }).baseLockstep b else s

/-- An injected readback mismatch has lasted WIN fc (R86, R91). -/
def State.readbackInjected (s : State) (p : PinId) : State :=
  if (s.pin p).invRb && s.comparing p && decide ((s.pin p).cmpAt + s.rbWin ≤ s.now + 1) then
    (s.modPin p fun x => { x with invRb := false }).rbError p
  else s

/-- CLK_CTL.SRC asks for the recovered reference and its port is up (R440). -/
def State.refRetry (s : State) : State := if s.rbit Reg.clkCtl 0 && !s.rbit Reg.clkStat 0 then s.refSwitch true else s

/-- The monitor's text goes in and out, transfers of the serial ports, the backplane cycles and the DMA channels go on, MDIO accesses end, and
the GPIO pins are sampled. In Hold no byte of an I²C transfer begins (R377). -/
def State.kick (s : State) : State :=
  let s := forAll (fun (u : PortId) s => s.uartStart u) s.monListen.monSpeak
  let s := if s.serves then forAll (fun (i : PairId) s => s.i2cPump i 256) s else s
  let s := forAll (fun (m : PairId) s => s.mdioEnd m) s
  let s := forAll (fun (k : SpiId) s => s.spiStart k) s
  let s := forAll (fun (p : PairId) s => s.lbpCycleTick p) s
  forAll (fun (c : ChanId) s => s.dmaRun c) s.gpioTick

/-- What an engine counts of the fc that ends, the test of its APU wait, the near port's service of a fetch, the next address of a
microword that ends, and the arbitration in that fc (R112, R131, R213, R230). -/
def State.engineEnd (s : State) (e : EngId) : State :=
  (((((((s.perfIdle e).perfSlip e).gustCount e).perfSettle e).apuTest e).apuEval e).fetchStep e).microDecide e |>.arbitrate e

/-- What an engine does as an fc begins: loads and triggers of the group that has issued whose fc this is, a vector word and far requests
whose fc has come, and the end of a block operation (R130, R184, R197, R213, R458, R459). -/
def State.engineBegin (s : State) (e : EngId) : State :=
  if s.live e then
    ((((((((s.lateRun e).laneBDue e).vectorDue e).pumpFar e 4).bmuPumpAll e).pumpLines e).bmuFinish e).frameShow e).wdCount e
  else (s.frameShow e).wdCount e

/-- The Time Base advances, with what that changes of the bases as the Almanac sees them (R45, R72) and the input edges whose fc has come
(R27), and the places that a master's reset has freed (R313). -/
def State.fcBegin (s : State) : State :=
  forAll (fun (b : BaseId) s => s.edgesDue b) (s.tbAdvance.almSeesAll s).dropsEnd

/-- One fc passes. -/
def State.tick (s : State) : State :=
  let s := forAll (fun (m : WcId) s => s.wcEnd m) s
  let s := forAll (fun (p : PairId) s => s.lbpEnd p) (forAll (fun (e : EngId) s => s.engineEnd e) s)
  let s := s.hsSample.logEnter.fcBegin
  let s := forAll (fun (e : EngId) s => s.engineBegin e) (s.borrowTick.loopArrive.msgOwnDue)
  let s := forAll (fun (b : BaseId) s => (s.baseInjected b).ringPredict b) s
  let s := forAll (fun (p : PinId) s => s.readbackInjected p) s
  s.msiSee.refRetry.resetTick.bootStep.fetchTick.kick

/-! The meaning -/

/-- TIME_BASE_SLEW (R267): a slew fc begins. -/
def execTimeBaseSlew (s : State) : Host.Outcome State Fault Refusal := .next (if s.slewDue then s.tick else s)

end Sys2Proof.Machine
end

