-- ==== Sys2Proof/Machine/Dispatch.lean ====
section
/-! DEFINITION. One arm per command: each is one direct call of its meaning. -/

namespace Sys2Proof.Machine

def exec (i : Instr) (s : State) : Host.Outcome State Fault Refusal :=
  match i with
  | .registerWrite addr value => Sys2Proof.Machine.execRegisterWrite addr value s
  | .cancelRequest => Sys2Proof.Machine.execCancelRequest s
  | .requestHold => Sys2Proof.Machine.execRequestHold s
  | .requestRetain => Sys2Proof.Machine.execRequestRetain s
  | .requestOff => Sys2Proof.Machine.execRequestOff s
  | .wakeRequest => Sys2Proof.Machine.execWakeRequest s
  | .holdEntry => Sys2Proof.Machine.execHoldEntry s
  | .retainOffEntry => Sys2Proof.Machine.execRetainOffEntry s
  | .wakePinEdge offer => Sys2Proof.Machine.execWakePinEdge offer s
  | .pwrAlarm offer => Sys2Proof.Machine.execPwrAlarm offer s
  | .quadratureTransition b ev => Sys2Proof.Machine.execQuadratureTransition b ev s
  | .timedT0Edge b edge t1 => Sys2Proof.Machine.execTimedT0Edge b edge t1 s
  | .timedT1Edge change => Sys2Proof.Machine.execTimedT1Edge change s
  | .ssiFrame b => Sys2Proof.Machine.execSsiFrame b s
  | .ssiSample b raw => Sys2Proof.Machine.execSsiSample b raw s
  | .mainsCrossing b rising edge => Sys2Proof.Machine.execMainsCrossing b rising edge s
  | .mainsCrossingTimeout b => Sys2Proof.Machine.execMainsCrossingTimeout b s
  | .velocityUpdate b => Sys2Proof.Machine.execVelocityUpdate b s
  | .silenceTimeout b => Sys2Proof.Machine.execSilenceTimeout b s
  | .angleSnapshot b => Sys2Proof.Machine.execAngleSnapshot b s
  | .abApply b => Sys2Proof.Machine.execAbApply b s
  | .abCancel b => Sys2Proof.Machine.execAbCancel b s
  | .stagedChangeApply b => Sys2Proof.Machine.execStagedChangeApply b s
  | .baseEnable b => Sys2Proof.Machine.execBaseEnable b s
  | .baseDisable b => Sys2Proof.Machine.execBaseDisable b s
  | .angleLockstepMismatch b => Sys2Proof.Machine.execAngleLockstepMismatch b s
  | .angInjSsirej b => Sys2Proof.Machine.execAngInjSsirej b s
  | .angInjIll b => Sys2Proof.Machine.execAngInjIll b s
  | .angInjLs b => Sys2Proof.Machine.execAngInjLs b s
  | .phaseRead b which => Sys2Proof.Machine.execPhaseRead b which s
  | .walkerRead r => Sys2Proof.Machine.execWalkerRead r s
  | .entryPerform r => Sys2Proof.Machine.execEntryPerform r s
  | .edgeCommit r => Sys2Proof.Machine.execEdgeCommit r s
  | .edgePlace pin => Sys2Proof.Machine.execEdgePlace pin s
  | .tableWrite slot off size data => Sys2Proof.Machine.execTableWrite slot off size data s
  | .ringEnable r => Sys2Proof.Machine.execRingEnable r s
  | .ringDisable r => Sys2Proof.Machine.execRingDisable r s
  | .almanacEnable => Sys2Proof.Machine.execAlmanacEnable s
  | .almanacDisable => Sys2Proof.Machine.execAlmanacDisable s
  | .frameRequestArrival e => Sys2Proof.Machine.execFrameRequestArrival e s
  | .frameStart e => Sys2Proof.Machine.execFrameStart e s
  | .budgetMiss e => Sys2Proof.Machine.execBudgetMiss e s
  | .phaseMiss e => Sys2Proof.Machine.execPhaseMiss e s
  | .gustOverrun e => Sys2Proof.Machine.execGustOverrun e s
  | .groupSafeRelease g => Sys2Proof.Machine.execGroupSafeRelease g s
  | .groupHoldRelease g => Sys2Proof.Machine.execGroupHoldRelease g s
  | .readbackMismatch found => Sys2Proof.Machine.execReadbackMismatch found s
  | .readbackRelease pin => Sys2Proof.Machine.execReadbackRelease pin s
  | .almanacLockstepMismatch => Sys2Proof.Machine.execAlmanacLockstepMismatch s
  | .almInjGusto e => Sys2Proof.Machine.execAlmInjGusto e s
  | .almInjDlm e => Sys2Proof.Machine.execAlmInjDlm e s
  | .almInjLs => Sys2Proof.Machine.execAlmInjLs s
  | .almInjRb pin => Sys2Proof.Machine.execAlmInjRb pin s
  | .lineFetchRequest e => Sys2Proof.Machine.execLineFetchRequest e s
  | .lineArrival e => Sys2Proof.Machine.execLineArrival e s
  | .issueGroup e => Sys2Proof.Machine.execIssueGroup e s
  | .aluAdd e u t => Sys2Proof.Machine.execAluAdd e u t s
  | .aluSub e u t => Sys2Proof.Machine.execAluSub e u t s
  | .aluAddc e u t => Sys2Proof.Machine.execAluAddc e u t s
  | .aluSubb e u t => Sys2Proof.Machine.execAluSubb e u t s
  | .aluAdds e u t => Sys2Proof.Machine.execAluAdds e u t s
  | .aluSubs e u t => Sys2Proof.Machine.execAluSubs e u t s
  | .aluAnd e u t => Sys2Proof.Machine.execAluAnd e u t s
  | .aluOr e u t => Sys2Proof.Machine.execAluOr e u t s
  | .aluXor e u t => Sys2Proof.Machine.execAluXor e u t s
  | .aluAndn e u t => Sys2Proof.Machine.execAluAndn e u t s
  | .aluShl e u t => Sys2Proof.Machine.execAluShl e u t s
  | .aluShr e u t => Sys2Proof.Machine.execAluShr e u t s
  | .aluSra e u t => Sys2Proof.Machine.execAluSra e u t s
  | .aluRol e u t => Sys2Proof.Machine.execAluRol e u t s
  | .aluEq e u t => Sys2Proof.Machine.execAluEq e u t s
  | .aluNe e u t => Sys2Proof.Machine.execAluNe e u t s
  | .aluLts e u t => Sys2Proof.Machine.execAluLts e u t s
  | .aluLes e u t => Sys2Proof.Machine.execAluLes e u t s
  | .aluGts e u t => Sys2Proof.Machine.execAluGts e u t s
  | .aluGes e u t => Sys2Proof.Machine.execAluGes e u t s
  | .aluLtu e u t => Sys2Proof.Machine.execAluLtu e u t s
  | .aluLeu e u t => Sys2Proof.Machine.execAluLeu e u t s
  | .aluGtu e u t => Sys2Proof.Machine.execAluGtu e u t s
  | .aluGeu e u t => Sys2Proof.Machine.execAluGeu e u t s
  | .aluMins e u t => Sys2Proof.Machine.execAluMins e u t s
  | .aluMaxs e u t => Sys2Proof.Machine.execAluMaxs e u t s
  | .aluMinu e u t => Sys2Proof.Machine.execAluMinu e u t s
  | .aluMaxu e u t => Sys2Proof.Machine.execAluMaxu e u t s
  | .aluAbs e u t => Sys2Proof.Machine.execAluAbs e u t s
  | .mulMull e u t => Sys2Proof.Machine.execMulMull e u t s
  | .mulMulu e u t => Sys2Proof.Machine.execMulMulu e u t s
  | .mulMulsu e u t => Sys2Proof.Machine.execMulMulsu e u t s
  | .macMacs e u t => Sys2Proof.Machine.execMacMacs e u t s
  | .macMacu e u t => Sys2Proof.Machine.execMacMacu e u t s
  | .macMsbs e u t => Sys2Proof.Machine.execMacMsbs e u t s
  | .macMacss e u t => Sys2Proof.Machine.execMacMacss e u t s
  | .macLdmul e u t => Sys2Proof.Machine.execMacLdmul e u t s
  | .macLerp e u t => Sys2Proof.Machine.execMacLerp e u t s
  | .macLdacc e u t => Sys2Proof.Machine.execMacLdacc e u t s
  | .macRsh e u t => Sys2Proof.Machine.execMacRsh e u t s
  | .macAdda e u t => Sys2Proof.Machine.execMacAdda e u t s
  | .divDivs e t => Sys2Proof.Machine.execDivDivs e t s
  | .divDivu e t => Sys2Proof.Machine.execDivDivu e t s
  | .bitExtu e t => Sys2Proof.Machine.execBitExtu e t s
  | .bitExts e t => Sys2Proof.Machine.execBitExts e t s
  | .bitIns e t => Sys2Proof.Machine.execBitIns e t s
  | .bitClz e t => Sys2Proof.Machine.execBitClz e t s
  | .bitCtz e t => Sys2Proof.Machine.execBitCtz e t s
  | .bitPopc e t => Sys2Proof.Machine.execBitPopc e t s
  | .bitPerm e t => Sys2Proof.Machine.execBitPerm e t s
  | .computeResultComplete e u => Sys2Proof.Machine.execComputeResultComplete e u s
  | .lsuLdbu e n t => Sys2Proof.Machine.execLsuLdbu e n t s
  | .lsuLdbs e n t => Sys2Proof.Machine.execLsuLdbs e n t s
  | .lsuLdhu e n t => Sys2Proof.Machine.execLsuLdhu e n t s
  | .lsuLdhs e n t => Sys2Proof.Machine.execLsuLdhs e n t s
  | .lsuLdw e n t => Sys2Proof.Machine.execLsuLdw e n t s
  | .lsuLdwx e n t => Sys2Proof.Machine.execLsuLdwx e n t s
  | .lsuStb e n t => Sys2Proof.Machine.execLsuStb e n t s
  | .lsuSth e n t => Sys2Proof.Machine.execLsuSth e n t s
  | .lsuStw e n t => Sys2Proof.Machine.execLsuStw e n t s
  | .lsuStwx e n t => Sys2Proof.Machine.execLsuStwx e n t s
  | .lsuAadd e n t => Sys2Proof.Machine.execLsuAadd e n t s
  | .lsuAswp e n t => Sys2Proof.Machine.execLsuAswp e n t s
  | .lsuLdfbu e n t => Sys2Proof.Machine.execLsuLdfbu e n t s
  | .lsuLdfbs e n t => Sys2Proof.Machine.execLsuLdfbs e n t s
  | .lsuLdfhu e n t => Sys2Proof.Machine.execLsuLdfhu e n t s
  | .lsuLdfhs e n t => Sys2Proof.Machine.execLsuLdfhs e n t s
  | .lsuLdfw e n t => Sys2Proof.Machine.execLsuLdfw e n t s
  | .lsuLdfwx e n t => Sys2Proof.Machine.execLsuLdfwx e n t s
  | .lsuStfb e n t => Sys2Proof.Machine.execLsuStfb e n t s
  | .lsuStfh e n t => Sys2Proof.Machine.execLsuStfh e n t s
  | .lsuStfw e n t => Sys2Proof.Machine.execLsuStfw e n t s
  | .lsuStfwx e n t => Sys2Proof.Machine.execLsuStfwx e n t s
  | .lsuFaadd e n t => Sys2Proof.Machine.execLsuFaadd e n t s
  | .lsuFaswp e n t => Sys2Proof.Machine.execLsuFaswp e n t s
  | .localLoadResult e n => Sys2Proof.Machine.execLocalLoadResult e n s
  | .storeDrain e => Sys2Proof.Machine.execStoreDrain e s
  | .farLoadResult e n => Sys2Proof.Machine.execFarLoadResult e n s
  | .farStoreCompletion e n => Sys2Proof.Machine.execFarStoreCompletion e n s
  | .bmuCpy e t => Sys2Proof.Machine.execBmuCpy e t s
  | .bmuCpyf e t => Sys2Proof.Machine.execBmuCpyf e t s
  | .bmuFill e t => Sys2Proof.Machine.execBmuFill e t s
  | .bmuScan e t => Sys2Proof.Machine.execBmuScan e t s
  | .bmuScann e t => Sys2Proof.Machine.execBmuScann e t s
  | .bmuCmp e t => Sys2Proof.Machine.execBmuCmp e t s
  | .bmuStop e t => Sys2Proof.Machine.execBmuStop e t s
  | .bmuElementAccess e => Sys2Proof.Machine.execBmuElementAccess e s
  | .ctlJmp e t => Sys2Proof.Machine.execCtlJmp e t s
  | .ctlJr e t => Sys2Proof.Machine.execCtlJr e t s
  | .ctlCall e t => Sys2Proof.Machine.execCtlCall e t s
  | .ctlRet e t => Sys2Proof.Machine.execCtlRet e t s
  | .ctlRep e t => Sys2Proof.Machine.execCtlRep e t s
  | .ctlLp0 e t => Sys2Proof.Machine.execCtlLp0 e t s
  | .ctlLp1 e t => Sys2Proof.Machine.execCtlLp1 e t s
  | .ctlSync e t => Sys2Proof.Machine.execCtlSync e t s
  | .syncComplete e => Sys2Proof.Machine.execSyncComplete e s
  | .ctlTrap e t => Sys2Proof.Machine.execCtlTrap e t s
  | .ctlEret e t => Sys2Proof.Machine.execCtlEret e t s
  | .apuPhs e t => Sys2Proof.Machine.execApuPhs e t s
  | .apuVel e t => Sys2Proof.Machine.execApuVel e t s
  | .apuEdge e t => Sys2Proof.Machine.execApuEdge e t s
  | .apuTb e t => Sys2Proof.Machine.execApuTb e t s
  | .apuWph e t => Sys2Proof.Machine.execApuWph e t s
  | .apuWtb e t => Sys2Proof.Machine.execApuWtb e t s
  | .apuWaitComplete e => Sys2Proof.Machine.execApuWaitComplete e s
  | .xioSend e t => Sys2Proof.Machine.execXioSend e t s
  | .xioAlw e t => Sys2Proof.Machine.execXioAlw e t s
  | .xioPop e t => Sys2Proof.Machine.execXioPop e t s
  | .xioFend e t => Sys2Proof.Machine.execXioFend e t s
  | .xioMcall e t => Sys2Proof.Machine.execXioMcall e t s
  | .outboundDelivery e => Sys2Proof.Machine.execOutboundDelivery e s
  | .exceptionEntry e => Sys2Proof.Machine.execExceptionEntry e s
  | .interruptInputAssert e k => Sys2Proof.Machine.execInterruptInputAssert e k s
  | .vectorPrefetch e => Sys2Proof.Machine.execVectorPrefetch e s
  | .softwareSourceSet mask => Sys2Proof.Machine.execSoftwareSourceSet mask s
  | .muNop e stall => Sys2Proof.Machine.execMuNop e stall s
  | .muMov e stall => Sys2Proof.Machine.execMuMov e stall s
  | .muLdi e stall => Sys2Proof.Machine.execMuLdi e stall s
  | .muAdd e stall => Sys2Proof.Machine.execMuAdd e stall s
  | .muAdc e stall => Sys2Proof.Machine.execMuAdc e stall s
  | .muSub e stall => Sys2Proof.Machine.execMuSub e stall s
  | .muSbc e stall => Sys2Proof.Machine.execMuSbc e stall s
  | .muAnd e stall => Sys2Proof.Machine.execMuAnd e stall s
  | .muOr e stall => Sys2Proof.Machine.execMuOr e stall s
  | .muXor e stall => Sys2Proof.Machine.execMuXor e stall s
  | .muNot e stall => Sys2Proof.Machine.execMuNot e stall s
  | .muShl e stall => Sys2Proof.Machine.execMuShl e stall s
  | .muShr e stall => Sys2Proof.Machine.execMuShr e stall s
  | .muSra e stall => Sys2Proof.Machine.execMuSra e stall s
  | .muRlc e stall => Sys2Proof.Machine.execMuRlc e stall s
  | .muRrc e stall => Sys2Proof.Machine.execMuRrc e stall s
  | .muCmp e stall => Sys2Proof.Machine.execMuCmp e stall s
  | .muTst e stall => Sys2Proof.Machine.execMuTst e stall s
  | .muInc e stall => Sys2Proof.Machine.execMuInc e stall s
  | .muDec e stall => Sys2Proof.Machine.execMuDec e stall s
  | .muAddi e stall => Sys2Proof.Machine.execMuAddi e stall s
  | .muAdda e stall => Sys2Proof.Machine.execMuAdda e stall s
  | .muShla e stall => Sys2Proof.Machine.execMuShla e stall s
  | .muExf e stall => Sys2Proof.Machine.execMuExf e stall s
  | .muLdmir e stall => Sys2Proof.Machine.execMuLdmir e stall s
  | .muMrd e stall => Sys2Proof.Machine.execMuMrd e stall s
  | .muMwr e stall => Sys2Proof.Machine.execMuMwr e stall s
  | .muMfetch e stall => Sys2Proof.Machine.execMuMfetch e stall s
  | .muMpcw e stall => Sys2Proof.Machine.execMuMpcw e stall s
  | .muMpcr e stall => Sys2Proof.Machine.execMuMpcr e stall s
  | .muLdf e stall => Sys2Proof.Machine.execMuLdf e stall s
  | .muStf e stall => Sys2Proof.Machine.execMuStf e stall s
  | .muSetf e stall => Sys2Proof.Machine.execMuSetf e stall s
  | .muClrf e stall => Sys2Proof.Machine.execMuClrf e stall s
  | .muLdcnt e stall => Sys2Proof.Machine.execMuLdcnt e stall s
  | .muLdcntr e stall => Sys2Proof.Machine.execMuLdcntr e stall s
  | .muWaitc e stall => Sys2Proof.Machine.execMuWaitc e stall s
  | .muSync e stall => Sys2Proof.Machine.execMuSync e stall s
  | .muTrap e stall => Sys2Proof.Machine.execMuTrap e stall s
  | .muExit e stall => Sys2Proof.Machine.execMuExit e stall s
  | .muNano e stall => Sys2Proof.Machine.execMuNano e stall s
  | .microOpUndefined e stall => Sys2Proof.Machine.execMicroOpUndefined e stall s
  | .emuDispatch e => Sys2Proof.Machine.execEmuDispatch e s
  | .teEmuinjMiss e => Sys2Proof.Machine.execTeEmuinjMiss e s
  | .teEmuinjIpc e => Sys2Proof.Machine.execTeEmuinjIpc e s
  | .timeBaseRead => Sys2Proof.Machine.execTimeBaseRead s
  | .tbCompareArm hi => Sys2Proof.Machine.execTbCompareArm hi s
  | .tbCompare => Sys2Proof.Machine.execTbCompare s
  | .tbSyncTimeout => Sys2Proof.Machine.execTbSyncTimeout s
  | .wcTick m => Sys2Proof.Machine.execWcTick m s
  | .linkTargetAction m => Sys2Proof.Machine.execLinkTargetAction m s
  | .wcStart m => Sys2Proof.Machine.execWcStart m s
  | .wcStop m => Sys2Proof.Machine.execWcStop m s
  | .wcReset m => Sys2Proof.Machine.execWcReset m s
  | .wcArm m => Sys2Proof.Machine.execWcArm m s
  | .wcCancel m => Sys2Proof.Machine.execWcCancel m s
  | .tmrGstart mask => Sys2Proof.Machine.execTmrGstart mask s
  | .tmrGstop mask => Sys2Proof.Machine.execTmrGstop mask s
  | .tmrGreset mask => Sys2Proof.Machine.execTmrGreset mask s
  | .armedStart m => Sys2Proof.Machine.execArmedStart m s
  | .periodWrite m value => Sys2Proof.Machine.execPeriodWrite m value s
  | .compareWrite m k value => Sys2Proof.Machine.execCompareWrite m k value s
  | .linkTargetWrite m value => Sys2Proof.Machine.execLinkTargetWrite m value s
  | .wcCountRead m => Sys2Proof.Machine.execWcCountRead m s
  | .captureEdge n rising edge => Sys2Proof.Machine.execCaptureEdge n rising edge s
  | .captureRead n falling => Sys2Proof.Machine.execCaptureRead n falling s
  | .eccWriteback unit => Sys2Proof.Machine.execEccWriteback unit s
  | .remapWrite remap => Sys2Proof.Machine.execRemapWrite remap s
  | .lockSet => Sys2Proof.Machine.execLockSet s
  | .matrixRequest m req => Sys2Proof.Machine.execMatrixRequest m req s
  | .orderedRelease m => Sys2Proof.Machine.execOrderedRelease m s
  | .targetAccept t => Sys2Proof.Machine.execTargetAccept t s
  | .targetAccess t => Sys2Proof.Machine.execTargetAccess t s
  | .response m => Sys2Proof.Machine.execResponse m s
  | .masterReset m => Sys2Proof.Machine.execMasterReset m s
  | .mtxInj value => Sys2Proof.Machine.execMtxInj value s
  | .portEnable p => Sys2Proof.Machine.execPortEnable p s
  | .portRetrain p => Sys2Proof.Machine.execPortRetrain p s
  | .trainingFailure p why => Sys2Proof.Machine.execTrainingFailure p why s
  | .trainingRetry p => Sys2Proof.Machine.execTrainingRetry p s
  | .delayMeasurement p delay => Sys2Proof.Machine.execDelayMeasurement p delay s
  | .linkDown p => Sys2Proof.Machine.execLinkDown p s
  | .frameSend p => Sys2Proof.Machine.execFrameSend p s
  | .linkFrameError p bad => Sys2Proof.Machine.execLinkFrameError p bad s
  | .violationWindow p => Sys2Proof.Machine.execViolationWindow p s
  | .ackReceive p seq cred => Sys2Proof.Machine.execAckReceive p seq cred s
  | .nakReceive p seq cred => Sys2Proof.Machine.execNakReceive p seq cred s
  | .ackTimeout p => Sys2Proof.Machine.execAckTimeout p s
  | .tsyncSend => Sys2Proof.Machine.execTsyncSend s
  | .tsyncReceive p f rx => Sys2Proof.Machine.execTsyncReceive p f rx s
  | .angleReceive p f => Sys2Proof.Machine.execAngleReceive p f s
  | .msgReceive p f => Sys2Proof.Machine.execMsgReceive p f s
  | .msgResponse p f => Sys2Proof.Machine.execMsgResponse p f s
  | .msgResend tag => Sys2Proof.Machine.execMsgResend tag s
  | .rreadRequest p f => Sys2Proof.Machine.execRreadRequest p f s
  | .rwriteRequest p f => Sys2Proof.Machine.execRwriteRequest p f s
  | .ratomRequest p f => Sys2Proof.Machine.execRatomRequest p f s
  | .remoteResponse p f => Sys2Proof.Machine.execRemoteResponse p f s
  | .transactionTimeout tag => Sys2Proof.Machine.execTransactionTimeout tag s
  | .configImageRequest p f => Sys2Proof.Machine.execConfigImageRequest p f s
  | .configResponse p f loaded => Sys2Proof.Machine.execConfigResponse p f loaded s
  | .hlInjDropack p => Sys2Proof.Machine.execHlInjDropack p s
  | .hlInjRxnode p => Sys2Proof.Machine.execHlInjRxnode p s
  | .hlInjRxunk p => Sys2Proof.Machine.execHlInjRxunk p s
  | .hlInjRxseq p => Sys2Proof.Machine.execHlInjRxseq p s
  | .hlInjRxcrc p => Sys2Proof.Machine.execHlInjRxcrc p s
  | .pcieInboundRequest req => Sys2Proof.Machine.execPcieInboundRequest req s
  | .pcieCompletion cpl => Sys2Proof.Machine.execPcieCompletion cpl s
  | .pcieCompletionTimeout => Sys2Proof.Machine.execPcieCompletionTimeout s
  | .msiSend v => Sys2Proof.Machine.execMsiSend v s
  | .pcieLinkReset perst => Sys2Proof.Machine.execPcieLinkReset perst s
  | .ethTransmitFrame m => Sys2Proof.Machine.execEthTransmitFrame m s
  | .ethReceiveFrame m frame => Sys2Proof.Machine.execEthReceiveFrame m frame s
  | .ethLinkDown m => Sys2Proof.Machine.execEthLinkDown m s
  | .mdioAccess m value phy => Sys2Proof.Machine.execMdioAccess m value phy s
  | .lbpWindowAccess p acc => Sys2Proof.Machine.execLbpWindowAccess p acc s
  | .lbpReadyTimeout p => Sys2Proof.Machine.execLbpReadyTimeout p s
  | .lbpSlaveRead p addr width => Sys2Proof.Machine.execLbpSlaveRead p addr width s
  | .lbpSlaveWrite p addr data width => Sys2Proof.Machine.execLbpSlaveWrite p addr data width s
  | .lbpStartStrobe p => Sys2Proof.Machine.execLbpStartStrobe p s
  | .lbpBeat p data ts => Sys2Proof.Machine.execLbpBeat p data ts s
  | .lbpEndStrobe p => Sys2Proof.Machine.execLbpEndStrobe p s
  | .lbpGapTimeout p => Sys2Proof.Machine.execLbpGapTimeout p s
  | .lbpModeChange p value => Sys2Proof.Machine.execLbpModeChange p value s
  | .lineBreak found => Sys2Proof.Machine.execLineBreak found s
  | .uartReceive u ch => Sys2Proof.Machine.execUartReceive u ch s
  | .uartSend u value => Sys2Proof.Machine.execUartSend u value s
  | .uartDataRead u => Sys2Proof.Machine.execUartDataRead u s
  | .spiWord k rx => Sys2Proof.Machine.execSpiWord k rx s
  | .spiDataWrite k value => Sys2Proof.Machine.execSpiDataWrite k value s
  | .spiDataRead k => Sys2Proof.Machine.execSpiDataRead k s
  | .spiSelectEnd k => Sys2Proof.Machine.execSpiSelectEnd k s
  | .qspiCommand cmd op => Sys2Proof.Machine.execQspiCommand cmd op s
  | .i2cCommand k value bus => Sys2Proof.Machine.execI2cCommand k value bus s
  | .i2cDataWrite k value => Sys2Proof.Machine.execI2cDataWrite k value s
  | .i2cDataRead k => Sys2Proof.Machine.execI2cDataRead k s
  | .i2cTargetAddressed k bus => Sys2Proof.Machine.execI2cTargetAddressed k bus s
  | .i2cClockTimeout k => Sys2Proof.Machine.execI2cClockTimeout k s
  | .gpioInputEvent pin level => Sys2Proof.Machine.execGpioInputEvent pin level s
  | .dmaGo c value => Sys2Proof.Machine.execDmaGo c value s
  | .dmaAbort c => Sys2Proof.Machine.execDmaAbort c s
  | .dmaPeripheralRequest c => Sys2Proof.Machine.execDmaPeripheralRequest c s
  | .dmaChain c => Sys2Proof.Machine.execDmaChain c s
  | .powerOn offer => Sys2Proof.Machine.execPowerOn offer s
  | .resetAssert => Sys2Proof.Machine.execResetAssert s
  | .resetRelease offer => Sys2Proof.Machine.execResetRelease offer s
  | .deviceReset offer => Sys2Proof.Machine.execDeviceReset offer s
  | .failedStartClear => Sys2Proof.Machine.execFailedStartClear s
  | .bootMailboxGo offer => Sys2Proof.Machine.execBootMailboxGo offer s
  | .bootSourceTimeout offer => Sys2Proof.Machine.execBootSourceTimeout offer s
  | .startConfirm value => Sys2Proof.Machine.execStartConfirm value s
  | .confirmationWindowExpiry offer => Sys2Proof.Machine.execConfirmationWindowExpiry offer s
  | .monitorInfo => Sys2Proof.Machine.execMonitorInfo s
  | .monitorRead addr => Sys2Proof.Machine.execMonitorRead addr s
  | .monitorWrite addr value => Sys2Proof.Machine.execMonitorWrite addr value s
  | .monitorLoad n bytes crc => Sys2Proof.Machine.execMonitorLoad n bytes crc s
  | .monitorCheck body => Sys2Proof.Machine.execMonitorCheck body s
  | .monitorProgram slotB flash => Sys2Proof.Machine.execMonitorProgram slotB flash s
  | .monitorBoot offer => Sys2Proof.Machine.execMonitorBoot offer s
  | .vitrineBorrow fail => Sys2Proof.Machine.execVitrineBorrow fail s
  | .scrubRead => Sys2Proof.Machine.execScrubRead s
  | .neverBorrowMark w value => Sys2Proof.Machine.execNeverBorrowMark w value s
  | .curInjMfail => Sys2Proof.Machine.execCurInjMfail s
  | .teInjCe e emu => Sys2Proof.Machine.execTeInjCe e emu s
  | .teInjUe e emu => Sys2Proof.Machine.execTeInjUe e emu s
  | .teInjSpar e => Sys2Proof.Machine.execTeInjSpar e s
  | .teInjBpar e bus => Sys2Proof.Machine.execTeInjBpar e bus s
  | .teInjWdg e => Sys2Proof.Machine.execTeInjWdg e s
  | .sysInjCe store => Sys2Proof.Machine.execSysInjCe store s
  | .sysInjUe store => Sys2Proof.Machine.execSysInjUe store s
  | .pwrInjThw on => Sys2Proof.Machine.execPwrInjThw on s
  | .pwrInjWarn on => Sys2Proof.Machine.execPwrInjWarn on s
  | .gpioInjBrk r => Sys2Proof.Machine.execGpioInjBrk r s
  | .watchdogExpiry e => Sys2Proof.Machine.execWatchdogExpiry e s
  | .watchdogKick e => Sys2Proof.Machine.execWatchdogKick e s
  | .errorLogAccept => Sys2Proof.Machine.execErrorLogAccept s
  | .errorLogPop => Sys2Proof.Machine.execErrorLogPop s
  | .perfOverflow e k => Sys2Proof.Machine.execPerfOverflow e k s
  | .perfCountRead e k => Sys2Proof.Machine.execPerfCountRead e k s
  | .perfCountWrite e k value => Sys2Proof.Machine.execPerfCountWrite e k value s
  | .barometerSample vin vcore => Sys2Proof.Machine.execBarometerSample vin vcore s
  | .barometerRecover => Sys2Proof.Machine.execBarometerRecover s
  | .barometerReset cause offer => Sys2Proof.Machine.execBarometerReset cause offer s
  | .thermalSample temp => Sys2Proof.Machine.execThermalSample temp s
  | .referenceSwitch src => Sys2Proof.Machine.execReferenceSwitch src s
  | .recoveredClockLoss => Sys2Proof.Machine.execRecoveredClockLoss s
  | .xinLoss => Sys2Proof.Machine.execXinLoss s
  | .xinLossTimeout offer => Sys2Proof.Machine.execXinLossTimeout offer s
  | .portUp p partner nextSeq => Sys2Proof.Machine.execPortUp p partner nextSeq s
  | .pcieLinkUp width gen2 => Sys2Proof.Machine.execPcieLinkUp width gen2 s
  | .pcieConfigRequest write off value => Sys2Proof.Machine.execPcieConfigRequest write off value s
  | .ethLinkUp m => Sys2Proof.Machine.execEthLinkUp m s
  | .xinReturn => Sys2Proof.Machine.execXinReturn s
  | .timeBaseSlew => Sys2Proof.Machine.execTimeBaseSlew s
  | .virtualMasterAccumulation b => Sys2Proof.Machine.execVirtualMasterAccumulation b s
  | .uartCharacterSent u => Sys2Proof.Machine.execUartCharacterSent u s
  | .ctsChange u asserted => Sys2Proof.Machine.execCtsChange u asserted s
  | .monitorUnknownCommand => Sys2Proof.Machine.execMonitorUnknownCommand s
  | .tapInstruction ir bsr => Sys2Proof.Machine.execTapInstruction ir bsr s
  | .testLogicReset => Sys2Proof.Machine.execTestLogicReset s

end Sys2Proof.Machine
end

