-- ==== Sys2Proof/Safety.lean ====
section
/-! DEFINITION. What every state of a run keeps, in the terms that claims use: the canonical form of its sparse maps. -/

namespace Sys2Proof.Machine

/-- The stores are in canonical form, with the Catalogues of `cat` filled by an image. -/
def Memory.wf (cat : Half) (m : List (Nat × Byte)) : Bool := mapWf (memDefault cat) m

/-- The registers are in canonical form. -/
def Csr.wf (m : List (Nat × Word)) : Bool := mapWf Reg.resetValue m

/-- The canonical states: both sparse maps are in canonical form, and the Error Log's input buffer is within its 16 places (R415). -/
def State.canon (s : State) : Prop := Memory.wf s.cat s.mem = true ∧ Csr.wf s.csr = true ∧ s.logq.length ≤ 16

/-- A canonical state with queue `q` and the present engines `m`: what a command keeps. -/
def State.keeps (q : List Instr) (m : Half) (s : State) : Prop := s.canon ∧ s.pending = q ∧ s.engmask = m

/-! Frames: what a command leaves as it was -/

/-- Every byte of memory reads in `t` as it does in `s`. -/
def State.sameBytes (s t : State) : Prop := ∀ a, t.readByte a = s.readByte a

/-- Every register outside `rs` reads in `t` as it does in `s`. -/
def State.sameRegs (s t : State) (rs : List Nat) : Prop := ∀ a, a ∉ rs → t.reg a = s.reg a

/-- Every engine other than `e` is in `t` what it is in `s`. -/
def State.sameEngines (s t : State) (e : EngId) : Prop := ∀ f, f ≠ e → t.eng f = s.eng f

/-- From `s` to `t` nothing but engine `e` and the registers of `rs` changes. -/
def State.onlyEngine (s t : State) (e : EngId) (rs : List Nat) : Prop :=
  t = { s with csr := t.csr, engines := t.engines } ∧ s.sameEngines t e ∧ s.sameRegs t rs ∧ s.sameBytes t

/-- From `s` to `t` nothing but the registers of `rs` changes. -/
def State.onlyRegs (s t : State) (rs : List Nat) : Prop :=
  t = { s with csr := t.csr } ∧ s.sameRegs t rs ∧ s.sameBytes t

/-- Of engine `e`, only unit `u` changes from `s` to `t`. -/
def State.onlyUnit (s t : State) (e : EngId) (u : Fin 16) : Prop :=
  t.eng e = { s.eng e with units := (t.eng e).units } ∧ ∀ v, v ≠ u → t.unit e v = s.unit e v

/-- The youngest operation of unit `u` is still to complete, in fc `due`, with these result words, the second one where `two`, and
sets `flag` of TE_CUSTAT then; it holds an in-flight entry. -/
def State.owes (t : State) (e : EngId) (u : Fin 16) (due : Nat) (q q1 : Word) (two : Bool) (flag : Word) : Prop :=
  (t.unit e u).ops.getLast? = some ⟨due, false, q, q1, true, two, flag, true⟩

/-- One more in-flight entry is in use, and the high-water mark of TE_IFT follows (R136, R151). -/
def State.oneInFlight (s t : State) (e : EngId) : Prop :=
  t.iftUsed e = s.iftUsed e + 1 ∧ t.rfld (Reg.teIft e) 16 9 = max (s.rfld (Reg.teIft e) 16 9) (s.iftUsed e + 1)

end Sys2Proof.Machine
end

