-- ==== Sys2Proof/Certificates/Slice0/Obligations.lean ====
section
/-! DEFINITION. The statements about the ZT96, one for each rule or group of rules of the spec that says what a command does. -/

open Sys2Proof Sys2Proof.Machine

/-! The compute units (R152–R174) -/

/-- The ALU operations with what each computes from `o` and `t` (R156, R157). -/
def aluOps : List ((EngId → AluId → Word → Instr) × (Word → Word → Word)) :=
  [(.aluAdd, fun o t => o + t),
   (.aluSub, fun o t => o - t),
   (.aluAddc, fun o t => if o.toNat + t.toNat < 2 ^ 32 then 0 else 1),
   (.aluSubb, fun o t => if o.toNat < t.toNat then 1 else 0),
   (.aluAdds, fun o t => BitVec.ofInt 32 (max (-2 ^ 31) (min (o.toInt + t.toInt) (2 ^ 31 - 1)))),
   (.aluSubs, fun o t => BitVec.ofInt 32 (max (-2 ^ 31) (min (o.toInt - t.toInt) (2 ^ 31 - 1)))),
   (.aluAnd, fun o t => o &&& t),
   (.aluOr, fun o t => o ||| t),
   (.aluXor, fun o t => o ^^^ t),
   (.aluAndn, fun o t => o &&& ~~~t),
   (.aluShl, fun o t => BitVec.ofNat 32 (o.toNat * 2 ^ t.toNat)),
   (.aluShr, fun o t => BitVec.ofNat 32 (o.toNat / 2 ^ t.toNat)),
   (.aluSra, fun o t => if t.toNat < 32 then o.sshiftRight t.toNat else if o.msb then 0xFFFF_FFFF else 0),
   (.aluRol, fun o t => o.rotateLeft (t.toNat % 32)),
   (.aluEq, fun o t => if o = t then 1 else 0),
   (.aluNe, fun o t => if o = t then 0 else 1),
   (.aluLts, fun o t => if o.toInt < t.toInt then 1 else 0),
   (.aluLes, fun o t => if o.toInt ≤ t.toInt then 1 else 0),
   (.aluGts, fun o t => if t.toInt < o.toInt then 1 else 0),
   (.aluGes, fun o t => if t.toInt ≤ o.toInt then 1 else 0),
   (.aluLtu, fun o t => if o.toNat < t.toNat then 1 else 0),
   (.aluLeu, fun o t => if o.toNat ≤ t.toNat then 1 else 0),
   (.aluGtu, fun o t => if t.toNat < o.toNat then 1 else 0),
   (.aluGeu, fun o t => if t.toNat ≤ o.toNat then 1 else 0),
   (.aluMins, fun o t => BitVec.ofInt 32 (min o.toInt t.toInt)),
   (.aluMaxs, fun o t => BitVec.ofInt 32 (max o.toInt t.toInt)),
   (.aluMinu, fun o t => BitVec.ofNat 32 (min o.toNat t.toNat)),
   (.aluMaxu, fun o t => BitVec.ofNat 32 (max o.toNat t.toNat)),
   (.aluAbs, fun _ t => BitVec.ofInt 32 (min (2 ^ 31 - 1) (t.toInt.natAbs : Int)))]

/-- A trigger of an ALU that can start gives its result in the same fc: the next read of ALUn.q takes it without waiting, and nothing else
changes (R104, R106, R153, R156, R157). A trigger of a multiplier that can start forms the 64-bit product of the operands read as R158
says, and delivers its low word to MULn.q and its high word to MULn.q1 after 3 fc; nothing else changes (R153, R158). -/
def Obligations.AluAndMulGiveResults : Prop :=
  (
  ∀ op ∈ aluOps, ∀ (e : EngId) (u : AluId) (w : Word) (s : State),
    s.canTrigger e (aluU u) s.now 1 = true → (s.eng e).injSpar = false →
    ∃ t, exec (op.1 e u w) s = .next t ∧
      (t.unit e (aluU u)).stalls false = false ∧
      (t.unit e (aluU u)).value false = op.2 (s.port e (opO u.val)) w ∧
      s.onlyUnit t e (aluU u) ∧ s.onlyEngine t e []) ∧
  (
  ∀ op ∈ ([(.mulMull, fun o t => o.toInt * t.toInt), (.mulMulu, fun o t => (o.toNat : Int) * t.toNat),
      (.mulMulsu, fun o t => o.toInt * t.toNat)] : List ((EngId → PairId → Word → Instr) × (Word → Word → Int))),
    ∀ (e : EngId) (u : PairId) (w : Word) (s : State),
    s.canTrigger e (mulU u) s.now 3 = true → (s.eng e).injSpar = false →
    ∃ t q q1, exec (op.1 e u w) s = .next t ∧
      (q1 ++ q : DWord) = BitVec.ofInt 64 (op.2 (s.port e (opO (4 + u.val))) w) ∧
      t.owes e (mulU u) (s.now + 3) q q1 true 0 ∧ s.oneInFlight t e ∧
      s.onlyUnit t e (mulU u) ∧ s.onlyEngine t e [Reg.teIft e])

/-- The MAC operations with the accumulator each leaves, before it is narrowed to 64 bits, from the accumulator, `o`, `o1` and `t`
(R160, R162, R163). -/
def macOps : List ((EngId → PairId → Word → Instr) × (DWord → Word → Word → Word → Int)) :=
  [(.macMacs, fun a o _ t => a.toInt + o.toInt * t.toInt),
   (.macMacu, fun a o _ t => a.toNat + o.toNat * t.toNat),
   (.macMsbs, fun a o _ t => a.toInt - o.toInt * t.toInt),
   (.macMacss, fun a o _ t => max (-2 ^ 63) (min (a.toInt + o.toInt * t.toInt) (2 ^ 63 - 1))),
   (.macLdmul, fun _ o _ t => o.toInt * t.toInt),
   (.macLerp, fun _ o o1 t => o.toInt * 2 ^ 32 + (o1.toInt - o.toInt) * t.toNat),
   (.macLdacc, fun _ o _ t => o.toNat * 2 ^ 32 + t.toNat),
   (.macRsh, fun a _ _ t => if t.toNat % 64 = 0 then a.toInt else (a.toInt + 2 ^ (t.toNat % 64 - 1)) / 2 ^ (t.toNat % 64)),
   (.macAdda, fun a o _ t => a.toNat + (o.toNat * 2 ^ 32 + t.toNat))]

/-- A trigger of a MAC that can start acts on the accumulator as every earlier operation left it, and delivers the new accumulator to
MACn.q and MACn.q1 after 4 fc; a saturating accumulation that saturates sets its flag of TE_CUSTAT then (R160–R164). -/
def Obligations.MacTriggerUpdatesAccumulator : Prop :=
  ∀ op ∈ macOps, ∀ (e : EngId) (u : PairId) (w : Word) (s : State),
    s.canTrigger e (macU u) s.now 4 = true → (s.eng e).injSpar = false →
    let v := op.2 (s.acc e u) (s.port e (opO (6 + u.val))) (s.port e (opO1 (6 + u.val))) w
    ∃ t q q1 flag, exec (op.1 e u w) s = .next t ∧ (q1 ++ q : DWord) = BitVec.ofInt 64 v ∧
      t.acc e u = BitVec.ofInt 64 v ∧ t.owes e (macU u) (s.now + 4) q q1 true flag ∧
      (flag = if op.1 e u w = .macMacss e u w ∧ v ≠ (s.acc e u).toInt + (s.port e (opO (6 + u.val))).toInt * w.toInt
        then bitW (2 + u.val) else 0) ∧
      s.oneInFlight t e ∧ (∀ k, k ≠ keyAcc u.val 0 → k ≠ keyAcc u.val 1 → t.port e k = s.port e k) ∧
      t.eng e = { s.eng e with units := (t.eng e).units, ports := (t.eng e).ports } ∧
      (∀ v, v ≠ macU u → t.unit e v = s.unit e v) ∧ s.onlyEngine t e [Reg.teIft e]

/-- A trigger of the divider that can start delivers quotient and remainder after 18 fc and refuses a second trigger until then; a zero
divisor and the one overflow give the values and flags of R166 (R153, R165–R167). -/
def Obligations.DivTriggerGivesQuotientAndRemainder : Prop :=
  ∀ op ∈ ([(.divDivs, fun o t =>
        if t = 0 then (0xFFFF_FFFF, o, 1)
        else if o.toInt = -2 ^ 31 ∧ t.toInt = -1 then (0x8000_0000, 0, 2)
        else (BitVec.ofInt 32 (o.toInt.tdiv t.toInt), BitVec.ofInt 32 (o.toInt - o.toInt.tdiv t.toInt * t.toInt), 0)),
      (.divDivu, fun o t =>
        if t = 0 then (0xFFFF_FFFF, o, 1)
        else (BitVec.ofNat 32 (o.toNat / t.toNat), BitVec.ofNat 32 (o.toNat - o.toNat / t.toNat * t.toNat), 0))] :
      List ((EngId → Word → Instr) × (Word → Word → Word × Word × Word))),
    ∀ (e : EngId) (w : Word) (s : State),
    s.canTrigger e 8 s.now 18 = true → (s.eng e).injSpar = false →
    let r := op.2 (s.port e (opO 8)) w
    ∃ t, exec (op.1 e w) s = .next t ∧ t.owes e 8 (s.now + 18) r.1 r.2.1 true r.2.2 ∧
      (∀ n, n < s.now + 18 → (t.unit e 8).accepts n 18 = false) ∧ s.oneInFlight t e ∧
      s.onlyUnit t e 8 ∧ s.onlyEngine t e [Reg.teIft e]

/-- The bit-field operations of 2 fc with what each computes from `o`, the field specification and `t` (R168, R169): the field has
`w` bits from bit `p` on. -/
def fieldOps : List ((EngId → Word → Instr) × (Word → Nat → Nat → Word → Word)) :=
  [(.bitExtu, fun _ p w t => BitVec.ofNat 32 (t.toNat / 2 ^ p % 2 ^ w)),
   (.bitExts, fun _ p w t => (BitVec.ofNat w (t.toNat / 2 ^ p)).signExtend 32),
   (.bitIns, fun o p w t => (o &&& ~~~(BitVec.ofNat 32 ((2 ^ w - 1) * 2 ^ p))) ||| BitVec.ofNat 32 (t.toNat % 2 ^ w * 2 ^ p))]

/-- The byte that a selector nibble of perm names (R170). -/
def permPick (t o1 : Word) (n : Nat) : Byte :=
  if n < 4 then t.extractLsb' (8 * n) 8
  else if n < 8 then o1.extractLsb' (8 * (n - 4)) 8
  else if n = 8 then 0x00
  else if n = 9 then 0xFF
  else if n < 14 then (if t.getLsbD (8 * (n - 10) + 7) then 0xFF else 0x00)
  else 0x00

/-- A bit-unit trigger that can start. A field operation delivers its result to BIT0.q after 2 fc; a WID above 32 acts as 32, and a
field never extends past bit 31. The counts and the byte permutation give theirs in the same fc: clz and ctz count the zeros above the
highest and below the lowest 1, popc counts the 1s, and each byte of perm is the one that its nibble of `o` names
(R153, R168–R170). -/
def Obligations.BitTriggerGivesResult : Prop :=
  (∀ op ∈ fieldOps, ∀ (e : EngId) (w : Word) (s : State),
    s.canTrigger e 9 s.now 2 = true → (s.eng e).injSpar = false →
    let spec := s.port e (opO1 9)
    let pos := spec.toNat % 32
    let wid := min (min (spec.toNat / 2 ^ 8 % 64) 32) (32 - pos)
    ∃ t, exec (op.1 e w) s = .next t ∧ t.owes e 9 (s.now + 2) (op.2 (s.port e (opO 9)) pos wid w) 0 false 0 ∧
      s.oneInFlight t e ∧ s.onlyUnit t e 9 ∧ s.onlyEngine t e [Reg.teIft e]) ∧
  (∀ (e : EngId) (w : Word) (s : State), s.canTrigger e 9 s.now 1 = true → (s.eng e).injSpar = false →
    (∃ t n, exec (.bitClz e w) s = .next t ∧ (t.unit e 9).value false = BitVec.ofNat 32 n ∧ n ≤ 32 ∧
      (∀ i, i < n → w.getLsbD (31 - i) = false) ∧ (n < 32 → w.getLsbD (31 - n) = true) ∧
      (t.unit e 9).stalls false = false ∧ s.onlyUnit t e 9 ∧ s.onlyEngine t e []) ∧
    (∃ t n, exec (.bitCtz e w) s = .next t ∧ (t.unit e 9).value false = BitVec.ofNat 32 n ∧ n ≤ 32 ∧
      (∀ i, i < n → w.getLsbD i = false) ∧ (n < 32 → w.getLsbD n = true) ∧
      (t.unit e 9).stalls false = false ∧ s.onlyUnit t e 9 ∧ s.onlyEngine t e []) ∧
    (∃ t, exec (.bitPopc e w) s = .next t ∧
      (t.unit e 9).value false = BitVec.ofNat 32 (((List.range 32).filter fun i => w.getLsbD i).length) ∧
      (t.unit e 9).stalls false = false ∧ s.onlyUnit t e 9 ∧ s.onlyEngine t e []) ∧
    (∃ t, exec (.bitPerm e w) s = .next t ∧
      (∀ i, i < 4 → ((t.unit e 9).value false).extractLsb' (8 * i) 8 =
        permPick w (s.port e (opO1 9)) ((s.port e (opO 9)).toNat / 2 ^ (4 * i) % 16)) ∧
      (t.unit e 9).stalls false = false ∧ s.onlyUnit t e 9 ∧ s.onlyEngine t e []))

/-! The load-store units (R175–R193) -/

/-- What a plain or far trigger of a load-store unit asks for: the operand as the program address, or `o1` added to it for an indexed
code, and `o` as the data (R175, R182). -/
def lsuAsks (s : State) (e : EngId) (n : PairId) (far : Bool) (kind : ReqKind) (size : Nat) (signed indexed : Bool) (t : Word) : MemOp :=
  { lsu := n, far := far, kind := kind, size := size, signed := signed,
    a := if indexed then s.port e (opO1 (10 + n.val)) + t else t, data := s.port e (opO (10 + n.val)), micro := none }

/-- A trigger of a load-store unit may start: the engine runs code, no synchronous exception waits, no injection waits at its
sockets, and no microword stands before its end that can still meet a stack fault. -/
def lsuFree (s : State) (e : EngId) : Prop :=
  s.runs e = true ∧ (s.eng e).sync = none ∧ (s.eng e).injSpar = false ∧ (s.eng e).undo = none

/-- The stores are free of errors and injections, no Vitrine is borrowed, and no other access of this fc has used the ports of the
engine's Tile Store. -/
def storesQuiet (s : State) (e : EngId) : Prop :=
  s.ecc.bad = [] ∧ s.ecc.injUe = [] ∧ s.ecc.injCe = [] ∧ s.cur.borrow = none ∧ (s.eng e).uses.all (fun u => u.fc != s.now) = true

/-- The local loads: size in bytes, sign extension, indexed (R182). -/
def localLoads : List ((EngId → PairId → Word → Instr) × Nat × Bool × Bool) :=
  [(.lsuLdbu, 1, false, false), (.lsuLdbs, 1, true, false), (.lsuLdhu, 2, false, false), (.lsuLdhs, 2, true, false),
   (.lsuLdw, 4, false, false), (.lsuLdwx, 4, false, true)]

/-- The local stores: size in bytes, indexed (R182). -/
def localStores : List ((EngId → PairId → Word → Instr) × Nat × Bool) :=
  [(.lsuStb, 1, false), (.lsuSth, 2, false), (.lsuStw, 4, false), (.lsuStwx, 4, true)]

/-- A local store that passes its checks and finds a place in its LSU's buffer of four enters it with its address and its low bytes, as
the youngest in issue order; no byte of memory changes yet (R182, R186). STORE_DRAIN carries out the oldest buffered local store that
issued in an earlier fc, when the near port is free and no fetch for an empty queue waits: exactly its bytes change, to what it stored, it
leaves its buffer, and the near port is taken (R131, R148, R186). -/
def Obligations.LocalStoresAreBufferedAndDrain : Prop :=
  (
  ∀ op ∈ localStores, ∀ (e : EngId) (n : PairId) (w : Word) (s : State),
    let o := lsuAsks s e n false .write op.2.1 false op.2.2 w
    let x := s.access e o
    lsuFree s e → x.cause = 0 → (s.eng e).sbuf[n].length < 4 → (s.eng e).lwait = [] → s.wildSeg e o.a = false →
    ∃ t, exec (op.1 e n w) s = .next t ∧
      (t.eng e).sbuf[n] = (s.eng e).sbuf[n] ++
        [⟨(s.eng e).seq, false, x.sys, bytesOf o.size (s.port e (opO (10 + n.val))).toNat, s.now, s.ofFrame e⟩] ∧
      (∀ m, m ≠ n → (t.eng e).sbuf[m] = (s.eng e).sbuf[m]) ∧ (t.eng e).seq = (s.eng e).seq + 1 ∧
      t.eng e = { s.eng e with sbuf := (t.eng e).sbuf, seq := (t.eng e).seq } ∧
      t = { s with engines := t.engines, free := t.free } ∧ s.sameEngines t e ∧ s.sameBytes t) ∧
  (
  ∀ (e : EngId) (s : State) (n : PairId) (b : StoreEnt), s.live e = true → storesQuiet s e → s.nearFree e = true →
    s.fetchFirst e = false →
    (s.eng e).oldestLocal = some (n, b) → b.since < s.now → 0 < b.bytes.length → b.bytes.length ≤ 4 →
    (∀ i, i < b.bytes.length → ownWindow e (b.addr + i) = true) →
    ∃ t, exec (.storeDrain e) s = .next t ∧
      (∀ a v, b.bytes[a]? = some v → t.readByte (b.addr + a) = v) ∧
      (∀ c, (∀ i, i < b.bytes.length → memKey c ≠ memKey (b.addr + i)) → t.readByte c = s.readByte c) ∧
      (t.eng e).sbuf[n] = (s.eng e).sbuf[n].filter (·.seq != b.seq) ∧ (∀ m, m ≠ n → (t.eng e).sbuf[m] = (s.eng e).sbuf[m]) ∧
      t.nearFree e = false ∧ t = { s with mem := t.mem, engines := t.engines, ecc := t.ecc } ∧ (∀ f k, t.port f k = s.port f k))

/-- The local atomics with what each writes back from the old word and `o` (R190). -/
def localAtomics : List ((EngId → PairId → Word → Instr) × ReqKind × (Word → Word → Word)) :=
  [(.lsuAadd, .atomAdd, fun old o => old + o), (.lsuAswp, .atomSwap, fun _ o => o)]

/-- A local load that passes its checks and finds the near port free owes LSUn.q the value of its bytes, zero- or sign-extended. Where it
overlaps no buffered store it reads them from the Tile Store and takes 3 fc, or 4 where it crosses an 8-byte boundary; where they all
stand in the youngest local store that it overlaps it takes them from that store. It changes no byte of memory and no register (R107,
R135, R175, R182, R184, R187). A local atomic that passes its checks, finds the near port free and overlaps no buffered store writes the
word in one step and owes LSUn.q the old word after 3 fc; no byte outside the word changes (R135, R190). -/
def Obligations.LocalLoadsAndAtomics : Prop :=
  (
  (∀ op ∈ localLoads, ∀ (e : EngId) (n : PairId) (w : Word) (s : State),
    let o := lsuAsks s e n false .read op.2.1 op.2.2.1 op.2.2.2 w
    let x := s.access e o
    lsuFree s e → storesQuiet s e → x.cause = 0 → s.nearFree e = true → (s.eng e).lwait = [] →
    s.wildSeg e o.a = false → (s.eng e).overlap (keysOf x.sys o.size) = [] →
    ∃ t, exec (op.1 e n w) s = .next t ∧
      (t.eng e).lq[n] = (s.eng e).lq[n] ++ [⟨s.now + (if x.split then 4 else 3),
        (if o.signed then (BitVec.ofNat (8 * o.size) (ofBytes (s.readBytes x.sys o.size))).signExtend 32
         else (BitVec.ofNat (8 * o.size) (ofBytes (s.readBytes x.sys o.size))).setWidth 32),
        false, BitVec.ofNat 32 x.sys, if x.split then 2 ^ 11 else 0, false⟩] ∧
      (∀ m, m ≠ n → (t.eng e).lq[m] = (s.eng e).lq[m]) ∧ t.nearFree e = false ∧
      t.eng e = { s.eng e with lq := (t.eng e).lq, nearAt := (t.eng e).nearAt, uses := (t.eng e).uses } ∧
      t = { s with engines := t.engines, free := t.free } ∧ s.sameEngines t e ∧ s.sameBytes t) ∧
  (∀ op ∈ localLoads, ∀ (e : EngId) (n : PairId) (w : Word) (s : State) (b : StoreEnt),
    let o := lsuAsks s e n false .read op.2.1 op.2.2.1 op.2.2.2 w
    let x := s.access e o
    lsuFree s e → s.cur.borrow = none → x.cause = 0 → s.nearFree e = true → (s.eng e).lwait = [] → s.wildSeg e o.a = false →
    youngest ((s.eng e).overlap (keysOf x.sys o.size)) = some b → b.far = false → b.addr ≤ x.sys →
    x.sys + o.size ≤ b.addr + b.bytes.length → (∀ i, i < b.bytes.length → memKey (b.addr + i) = memKey b.addr + i) →
    b.bytes.length ≤ 4 →
    ∃ t, exec (op.1 e n w) s = .next t ∧
      (t.eng e).lq[n] = (s.eng e).lq[n] ++ [⟨s.now + 3,
        (let v := ofBytes ((b.bytes.drop (x.sys - b.addr)).take o.size)
         if o.signed then (BitVec.ofNat (8 * o.size) v).signExtend 32 else (BitVec.ofNat (8 * o.size) v).setWidth 32),
        false, BitVec.ofNat 32 x.sys, 0, false⟩] ∧
      t.nearFree e = false ∧ t.eng e = { s.eng e with lq := (t.eng e).lq, nearAt := (t.eng e).nearAt } ∧
      t = { s with engines := t.engines, free := t.free } ∧ s.sameEngines t e ∧ s.sameBytes t)) ∧
  (
  ∀ op ∈ localAtomics, ∀ (e : EngId) (n : PairId) (w : Word) (s : State),
    let o := lsuAsks s e n false op.2.1 4 false false w
    let x := s.access e o
    lsuFree s e → storesQuiet s e → x.cause = 0 → s.nearFree e = true → (s.eng e).lwait = [] → s.wildSeg e o.a = false →
    (s.eng e).overlap (keysOf x.sys 4) = [] →
    ∃ t, exec (op.1 e n w) s = .next t ∧
      (t.eng e).lq[n] = (s.eng e).lq[n] ++ [⟨s.now + 3, s.memWord x.sys, false, BitVec.ofNat 32 x.sys, 0, true⟩] ∧
      t.memWord x.sys = op.2.2 (s.memWord x.sys) (s.port e (opO (10 + n.val))) ∧
      (∀ c, (∀ i, i < 4 → memKey c ≠ memKey (x.sys + i)) → t.readByte c = s.readByte c) ∧
      t = { s with mem := t.mem, engines := t.engines, ecc := t.ecc, free := t.free } ∧ (∀ f k, t.port f k = s.port f k))

/-- The far operations: kind, size in bytes, sign extension, indexed (R182, R190). -/
def farOps : List ((EngId → PairId → Word → Instr) × ReqKind × Nat × Bool × Bool) :=
  [(.lsuLdfbu, .read, 1, false, false), (.lsuLdfbs, .read, 1, true, false), (.lsuLdfhu, .read, 2, false, false),
   (.lsuLdfhs, .read, 2, true, false), (.lsuLdfw, .read, 4, false, false), (.lsuLdfwx, .read, 4, false, true),
   (.lsuStfb, .write, 1, false, false), (.lsuStfh, .write, 2, false, false), (.lsuStfw, .write, 4, false, false),
   (.lsuStfwx, .write, 4, false, true), (.lsuFaadd, .atomAdd, 4, false, false), (.lsuFaswp, .atomSwap, 4, false, false)]

/-- A far operation that passes its checks and need not wait becomes one matrix request of its engine, or two where it crosses an
8-byte boundary, with its address, length, data and order. The far port issues the first in this fc, unless an earlier request of the
engine waits there, and the second at the earliest in the next. The operation takes one in-flight entry and is owed an answer, a far store
besides a place in its buffer. No byte of memory changes yet (R136, R184, R186, R189, R190, R304). -/
def Obligations.FarOperationBecomesRequests : Prop :=
  ∀ op ∈ farOps, ∀ (e : EngId) (n : PairId) (w : Word) (s : State),
    let o := lsuAsks s e n true op.2.1 op.2.2.1 op.2.2.2.1 op.2.2.2.2 w
    let x := s.access e o
    let data := if o.kind = .read then [] else bytesOf o.size o.data.toNat
    let parts := if x.split then [(0, x.first), (x.first, o.size - x.first)] else [(0, o.size)]
    let req (p : Nat × Nat) : ReqSpec :=
      { addr := BitVec.ofNat 32 (x.sys + p.1), kind := o.kind, len := p.2, data := (data.drop p.1).take p.2,
        ordered := s.farOrdered e o.a, node := s.farNode e o.a }
    let slots : List FarSlot := parts.zipIdx.map fun p => ⟨(s.eng e).seq, req p.1, s.now + p.2, none⟩
    let op' (halves : List FarHalf) : FarOp :=
      ⟨(s.eng e).seq, n, o.kind, o.size, o.signed, BitVec.ofNat 32 x.sys, s.farNode e o.a, halves, parts.length, s.now, none,
        s.ofFrame e, none⟩
    lsuFree s e → x.cause = 0 → (s.eng e).overlap (keysOf x.sys o.size) = [] → (s.eng e).lwait = [] → s.iftUsed e < 256 →
    s.wildSeg e o.a = false →
    (o.kind = .write → (s.eng e).sbuf[n].length < 4) → (o.kind ≠ .write → (s.eng e).farOwed n < 96) →
    ∃ t, exec (op.1 e n w) s = .next t ∧
      ((s.eng e).farq = [] →
        (∃ r, t.mtx.reqs = s.mtx.reqs ++ [r] ∧ t.mtx.next = s.mtx.next + 1 ∧ r.id = s.mtx.next ∧
          (r.m, (⟨r.addr, r.kind, r.len, r.data, r.ordered, r.node⟩ : ReqSpec)) = (e.val, req (0, x.first))) ∧
        (t.eng e).farq = slots.drop 1 ∧
        (t.eng e).far = (s.eng e).far.map (·.join (s.eng e).seq s.mtx.next (BitVec.ofNat 32 x.sys)) ++
          [op' [⟨s.mtx.next, BitVec.ofNat 32 x.sys, none, []⟩]]) ∧
      (∀ f fs, (s.eng e).farq = f :: fs → s.now < f.at' →
        t.mtx = s.mtx ∧ (t.eng e).farq = (s.eng e).farq ++ slots ∧ (t.eng e).far = (s.eng e).far ++ [op' []]) ∧
      (t.eng e).sbuf[n] = (s.eng e).sbuf[n] ++
        (if o.kind = .write then [⟨(s.eng e).seq, true, x.sys, data, s.now, s.ofFrame e⟩] else []) ∧
      (∀ m, m ≠ n → (t.eng e).sbuf[m] = (s.eng e).sbuf[m]) ∧
      (t.eng e).seq = (s.eng e).seq + 1 ∧ s.oneInFlight t e ∧ s.sameEngines t e ∧ s.sameRegs t [Reg.teIft e] ∧
      t.eng e = { s.eng e with sbuf := (t.eng e).sbuf, seq := (t.eng e).seq, far := (t.eng e).far, farq := (t.eng e).farq,
                               perf := (t.eng e).perf, wrapped := (t.eng e).wrapped } ∧
      t = { s with csr := t.csr, engines := t.engines, mtx := t.mtx, free := t.free } ∧ s.sameBytes t

/-- COMPUTE_RESULT_COMPLETE, once the latency of the oldest running operation of a unit has run: its result words become what reads of the
result ports take, its in-flight entry is free, and its flags of TE_CUSTAT are set and noted as set in this fc, so that a write of 1 in
the same fc does not clear them (R106, R136, R174). Results of the load-store units arrive in order: LOCAL_LOAD_RESULT puts the value of
the oldest local load into LSUn.q once its delay has run, FAR_LOAD_RESULT puts that of the oldest far load or atomic behind what waits in
LSUn.fq once every half has been answered OKAY, and FAR_STORE_COMPLETION frees the place of a far store; the last two free an in-flight
entry (R107, R108, R135, R136, R186, R189). -/
def Obligations.UnitResultsArrive : Prop :=
  (
  ∀ (e : EngId) (u : UnitId) (v : Fin 16) (s : State) (r : Res), v.val = u.val →
    (s.eng e).clocked = true → (s.unit e v).running = some r → r.due ≤ s.now → r.ift = true → 0 < s.iftUsed e →
    ∃ t, exec (.computeResultComplete e u) s = .next t ∧
      (r.uq = true → (t.unit e v).stalls false = false ∧ (t.unit e v).value false = r.q) ∧
      (r.uq1 = true → (t.unit e v).stalls true = false ∧ (t.unit e v).value true = r.q1) ∧
      t.iftUsed e + 1 = s.iftUsed e ∧ t.reg (Reg.teCustat e) = s.reg (Reg.teCustat e) ||| r.flag ∧
      (∃ m, (t.eng e).custAt = some (s.now, m) ∧ r.flag &&& ~~~m = 0) ∧
      t.eng e = { s.eng e with units := (t.eng e).units, custAt := (t.eng e).custAt } ∧
      (∀ x, x ≠ v → t.unit e x = s.unit e x) ∧ s.onlyEngine t e [Reg.teIft e, Reg.teCustat e]) ∧
  (
  (∀ (e : EngId) (n : PairId) (s : State) (p : PendLoad) (ps : List PendLoad), s.live e = true → (s.eng e).lq[n] = p :: ps →
    p.due ≤ s.now → p.bad = false →
    ∃ t, exec (.localLoadResult e n) s = .next t ∧ t.port e (keyLq n.val) = p.val ∧ (t.eng e).lq[n] = ps ∧
      (∀ m, m ≠ n → (t.eng e).lq[m] = (s.eng e).lq[m]) ∧ (∀ k, k ≠ keyLq n.val → t.port e k = s.port e k) ∧
      t.eng e = { s.eng e with lq := (t.eng e).lq, ports := (t.eng e).ports } ∧ s.onlyEngine t e []) ∧
  (∀ (e : EngId) (n : PairId) (s : State) (f : FarOp), s.live e = true →
    (s.eng e).far.find? (fun f => f.lsu == n && f.kind != .write && f.micro.isNone) = some f →
    f.halves.length = f.parts → (∀ h ∈ f.halves, h.resp = some .okay) → f.size ∈ [1, 2, 4] → f.wild = none →
    0 < s.iftUsed e → f.bytes.length = f.size →
    ∃ t, exec (.farLoadResult e n) s = .next t ∧
      (t.eng e).fq[n] = (s.eng e).fq[n] ++
        [if f.signed then (BitVec.ofNat (8 * f.size) (ofBytes f.bytes)).signExtend 32
         else (BitVec.ofNat (8 * f.size) (ofBytes f.bytes)).setWidth 32] ∧
      (t.eng e).far = (s.eng e).far.filter (·.seq != f.seq) ∧ t.iftUsed e + 1 = s.iftUsed e ∧
      (∀ m, m ≠ n → (t.eng e).fq[m] = (s.eng e).fq[m]) ∧
      t.eng e = { s.eng e with far := (t.eng e).far, fq := (t.eng e).fq } ∧ s.onlyEngine t e [Reg.teIft e]) ∧
  (∀ (e : EngId) (n : PairId) (s : State) (f : FarOp), s.live e = true →
    (s.eng e).far.find? (fun f => f.lsu == n && f.kind == .write && f.ready) = some f →
    (∀ h ∈ f.halves, h.resp = some .okay) → 0 < s.iftUsed e →
    ∃ t, exec (.farStoreCompletion e n) s = .next t ∧
      (t.eng e).sbuf[n] = (s.eng e).sbuf[n].filter (·.seq != f.seq) ∧
      (t.eng e).far = (s.eng e).far.filter (·.seq != f.seq) ∧ t.iftUsed e + 1 = s.iftUsed e ∧
      (∀ m, m ≠ n → (t.eng e).sbuf[m] = (s.eng e).sbuf[m]) ∧
      t.eng e = { s.eng e with far := (t.eng e).far, sbuf := (t.eng e).sbuf } ∧ s.onlyEngine t e [Reg.teIft e]))

/-- Every trigger of a load-store unit, local and far: whether it is far, its kind, its size in bytes, sign extension, indexed (R182,
R190). -/
def lsuOps : List ((EngId → PairId → Word → Instr) × Bool × ReqKind × Nat × Bool × Bool) :=
  localLoads.map (fun x => (x.1, false, .read, x.2.1, x.2.2.1, x.2.2.2)) ++
  localStores.map (fun x => (x.1, false, .write, x.2.1, false, x.2.2)) ++
  localAtomics.map (fun x => (x.1, false, x.2.1, 4, false, false)) ++
  farOps.map (fun x => (x.1, true, x.2.1, x.2.2.1, x.2.2.2.1, x.2.2.2.2))

/-- In compact addressing the system address of an access is BANK above the low half of the program address; only the Hatorlink window is
barred (R176). In segmented addressing with CHK set, an access gets the cause of the first check that it fails: the descriptor is not
valid, the access runs past LIMIT, a permission it needs is missing; else none (R177, R178, R191). A trigger of a load-store unit, a local
or a far load, store or atomic, that fails a check does none of its effect: the fault address is recorded, and with it the cause, the
descriptor, whether the access is split, whether it writes and which unit it is; and exception 3 or 4 becomes the synchronous exception of
its group (R191, R200, R203). -/
def Obligations.AddressesTranslateOrFault : Prop :=
  (
  ∀ (s : State) (e : EngId) (o : MemOp), s.rbit (Reg.teCfg e) 8 = false →
    (s.access e o).sys = (s.port e sBANK).toNat % 2 ^ 16 * 2 ^ 16 + o.a.toNat % 2 ^ 16 ∧
    (s.access e o).seg = 0 ∧
    (∀ n need, 0 < n → ((s.xlatNow e o.a 0 n need).2 = 5 ↔
      (s.access e o).sys / 2 ^ 28 = 6))) ∧
  (
  ∀ (s : State) (e : EngId) (a : Word) (ofs z need : Nat), need < 8 → s.rbit (Reg.teCfg e) 8 = true →
    s.rbit (Reg.teMemctl e) 0 = true →
    let d := a.toNat / 2 ^ 29
    let w3 := s.port e (keySeg d 3)
    let limit := (s.port e (keySeg d 1)).toNat % 2 ^ 29
    let r := s.xlatNow e a ofs z need
    (w3.getLsbD 0 = false → r.2 = 1) ∧
    (w3.getLsbD 0 = true → limit < a.toNat % 2 ^ 29 + ofs + z - 1 → r.2 = 2) ∧
    (w3.getLsbD 0 = true → a.toNat % 2 ^ 29 + ofs + z - 1 ≤ limit →
      (∃ i, i < 3 ∧ need.testBit i = true ∧ w3.getLsbD (1 + i) = false) → r.2 = 3) ∧
    (w3.getLsbD 0 = true → a.toNat % 2 ^ 29 + ofs + z - 1 ≤ limit →
      (∀ i, i < 3 → need.testBit i = true → w3.getLsbD (1 + i) = true) → r.2 = 0) ∧
    ((s.port e (keySeg d 0)).toNat + limit < 2 ^ 32 →
      r.1 = ((s.port e (keySeg d 0)).toNat + a.toNat % 2 ^ 29 + ofs) % 2 ^ 32)) ∧
  (
  ∀ op ∈ lsuOps, ∀ (e : EngId) (n : PairId) (w : Word) (s : State),
    let o := lsuAsks s e n op.2.1 op.2.2.1 op.2.2.2.1 op.2.2.2.2.1 op.2.2.2.2.2 w
    let x := s.access e o
    let c := x.cause
    s.runs e = true → (s.eng e).sync = none → c ≠ 0 →
    ∃ t, exec (op.1 e n w) s = .next t ∧ t.reg (Reg.teMfaddr e) = o.a ∧
      (let v := (t.reg (Reg.teMfinfo e)).toNat
       v % 16 = c ∧ v / 2 ^ 8 % 8 = x.seg ∧ (v / 2 ^ 11 % 2 = 1 ↔ x.split = true) ∧ (v / 2 ^ 12 % 2 = 1 ↔ o.kind ≠ .read) ∧
       (v / 2 ^ 13 % 2 = 1 ↔ n = 1)) ∧
      (t.eng e).sync = some ⟨if c ≤ 5 then 3 else 4, 0, 0⟩ ∧
      t.eng e = { s.eng e with sync := (t.eng e).sync } ∧ s.onlyEngine t e [Reg.teMfaddr e, Reg.teMfinfo e])

/-! The block move unit (R194–R198) -/

/-- The BMU operations that run on their own: code, whether each reads from BSRC and whether it uses BDST (R194). -/
def bmuOps : List ((EngId → Word → Instr) × Nat × Bool × Bool) :=
  [(.bmuCpy, 0, true, true), (.bmuCpyf, 1, true, true), (.bmuFill, 2, false, true), (.bmuScan, 3, true, false),
   (.bmuScann, 4, true, false), (.bmuCmp, 5, true, true)]

/-- The near port of the engine is free for an element in this fc: no fetch for an empty queue and no local store goes first (R131). -/
def bmuPortFree (s : State) (e : EngId) : Prop :=
  storesQuiet s e ∧ s.nearFree e = true ∧ s.fetchFirst e = false ∧ s.drainWaits e = false

/-- An operation runs, is undecided and may make an access in this fc. -/
def bmuRuns (s : State) (e : EngId) (o : BmuOp) : Prop :=
  s.live e = true ∧ (s.eng e).bmu = some o ∧ o.wild = false ∧ o.stop = false ∧ o.fin = none ∧ o.next ≤ s.now ∧
  (s.eng e).undo = none ∧ o.size ∈ [1, 2, 4]

/-- Two elements agree in the bits of the compare mask, within the element size (R194). -/
def bmuAgree (o : BmuOp) (a b : Nat) : Prop := (a &&& o.mask.toNat) % 2 ^ (8 * o.size) = (b &&& o.mask.toNat) % 2 ^ (8 * o.size)

/-- An element in hand that has bytes `bs` from its source and no access under way. -/
def bmuHolds (o : BmuOp) (el : BmuElem) (bs : List Byte) : Prop :=
  o.elems = [el] ∧ el.reqs = [] ∧ el.rest = [] ∧ el.bad = none ∧ el.res = none ∧ el.data = some bs ∧ bs.length = el.n ∧
  0 < el.n ∧ el.n ≤ 32

/-- A BMU trigger that passes its alignment check and finds the unit free and the store buffers empty starts its operation with the
element size of its operand and BANK, the descriptors and the compare mask as they stand, and its first access in the next fc at the
earliest; cpy runs descending exactly where the bytes of its two ranges meet and its destination is above its source. BMU.stop ends a
running operation that has no access outstanding, with status 2, and a decided operation delivers its status to BMU.q once its fc has come
(R194–R198). In the own Tile Store one access of fill stores the low bytes of BPAT at BDST, which then stands one element further; BCNT
falls by one, and with the last element the operation is decided with status 0, to be read from the next fc on. The first access of cpy,
cpyf or cmp there reads an element, or a block of cpyf, at BSRC, or at the top of the range where the copy runs descending; the bytes are
in hand and no register changes yet. The second access of cpy or cpyf there stores the bytes in hand at the element's destination, and
nowhere else; BCNT falls by its elements, BSRC and BDST stand behind it unless the copy runs descending, and the last element decides as
for fill. One access of scan or scann there reads at BSRC and stops with FOUND where the element agrees with BPAT under the mask, for
scann where it does not; the second one of cmp reads at the destination and stops with FOUND where the two differ. An operation that is
not stopped steps over the element, and ends with status 0 after the last; no byte of memory changes (R194, R195, R197). An element access
outside the own Tile Store becomes a matrix request of the engine, with the address, length and data of the element and the order and node
of its descriptor; an element that crosses an 8-byte boundary, but no block of cpyf, becomes two, the second to be issued in the next fc.
It waits for the answers; no byte of memory and no register changes yet (R184, R196, R197). -/
def Obligations.BmuStreamsElements : Prop :=
  (
  (∀ op ∈ bmuOps, ∀ (e : EngId) (w : Word) (s : State),
    let z := if w.toNat % 4 = 0 then 1 else if w.toNat % 4 = 1 then 2 else 4
    let a := (s.port e sBSRC).toNat
    let b := (s.port e sBDST).toNat
    lsuFree s e → (op.2.2.1 = true → a % z = 0) → (op.2.2.2 = true → b % z = 0) → (s.eng e).bmu = none →
    (s.eng e).stores = [] → s.iftUsed e < 256 →
    ∃ t o, exec (op.1 e w) s = .next t ∧ (t.eng e).bmu = some o ∧ o.code = op.2.1 ∧ o.size = z ∧ o.stop = false ∧
      o.elems = [] ∧ o.next = s.now + 1 ∧ o.bank = s.port e sBANK ∧ o.mask = s.port e (opO 12) ∧
      o.fin = (if s.port e sBCNT = 0 then some 0 else none) ∧
      (∀ d k, d < 8 → k < 4 → o.segs[4 * d + k]? = some (s.port e (keySeg d k))) ∧
      (o.desc = true ↔ op.2.1 = 0 ∧ a < b ∧ s.bmuMeets e o ((s.port e sBCNT).toNat * z) = true) ∧
      t.owes e 12 (s.now + 2) 0 0 false 0 ∧ s.oneInFlight t e ∧ (∀ v, v ≠ 12 → t.unit e v = s.unit e v) ∧
      t.eng e = { s.eng e with units := (t.eng e).units, bmu := (t.eng e).bmu } ∧ s.onlyEngine t e [Reg.teIft e]) ∧
  (∀ (e : EngId) (w : Word) (s : State) (o : BmuOp) (r : Res),
    lsuFree s e → (s.eng e).bmu = some o → o.code ≠ 6 → o.stop = false → o.fin = none → o.elems = [] → o.wild = false →
    s.canTrigger e 12 s.now 2 = true → (s.unit e 12).ops = [r] → r.done = false →
    ∃ t, exec (.bmuStop e w) s = .next t ∧ (t.eng e).bmu = some { o with stop := true, fin := some 2, due := s.now + 1 } ∧
      t.owes e 12 (s.now + 2) 0 0 false 0 ∧ s.oneInFlight t e ∧ (∀ v, v ≠ 12 → t.unit e v = s.unit e v) ∧
      t.eng e = { s.eng e with units := (t.eng e).units, bmu := (t.eng e).bmu } ∧ s.onlyEngine t e [Reg.teIft e]) ∧
  (∀ (e : EngId) (s : State) (o : BmuOp) (r : Res) (w : Word),
    (s.eng e).bmu = some o → o.fin = some w → o.due ≤ s.now → o.outstanding = 0 → (s.unit e 12).ops = [r] → r.done = false →
    r.ift = true → r.uq = true → 0 < s.iftUsed e →
    let t := s.bmuFinish e
    (t.eng e).bmu = none ∧ (t.unit e 12).stalls false = false ∧ (t.unit e 12).value false = w ∧ t.iftUsed e + 1 = s.iftUsed e ∧
    (∀ v, v ≠ 12 → t.unit e v = s.unit e v) ∧ t.eng e = { s.eng e with units := (t.eng e).units, bmu := none } ∧
    s.onlyEngine t e [Reg.teIft e])) ∧
  (
  ∀ (e : EngId) (s : State) (o : BmuOp),
    let x := s.bmuXlat e o (s.port e sBDST) o.size permW
    s.live e = true → (s.eng e).bmu = some o → o.code = 2 → o.desc = false → o.wild = false → o.stop = false → o.fin = none →
    o.elems = [] → o.next ≤ s.now → (s.eng e).undo = none → s.bmuWraps e o (s.port e sBDST) = false → o.size ∈ [1, 2, 4] →
    s.port e sBCNT ≠ 0 → x.2 = 0 → (∀ i, i < o.size → ownWindow e (x.1 + i) = true) → bmuPortFree s e →
    ∃ t, exec (.bmuElementAccess e) s = .next t ∧
      (∀ i, i < o.size → t.readByte (x.1 + i) = (s.port e sBPAT).extractLsb' (8 * i) 8) ∧
      (∀ c, (∀ i, i < o.size → memKey c ≠ memKey (x.1 + i)) → t.readByte c = s.readByte c) ∧
      t.port e sBDST = s.port e sBDST + BitVec.ofNat 32 o.size ∧ t.port e sBCNT = s.port e sBCNT - 1 ∧
      (∀ k, k ≠ sBDST → k ≠ sBCNT → t.port e k = s.port e k) ∧
      (t.eng e).bmu = some (if s.port e sBCNT = 1 then { o with next := s.now + 1, fin := some 0, due := s.now + 1 }
        else { o with next := s.now + 1 }) ∧ (∀ f k, f ≠ e → t.port f k = s.port f k) ∧
      t = { s with mem := t.mem, engines := t.engines, ecc := t.ecc }) ∧
  (
  ∀ (e : EngId) (s : State) (o : BmuOp),
    let left := (s.port e sBCNT).toNat * o.size
    let off := BitVec.ofNat 32 (if o.desc then left - o.size else 0)
    let src := s.port e sBSRC + off
    let dst := s.port e sBDST + off
    let n := s.bmuSpan e o src dst left
    let x := s.bmuXlat e o src n permR
    bmuRuns s e o → o.code ∈ [0, 1, 5] → o.elems = [] → s.bmuWraps e o src = false → s.port e sBCNT ≠ 0 → x.2 = 0 →
    ownWindow e x.1 = true → bmuPortFree s e →
    ∃ t, exec (.bmuElementAccess e) s = .next t ∧ (o.code ≠ 1 → n = o.size) ∧
      (t.eng e).bmu = some { o with elems := [⟨n, src, dst, some (s.readBytes x.1 n), none, [], [], none⟩], next := s.now + 1 } ∧
      t.nearFree e = false ∧ t.eng e = { s.eng e with bmu := (t.eng e).bmu, nearAt := (t.eng e).nearAt, uses := (t.eng e).uses } ∧
      s.onlyEngine t e []) ∧
  (
  ∀ (e : EngId) (s : State) (o : BmuOp) (el : BmuElem) (bs : List Byte),
    let x := s.bmuXlat e o el.dst el.n permW
    let step := BitVec.ofNat 32 (if o.desc then 0 else el.n)
    let count := s.port e sBCNT - BitVec.ofNat 32 (el.n / o.size)
    bmuRuns s e o → o.code ∈ [0, 1] → bmuHolds o el bs → s.bmuWraps e o el.dst = false → x.2 = 0 →
    (∀ i, i < el.n → ownWindow e (x.1 + i) = true) → bmuPortFree s e →
    ∃ t, exec (.bmuElementAccess e) s = .next t ∧ (∀ i v, bs[i]? = some v → t.readByte (x.1 + i) = v) ∧
      (∀ c, (∀ i, i < el.n → memKey c ≠ memKey (x.1 + i)) → t.readByte c = s.readByte c) ∧
      t.port e sBSRC = s.port e sBSRC + step ∧ t.port e sBDST = s.port e sBDST + step ∧ t.port e sBCNT = count ∧
      (∀ k, k ≠ sBSRC → k ≠ sBDST → k ≠ sBCNT → t.port e k = s.port e k) ∧
      (t.eng e).bmu = some (if count = 0 then { o with elems := [], next := s.now + 1, fin := some 0, due := s.now + 1 }
        else { o with elems := [], next := s.now + 1 }) ∧ (∀ f k, f ≠ e → t.port f k = s.port f k) ∧
      t = { s with mem := t.mem, engines := t.engines, ecc := t.ecc }) ∧
  (
  (∀ (e : EngId) (s : State) (o : BmuOp),
    let x := s.bmuXlat e o (s.port e sBSRC) o.size permR
    bmuRuns s e o → o.code ∈ [3, 4] → o.desc = false → o.elems = [] → s.bmuWraps e o (s.port e sBSRC) = false → s.port e sBCNT ≠ 0 →
    x.2 = 0 → ownWindow e x.1 = true → bmuPortFree s e →
    ∃ t, exec (.bmuElementAccess e) s = .next t ∧
      ((bmuAgree o (ofBytes (s.readBytes x.1 o.size)) (s.port e sBPAT).toNat ↔ o.code = 3) →
        (∀ k, t.port e k = s.port e k) ∧ (t.eng e).bmu = some { o with next := s.now + 1, fin := some 1, due := s.now + 1 }) ∧
      (¬(bmuAgree o (ofBytes (s.readBytes x.1 o.size)) (s.port e sBPAT).toNat ↔ o.code = 3) →
        t.port e sBSRC = s.port e sBSRC + BitVec.ofNat 32 o.size ∧ t.port e sBCNT = s.port e sBCNT - 1 ∧
        (∀ k, k ≠ sBSRC → k ≠ sBCNT → t.port e k = s.port e k) ∧
        (t.eng e).bmu = some (if s.port e sBCNT = 1 then { o with next := s.now + 1, fin := some 0, due := s.now + 1 }
          else { o with next := s.now + 1 })) ∧
      t.eng e = { s.eng e with ports := (t.eng e).ports, bmu := (t.eng e).bmu, nearAt := (t.eng e).nearAt, uses := (t.eng e).uses } ∧
      s.onlyEngine t e []) ∧
  (∀ (e : EngId) (s : State) (o : BmuOp) (el : BmuElem) (bs : List Byte),
    let x := s.bmuXlat e o el.dst el.n permR
    let count := s.port e sBCNT - BitVec.ofNat 32 (el.n / o.size)
    bmuRuns s e o → o.code = 5 → o.desc = false → bmuHolds o el bs → s.bmuWraps e o el.dst = false → x.2 = 0 →
    ownWindow e x.1 = true → bmuPortFree s e →
    ∃ t, exec (.bmuElementAccess e) s = .next t ∧
      (¬bmuAgree o (ofBytes bs) (ofBytes (s.readBytes x.1 el.n)) →
        (∀ k, t.port e k = s.port e k) ∧
        (t.eng e).bmu = some { o with elems := [], next := s.now + 1, fin := some 1, due := s.now + 1 }) ∧
      (bmuAgree o (ofBytes bs) (ofBytes (s.readBytes x.1 el.n)) →
        t.port e sBSRC = s.port e sBSRC + BitVec.ofNat 32 el.n ∧ t.port e sBDST = s.port e sBDST + BitVec.ofNat 32 el.n ∧
        t.port e sBCNT = count ∧ (∀ k, k ≠ sBSRC → k ≠ sBDST → k ≠ sBCNT → t.port e k = s.port e k) ∧
        (t.eng e).bmu = some (if count = 0 then { o with elems := [], next := s.now + 1, fin := some 0, due := s.now + 1 }
          else { o with elems := [], next := s.now + 1 })) ∧
      t.eng e = { s.eng e with ports := (t.eng e).ports, bmu := (t.eng e).bmu, nearAt := (t.eng e).nearAt, uses := (t.eng e).uses } ∧
      s.onlyEngine t e [])) ∧
  (
  ∀ (e : EngId) (s : State) (o : BmuOp) (el : BmuElem),
    let toDst := el.toDst o.code
    let wr := toDst && bmuWrites o.code
    let a := if toDst then el.dst else el.src
    let x := s.bmuXlat e o a el.n (if toDst then permW else permR)
    let data := if wr then el.data.getD (bytesOf el.n (s.port e sBPAT).toNat) else []
    let first := if el.n = 32 then 32 else min el.n (8 - x.1 % 8)
    let segm := s.rbit (Reg.teCfg e) 8
    let d := a.toNat / 2 ^ 29
    let req (ofs n : Nat) : ReqSpec :=
      { addr := BitVec.ofNat 32 (x.1 + ofs), kind := if wr then .write else .read, len := n, data := (data.drop ofs).take n,
        ordered := if segm then (o.segs.getD (4 * d + 3) 0).getLsbD 4 else s.rbit (Reg.teMemctl e) 1,
        node := if segm then (o.segs.getD (4 * d + 2) 0).setWidth 12 else 0 }
    bmuRuns s e o → o.code < 6 → s.bmuNext e o = some el → (o.elems = [] ∨ o.elems = [el] ∧ el.rest = []) → 0 < el.n → el.n ≤ 32 →
    s.bmuWraps e o a = false → x.2 = 0 → ownWindow e x.1 = false →
    ∃ t r, exec (.bmuElementAccess e) s = .next t ∧ t.mtx.reqs = s.mtx.reqs ++ [r] ∧ t.mtx.next = s.mtx.next + 1 ∧
      r.id = s.mtx.next ∧ (r.m, (⟨r.addr, r.kind, r.len, r.data, r.ordered, r.node⟩ : ReqSpec)) = (e.val, req 0 first) ∧
      (t.eng e).bmu = some { o with next := s.now + 1, elems :=
        [{ el with reqs := [⟨s.mtx.next, BitVec.ofNat 32 x.1, none, []⟩],
                   rest := if first = el.n then [] else [(s.now + 1, req first (el.n - first))] }] } ∧
      t.eng e = { s.eng e with bmu := (t.eng e).bmu } ∧ t = { s with engines := t.engines, mtx := t.mtx } ∧
      s.sameEngines t e ∧ s.sameBytes t)

/-! Control (R138–R147) -/

/-- An engine runs code and no injection waits at its sockets. -/
def runsFree (s : State) (e : EngId) : Prop := s.runs e = true ∧ (s.eng e).injSpar = false

/-- A branch trigger makes its target, aligned to 16, the pending one with two delay groups to issue, and ends a repetition with RPTC 0;
the call besides gives CTL.q the address after the second delay group at once, and the return is recorded as one (R138, R139, R142). The
other control triggers: rep loads RPTC and marks the next group as repeated, lp0 and lp1 load the three registers of their loop level from
the next group's address, `o` and `t`, sync holds the next group, and trap leaves a TRAP with the low byte of its operand behind and ends
a repetition, whose next group then follows (R138, R141, R142, R144, R147, R209). SYNC_COMPLETE, once every store of the engine has
completed: the pending control write takes effect within the writable bits of its register, the prefetch queue is empty, the hold ends,
the next line may be requested from the next fc and a group may issue from the third fc on (R146, R147). -/
def Obligations.ControlUnitSetsItsRegisters : Prop :=
  (
  (∀ op ∈ ([(.ctlJmp, fun _ w => w), (.ctlRet, fun _ w => w), (.ctlJr, fun g w => g + w * 16), (.ctlCall, fun _ w => w)] :
      List ((EngId → Word → Instr) × (Word → Word → Word))), ∀ (e : EngId) (w : Word) (s : State), runsFree s e →
    ∃ t, exec (op.1 e w) s = .next t ∧ (t.eng e).tgt = op.2 (s.eng e).grp w &&& 0xFFFF_FFF0 ∧ (t.eng e).dly = 2 ∧
      (t.eng e).pc = (s.eng e).nxt ∧ (t.eng e).rep = 0 ∧ ((s.eng e).rep ≠ 0 → t.port e sRPTC = 0) ∧
      ((s.eng e).rep = 0 → t.port e sRPTC = s.port e sRPTC) ∧ (∀ k, k ≠ sRPTC → t.port e k = s.port e k) ∧
      (op.1 e w ≠ .ctlCall e w → (t.eng e).units = (s.eng e).units) ∧ (∀ v, v ≠ 13 → t.unit e v = s.unit e v) ∧
      t.eng e = { s.eng e with ports := (t.eng e).ports, units := (t.eng e).units, tgt := (t.eng e).tgt, dly := 2, rep := 0,
                               pc := (t.eng e).pc, lines := (t.eng e).lines, tfetch := (t.eng e).tfetch,
                               retDly := false, ret := (t.eng e).ret, perf := (t.eng e).perf, wrapped := (t.eng e).wrapped } ∧
      (t.eng e).ret = (if op.1 e w = .ctlRet e w then some ((s.eng e).grp, w &&& 0xFFFF_FFF0) else (s.eng e).ret) ∧
      s.onlyEngine t e []) ∧
  (∀ (e : EngId) (w : Word) (s : State), runsFree s e →
    ∃ t, exec (.ctlCall e w) s = .next t ∧ (t.unit e 13).stalls false = false ∧
      (t.unit e 13).value false = s.codeEnd e (s.codeEnd e (s.eng e).nxt))) ∧
  (
  ∀ (e : EngId) (w : Word) (s : State), runsFree s e →
    (∃ t, exec (.ctlRep e w) s = .next t ∧ t.port e sRPTC = w ∧ (∀ k, k ≠ sRPTC → t.port e k = s.port e k) ∧
      t.eng e = { s.eng e with ports := (t.eng e).ports, rep := if (s.eng e).rep = 0 then 1 else (s.eng e).rep } ∧
      s.onlyEngine t e []) ∧
    (∀ k : Fin 2, ∃ t, exec (if k = 0 then .ctlLp0 e w else .ctlLp1 e w) s = .next t ∧
      t.port e (sLPS k.val) = (s.eng e).nxt ∧ t.port e (sLPE k.val) = s.port e (opO 13) &&& 0xFFFF_FFF0 ∧ t.port e (sLPC k.val) = w ∧
      (∀ j, j ≠ sLPS k.val → j ≠ sLPE k.val → j ≠ sLPC k.val → t.port e j = s.port e j) ∧
      t.eng e = { s.eng e with ports := (t.eng e).ports, lbuf := (s.eng e).lbuf.set k.val none k.isLt } ∧ s.onlyEngine t e []) ∧
    (∃ t, exec (.ctlSync e w) s = .next t ∧ t.eng e = { s.eng e with hold := some .sync } ∧ s.onlyEngine t e []) ∧
    (∃ t, exec (.ctlTrap e w) s = .next t ∧ (t.eng e).trap = some (w.toNat % 256, s.now) ∧ (t.eng e).rep = 0 ∧
      ((s.eng e).rep ≠ 0 → t.port e sRPTC = 0) ∧
      ((s.eng e).rep ≠ 2 → (∀ k, k ≠ sRPTC → t.port e k = s.port e k) ∧
        t.eng e = { s.eng e with ports := (t.eng e).ports, rep := 0, trap := (t.eng e).trap }) ∧
      ((s.eng e).rep = 2 → (s.eng e).dly = 0 → s.atLoopEnd e (s.eng e).pc = false → (t.eng e).pc = (s.eng e).nxt) ∧
      s.onlyEngine t e [])) ∧
  (
  ∀ (e : EngId) (s : State) (h : Hold), s.runs e = true → s.storesDone e = true → (s.eng e).hold = some h → h ≠ .eret →
    ∃ t, exec (.syncComplete e) s = .next t ∧
      (∀ k v, (s.eng e).pend = some (k, v) → t.port e k = v &&& syncMask k ∧ ∀ j, j ≠ k → t.port e j = s.port e j) ∧
      ((s.eng e).pend = none → ∀ j, t.port e j = s.port e j) ∧
      t.eng e = { s.eng e with ports := (t.eng e).ports, pend := none, hold := none, lines := [], stale := [], tfetch := false,
                               fetchAt := s.now + 1, free := max (s.eng e).free (s.now + 3),
                               useq := { (s.eng e).useq with dirty := false, old := [] } } ∧
      s.onlyEngine t e [])

/-! Exceptions (R202–R221) -/

/-- The own Tile Store's address of vector word `vec` in compact addressing (R176, R202). -/
def vectorAt (s : State) (e : EngId) (vec : Nat) : Nat :=
  (s.port e sBANK).toNat % 2 ^ 16 * 2 ^ 16 + (s.port e sVBASE + BitVec.ofNat 32 (4 * vec)).toNat % 2 ^ 16

/-- Asynchronous exception `n` has been chosen for the boundary, or nothing has and its time has come (R212, R213). -/
def asyncStands (s : State) (e : EngId) (n : Nat) : Prop :=
  (s.eng e).chosen = some (.async n) ∨ (s.eng e).chosen = none ∧ s.asyncReady e 4 false = some n

/-- What stands at the boundary of an engine where no handler runs: TRAP, else an asynchronous exception, else the synchronous one of
the group at the issue point, else an interrupt, with its vector and what ECAUSE takes as NUM and PRI (R203, R205, R209, R212). -/
def entryStands (s : State) (e : EngId) (vec num pri : Nat) : Prop :=
  (∃ at', (s.eng e).trap = some (num, at') ∧ at' ≤ s.now ∧ (s.eng e).inGroup s.now = false ∧ vec = 160 ∧ pri = 0) ∨
  ((s.eng e).trap = none ∧ s.boundary e = true ∧ s.frameDue e = false ∧ asyncStands s e vec ∧ num = 0 ∧ pri = 0) ∨
  (∃ due, (s.eng e).trap = none ∧ (s.boundary e = true → s.frameDue e = false → ∀ n, ¬asyncStands s e n) ∧
    (s.eng e).sync = some ⟨vec, num, due⟩ ∧ due ≤ s.now ∧ pri = 0) ∨
  (∃ i, (s.eng e).trap = none ∧ s.boundary e = true ∧ s.frameDue e = false ∧ (s.eng e).sync = none ∧
    ((s.eng e).chosen = some (.input i) ∨
      (s.eng e).chosen = none ∧ s.asyncReady e 4 false = none ∧ s.inputReady e 4 false = some i) ∧
    vec = 32 + i ∧ num = s.inputSrc e i ∧ pri = s.inputPri e i)

/-- EXCEPTION_ENTRY outside a handler: EPC, ESTAT, ECAUSE, and where they hold something ETGT and EAUX, receive the interrupted state, the
shadow receives RPTC and the loop registers, RPTC and both loop counts read 0, the handler of the cause's vector runs, its vector word is
to be read 3 fc later, and nothing of the interrupted code is left pending. In that fc a word in the own Tile Store is read through the
near port, and the handler runs from the address in it, its first line to be requested 3 fc later. The order of entries at one boundary
rests on log 25. (R202, R205–R209, R212–R214). -/
def Obligations.ExceptionEntrySavesState : Prop :=
  (∀ (e : EngId) (s : State) (vec num pri : Nat), entryStands s e vec num pri → vec < 256 →
    s.runs e = true → (s.eng e).vecWait = false → s.hnd e = false → s.inSeq e = false → (s.eng e).rep ≠ 2 →
    ∃ t, exec (.exceptionEntry e) s = .next t ∧
      t.port e sEPC = (s.eng e).pc &&& 0xFFFF_FFF0 ∧ t.port e sESTAT = s.estat e ∧
      ((s.eng e).dly ≠ 0 → t.port e sETGT = (s.eng e).tgt &&& 0xFFFF_FFF0) ∧
      (∀ k v, (s.eng e).pend = some (k, v) → t.port e sEAUX = v) ∧
      t.port e sECAUSE = BitVec.ofNat 32 (pri % 8 * 2 ^ 16 + num % 256 * 2 ^ 8 + vec) ∧
      t.reg (Reg.teShrptc e) = s.port e sRPTC ∧ (∀ i, i < 6 → t.reg (Reg.teShlp e i) = s.port e (0x041 + i)) ∧
      t.port e sRPTC = 0 ∧ t.port e (sLPC 0) = 0 ∧ t.port e (sLPC 1) = 0 ∧
      (∀ k, k ∉ [sRPTC, sLPC 0, sLPC 1, sEPC, sESTAT, sETGT, sEAUX, sECAUSE] → t.port e k = s.port e k) ∧
      t.hnd e = true ∧ t.rfld (Reg.teExcstat e) 16 8 = vec ∧
      (t.eng e).vecRd = some (s.now + 3, vec) ∧ (t.eng e).dly = 0 ∧ (t.eng e).rep = 0 ∧
      (t.eng e).pend = none ∧ (t.eng e).hold = none ∧ (t.eng e).sync = none ∧ (t.eng e).trap = none ∧ (t.eng e).lines = [] ∧
      s.sameEngines t e ∧ s.sameBytes t ∧
      s.sameRegs t ([Reg.teApend e, Reg.teExcstat e, Reg.teShrptc e] ++ (List.range 6).map (Reg.teShlp e))) ∧
  (∀ (e : EngId) (s : State) (vec at' : Nat), s.live e = true → (s.eng e).vecRd = some (at', vec) → at' ≤ s.now →
    s.rbit (Reg.teCfg e) 8 = false → (∀ i, i < 4 → ownWindow e (vectorAt s e vec + i) = true) → storesQuiet s e →
    s.nearFree e = true →
    let t := s.vectorDue e
    (t.eng e).pc = s.memWord (vectorAt s e vec) &&& 0xFFFF_FFF0 ∧ (t.eng e).first = true ∧ (t.eng e).vecRd = none ∧
    (t.eng e).fetchAt = s.now + 3 ∧ (t.eng e).dly = 0 ∧ (t.eng e).lines = [] ∧ t.nearFree e = false ∧ s.onlyEngine t e [])

/-- Interrupt inputs: an asserted input of a running engine is noted with its fc, a vector word of a waiting entry is read in advance
while a handler runs, and a write of SYS_SWISET sets bits of SYS_SWI, whose sources 224–255 are then asserted, and which a clear in the
same fc does not undo (R210, R211, R213, R219, R221). -/
def Obligations.InterruptInputsAndSources : Prop :=
  (∀ (e : EngId) (i : InputId) (s : State), s.live e = true → s.asserted e i.val = true → (∀ p ∈ (s.eng e).inputs, p.1 ≠ i.val) →
    ∃ t, exec (.interruptInputAssert e i) s = .next t ∧
      t.eng e = { s.eng e with inputs := (s.eng e).inputs ++ [(i.val, s.now)] } ∧ s.onlyEngine t e []) ∧
  (∀ (e : EngId) (s : State) (c : Chosen), s.runs e = true → s.hnd e = true → (s.eng e).vecWait = false → s.waitingEntry e 4 = some c →
    let v := c.vec
    (∀ p, (s.eng e).ahead = some p → p.1 ≠ v) → (∀ p, (s.eng e).vreq = some p → p.2.1 ≠ v) → s.rbit (Reg.teCfg e) 8 = false →
    (∀ i, i < 4 → ownWindow e (vectorAt s e v + i) = true) → storesQuiet s e → s.nearFree e = true →
    ∃ t, exec (.vectorPrefetch e) s = .next t ∧ (t.eng e).ahead = some (v, s.memWord (vectorAt s e v), s.now + 3) ∧
      t.eng e = { s.eng e with ahead := (t.eng e).ahead, nearAt := (t.eng e).nearAt, uses := (t.eng e).uses } ∧
      s.onlyEngine t e []) ∧
  (∀ (m : Word) (s : State), ∃ t, exec (.softwareSourceSet m) s = .next t ∧ t.reg Reg.sysSwi = s.reg Reg.sysSwi ||| m ∧
    (∀ i, i < 32 → (t.source (224 + i) = true ↔ (s.reg Reg.sysSwi ||| m).getLsbD i = true)) ∧
    (∃ h, t.swiAt = some (s.now, h) ∧ m &&& ~~~h = 0) ∧
    t = { s with csr := t.csr, swiAt := t.swiAt } ∧ s.sameRegs t [Reg.sysSwi] ∧ s.sameBytes t)

/-! The angle port and the message queues (R111–R116) -/

/-- The angle port. A read owes APU.q and APU.q1 its value after 2 fc, and is evaluated in the fc after the trigger: its words become what
the base, or the Time Base, has in that fc. A wait is in flight with its target, base and bound; it completes with status 0 two fc after
the first fc in which its condition held, or with status 1 once its bound has passed, and APU.q1 then holds the time of completion. Corner
values of an angle read rest on log 101. (R25, R111, R112). The message triggers: send queues a message with its destination and payload,
alw queues a CTL word for the Almanac slot that `o` names, and pop removes the inbound head (R113–R115). -/
def Obligations.AngleAndMessagePorts : Prop :=
  (
  (∀ op ∈ ([(.apuPhs, 0), (.apuVel, 1), (.apuEdge, 2), (.apuTb, 3)] : List ((EngId → Word → Instr) × Nat)),
    ∀ (e : EngId) (w : Word) (s : State) (b : BaseId), b.val = w.toNat % 8 →
    runsFree s e → (s.eng e).apu = none → s.iftUsed e < 256 →
    ∃ t, exec (op.1 e w) s = .next t ∧ (t.eng e).apuR = (s.eng e).apuR ++ [(s.now + 1, op.2, b)] ∧
      t.owes e 14 (s.now + 2) 0 0 true 0 ∧ s.oneInFlight t e ∧ (∀ v, v ≠ 14 → t.unit e v = s.unit e v) ∧
      t.eng e = { s.eng e with units := (t.eng e).units, apuR := (t.eng e).apuR } ∧ s.onlyEngine t e [Reg.teIft e]) ∧
  (∀ op ∈ ([(0, fun s b => s.phase b), (1, fun s b => s.velAt b s.stamp), (2, fun s b => (s.base b).last.getD 0), (3, fun s _ => s.fc)] :
      List (Nat × (State → BaseId → DWord))),
    ∀ (e : EngId) (s : State) (b : BaseId) (r : Res), (s.eng e).apuR = [(s.now, op.1, b)] → (s.unit e 14).ops = [r] →
    r.done = false → r.due = s.now + 1 →
    ∃ q q1, (q1 ++ q : DWord) = op.2 s b ∧ ((s.apuEval e).unit e 14).ops = [{ r with q := q, q1 := q1 }] ∧
      ((s.apuEval e).eng e).apuR = []) ∧
  (∀ op ∈ ([(.apuWph, true), (.apuWtb, false)] : List ((EngId → Word → Instr) × Bool)), ∀ (e : EngId) (w : Word) (s : State) (b : BaseId),
    runsFree s e → (s.eng e).apu = none → s.iftUsed e < 256 → b.val = (s.port e (opO1 14)).toNat % 8 →
    ∃ t, exec (op.1 e w) s = .next t ∧
      (t.eng e).apu = some ⟨op.2, w, b, s.now, (s.port e (opO 14)).toNat, none⟩ ∧ t.owes e 14 (s.now + 2) 0 0 true 0 ∧
      s.oneInFlight t e ∧ (∀ v, v ≠ 14 → t.unit e v = s.unit e v) ∧
      t.eng e = { s.eng e with units := (t.eng e).units, apu := (t.eng e).apu } ∧ s.onlyEngine t e [Reg.teIft e]) ∧
  (∀ (e : EngId) (s : State) (a : ApuWait) (r : Res) (st : Word) (due : Nat), s.live e = true → (s.eng e).apu = some a →
    (s.unit e 14).ops = [r] → r.done = false → r.ift = true → r.uq = true → r.uq1 = true → 0 < s.iftUsed e →
    ((∃ m x, a.met = some (m, x) ∧ due = m + 2 ∧ st = 0) ∨ (a.met = none ∧ due = a.trig + 3 + a.bound ∧ st = 1)) → due ≤ s.now →
    ∃ t, exec (.apuWaitComplete e) s = .next t ∧ (t.eng e).apu = none ∧ (t.unit e 14).stalls false = false ∧
      (t.unit e 14).value false = st ∧ (t.unit e 14).value true = s.fc.setWidth 32 - BitVec.ofNat 32 (s.now - due) ∧
      t.iftUsed e + 1 = s.iftUsed e ∧ (∀ v, v ≠ 14 → t.unit e v = s.unit e v) ∧
      t.eng e = { s.eng e with units := (t.eng e).units, apu := none } ∧ s.onlyEngine t e [Reg.teIft e])) ∧
  (
  ∀ (e : EngId) (w : Word) (s : State), runsFree s e →
    ((s.eng e).outq.length < 8 →
      ∃ t, exec (.xioSend e w) s = .next t ∧
        t.eng e = { s.eng e with outq := (s.eng e).outq ++
          [⟨false, w, s.port e (opO 15), s.port e (opO1 15), s.now, (s.eng e).seq⟩] } ∧ s.onlyEngine t e []) ∧
    ((s.eng e).outq.length < 8 →
      ∃ t, exec (.xioAlw e w) s = .next t ∧
        t.eng e = { s.eng e with outq := (s.eng e).outq ++
          [⟨true, BitVec.ofNat 32 ((s.port e (opO 15)).toNat % 2 ^ 14), w, 0, s.now, (s.eng e).seq⟩] } ∧ s.onlyEngine t e []) ∧
    (∃ t, exec (.xioPop e w) s = .next t ∧ t.eng e = { s.eng e with inq := (s.eng e).inq.tail } ∧ s.onlyEngine t e []))

/-- The return from a handler where every store has completed, nothing waits to be chained and ESTAT holds fields that the return accepts:
RPTC and the loop registers come back from the shadow, the engine resumes at EPC with the delay groups, target, repetition, loop test,
control write and segment checking that ESTAT, ETGT and EAUX give, and no handler runs (R217, R218). xio.t:fend ends the running frame:
the engine goes on where the frame's start had turned it aside, with its delay groups, target, repetition, RPTC and loop registers from
the frame shadow (R77). -/
def Obligations.ReturnsRestoreWhatWasSaved : Prop :=
  (
  ∀ (e : EngId) (w : Word) (s : State),
    let st := s.port e sESTAT
    let p := st.toNat / 2 ^ 4 % 8
    let dly := st.toNat % 4
    runsFree s e → s.hnd e = true → s.storesDone e = true → (s.eng e).pend = none → (s.eng e).apend = [] → (s.eng e).chosen = none →
    (s.eng e).inputs = [] → st.toNat < 2 ^ 11 → dly ≠ 3 → p < 5 → st.getLsbD 7 = false → st.getLsbD 8 = s.segm e →
    (s.locked = true → st.getLsbD 10 = true ∧ st.getLsbD 9 = s.segchk e) →
    ∃ t, exec (.ctlEret e w) s = .next t ∧
      (t.eng e).pc = s.port e sEPC &&& 0xFFFF_FFF0 ∧ (t.eng e).dly = dly ∧
      (dly ≠ 0 → (t.eng e).tgt = s.port e sETGT &&& 0xFFFF_FFF0) ∧ ((t.eng e).rep = 3 ↔ st.getLsbD 3 = true) ∧
      (t.eng e).owe = some (st.getLsbD 2) ∧ (t.eng e).hold = none ∧ (t.eng e).lines = [] ∧
      t.port e sRPTC = s.reg (Reg.teShrptc e) ∧ (∀ i, i < 6 → t.port e (0x041 + i) = s.reg (Reg.teShlp e i)) ∧
      (∀ k, pendReg p = k → p ≠ 0 → t.port e k = s.port e sEAUX &&& syncMask k) ∧
      (∀ k, (p ≠ 0 → k ≠ pendReg p) → (k < 0x040 ∨ 0x046 < k) → t.port e k = s.port e k) ∧
      t.hnd e = false ∧ t.segchk e = st.getLsbD 9 ∧ t.locked = (s.locked || st.getLsbD 10) ∧
      s.onlyEngine t e [Reg.teExcstat e, Reg.teMemctl e, Reg.sysCtl]) ∧
  (
  ∀ (e : EngId) (w : Word) (s : State) (f : FReq) (sh : FrameShadow), runsFree s e → (s.frames e).run = some f → s.hnd e = false →
    (s.eng e).shadow = some sh → sh.emu = false → sh.regs.length = 7 →
    ∃ t, exec (.xioFend e w) s = .next t ∧ (t.frames e).run = none ∧ (t.frames e).q = (s.frames e).q ∧
      (t.eng e).pc = sh.pc ∧ (t.eng e).tgt = sh.tgt ∧ (t.eng e).dly = sh.dly ∧ (t.eng e).rep = sh.rep ∧ (t.eng e).owe = sh.owe ∧
      (t.eng e).hold = sh.hold ∧ (t.eng e).shadow = none ∧ (t.eng e).inFrame = false ∧ (t.eng e).lines = [] ∧
      (∀ i, i < 7 → ∀ v, sh.regs[i]? = some v → t.port e (0x040 + i) = v) ∧
      (∀ k, (k < 0x040 ∨ 0x046 < k) → t.port e k = s.port e k) ∧
      t.reg (Reg.almFst e) = s.reg (Reg.almFst e) &&& 0x7FFF_FC00 ∧ (∀ f, f ≠ e → t.frames f = s.frames f) ∧
      s.sameEngines t e ∧ s.sameRegs t [Reg.almFst e] ∧ s.sameBytes t)

/-! Fetch and issue (R123–R131) -/

/-- A move word that moves Va to Vb and Vb to Va, in this order of its slots (R92, R94). -/
def swapWord (a b : Nat) : Quad := BitVec.ofNat 128 ((b * 2 ^ 12 + a) * 2 ^ 28 + (a * 2 ^ 12 + b))

/-- From `s` to `t` the general registers `a` and `b` have exchanged their values, V0 aside, and no other one has changed (R103, R109). -/
def swapped (s t : State) (e : EngId) (a b : Nat) : Prop :=
  t.vreg e a = (if a = 0 then 0 else s.vreg e b) ∧ t.vreg e b = (if b = 0 then 0 else s.vreg e a) ∧
  (∀ v, v < 64 → v ≠ a → v ≠ b → t.vreg e v = s.vreg e v)

/-- The engine can issue the group at its issue point, which is neither a delay group nor repeated, no loop level is active, and no
injection waits. -/
def groupStands (s : State) (e : EngId) : Prop :=
  s.canIssue e = true ∧ (s.eng e).rep = 0 ∧ (s.eng e).dly = 0 ∧ (s.eng e).owe = none ∧ (s.eng e).injBpar = none ∧
  (s.eng e).injSpar = false ∧ s.iftUsed e ≤ 256 ∧ s.lpc e 0 = 0 ∧ s.lpc e 1 = 0

/-- A word holds a long immediate, and its value (R98). -/
def longOf (w : Quad) : Option Word :=
  if w.toNat / 2 ^ 124 % 4 = 1 then some (BitVec.ofNat 32 (w.toNat / 2 ^ 120 % 16 * 2 ^ 28 + w.toNat / 2 ^ 84 % 2 ^ 28)) else none

/-- The moves of a word in slot order: guard, source, destination and the long immediate of the word (R92–R95, R98). -/
def slotsOf (w : Quad) : List (Nat × Nat × Nat × Option Word) :=
  (((List.range (if (longOf w).isSome then 3 else 4)).map fun k => w.toNat / 2 ^ (28 * k) % 2 ^ 28).filter (· ≠ 0)).map fun v =>
    (v / 2 ^ 24, v / 2 ^ 12 % 2 ^ 12, v % 2 ^ 12, longOf w)

/-- A word without a reserved encoding whose moves all take a general register, a short immediate or its long immediate to a general
register (R93, R96–R98, R118). -/
def plainWord (w : Quad) : Prop :=
  w.toNat / 2 ^ 112 % 2 ^ 8 = 0 ∧ ((longOf w).isSome ∨ w.toNat / 2 ^ 120 % 64 = 0) ∧
  ∀ m ∈ slotsOf w, m.1 ≠ 8 ∧ m.2.2.1 < 64 ∧ (m.2.1 < 64 ∨ m.2.1 = 0x080 ∧ m.2.2.2.isSome = true ∨ 0x800 ≤ m.2.1)

/-- A guard holds on the registers before the group (R96). -/
def guardOpen (s : State) (e : EngId) (g : Nat) : Bool :=
  if g < 8 then g == 0 || s.vreg e g != 0 else s.vreg e (g - 8) == 0

/-- What a move of a plain word reads before the group (R97, R98, R103). -/
def plainRead (s : State) (e : EngId) (m : Nat × Nat × Nat × Option Word) : Word :=
  if m.2.1 < 64 then s.vreg e m.2.1
  else if m.2.1 = 0x080 then m.2.2.2.getD 0
  else BitVec.ofInt 32 (if m.2.1 < 0xC00 then (m.2.1 : Int) - 0x800 else (m.2.1 : Int) - 0x1000)

/-- General register `v` after moves in slot order, lane A before lane B: V0 reads zero, another one holds what the last executed move
that names it has read, or what it held (R96, R103, R105, R109, R130). -/
def movesGive (s : State) (e : EngId) (ms : List (Nat × Nat × Nat × Option Word)) (v : Nat) : Word :=
  if v = 0 then 0
  else match (ms.filter fun m => guardOpen s e m.1 && decide (m.2.2.1 = v)).getLast? with
    | some m => plainRead s e m
    | none => s.vreg e v

/-- In compact addressing the fetcher requests the line of the issue point, or the line after the last of the queue, from the own Tile
Store where the near port is free, and its bytes are there 2 fc later; a requested line whose parts are settled and due arrives once the
lines before it have (R123, R124, R131). ISSUE_GROUP on a word that stands alone, or on a pair, whose moves take registers and immediates
to general registers: all executed moves read before any writes, a move whose guard fails does nothing, and the issue point then stands
behind the group. A pair takes 1 fc, or 2 where both words name one register other than V0 (R92, R96–R98, R103, R105, R123, R128–R130,
R143). ISSUE_GROUP on a word whose one move names an undefined socket. TE_UNDEF counts it, and the address, bus, direction and socket are
recorded. With TE_CTL.UNDEFTRAP the group does not issue and exception 2 becomes its synchronous exception; else it issues, an undefined
source reads zero and an undefined destination discards its write (R119). ISSUE_GROUP on a word that moves Va to the operand port of an
ALU and Vb to its trigger port: the operation uses the operand of its own group, its result can be read from the next group on, and the
issue point stands behind the word (R103, R104, R106, R110, R119). -/
def Obligations.LinesAndGroups : Prop :=
  (
  (∀ (e : EngId) (s : State) (a : Word),
    (((s.eng e).lines = [] ∧ a = (s.eng e).pc &&& 0xFFFF_FFE0) ∨
      ∃ l, (s.eng e).lines.getLast? = some l ∧ ((s.eng e).dly = 0 ∨ (s.eng e).tfetch = true) ∧ a = l.addr + 32) →
    s.canFetch e = true → s.segm e = false → storesQuiet s e → s.nearBusy e = false → (s.eng e).owesNear = false →
    s.lineWaits e a = false →
    ∃ t, exec (.lineFetchRequest e) s = .next t ∧
      (let x := tileAddr e (a.toNat % 0x8_0000)
       (t.eng e).lines = (s.eng e).lines ++
        [⟨a, [⟨none, none, 0, 16, 0, s.now + 2, some (s.readBytes x 16), none, false⟩,
              ⟨none, none, 16, 16, 0, s.now + 2, some (s.readBytes (x + 16) 16), none, false⟩]⟩]) ∧
      t.nearFree e = false ∧
      t.eng e = { s.eng e with lines := (t.eng e).lines, tfetch := (t.eng e).tfetch, nearAt := (t.eng e).nearAt,
                               uses := (t.eng e).uses } ∧
      s.onlyEngine t e []) ∧
  (∀ (e : EngId) (s : State) (ls ms : List Line) (l : Line), s.live e = true → (s.eng e).lines = ls ++ l :: ms →
    (∀ k ∈ ls, k.whole = true) → l.whole = false → (∀ p ∈ l.parts, p.settled = true ∧ p.due ≤ s.now) →
    ∃ t, exec (.lineArrival e) s = .next t ∧
      t.eng e = { s.eng e with lines := ls ++ { l with parts := l.parts.map fun p => { p with here := true } } :: ms,
                               fetchAt := (t.eng e).fetchAt } ∧
      ((s.eng e).retDly = false → (t.eng e).fetchAt = (s.eng e).fetchAt) ∧
      s.onlyEngine t e [])) ∧
  (
  ∀ (e : EngId) (s : State) (w : Quad) (v : Option Quad),
    let ms := slotsOf w ++ (match v with | some v => slotsOf v | none => [])
    let len := if v.isSome then 32 else 16
    let fcs := match v with
      | some v => if (slotsOf w).any (fun m => m.2.2.1 != 0 && (slotsOf v).any fun n => n.2.2.1 == m.2.2.1) then 2 else 1
      | none => 1
    groupStands s e → wordIn (s.eng e).lines (s.eng e).pc = .word w → (s.eng e).pc ∉ (s.eng e).stale → plainWord w →
    (v = none → w.getLsbD 127 = true ∨ w.getLsbD 126 = false) →
    (∀ x, v = some x → w.getLsbD 127 = false ∧ w.getLsbD 126 = true ∧ x.getLsbD 127 = true ∧ plainWord x ∧
      wordIn (s.eng e).lines ((s.eng e).pc + 16) = .word x ∧ (s.eng e).pc + 16 ∉ (s.eng e).stale) →
    ∃ t, exec (.issueGroup e) s = .next t ∧ (∀ r, r < 64 → t.vreg e r = movesGive s e ms r) ∧
      (∀ k, (∀ r, 0 < r → r < 64 → k ≠ s.vKey e r) → t.port e k = s.port e k) ∧
      (t.eng e).pc = (s.eng e).pc + len ∧ (t.eng e).grp = (s.eng e).pc ∧ (t.eng e).nxt = (s.eng e).pc + len ∧
      (t.eng e).free = max (s.eng e).free (s.now + fcs) ∧ (t.eng e).units = (s.eng e).units ∧ s.onlyEngine t e []) ∧
  (
  ∀ (e : EngId) (s : State) (k r : Nat) (dst : Bool), 0x081 ≤ k → k < 0x400 → r < 64 → groupStands s e →
    wordIn (s.eng e).lines (s.eng e).pc = .word (BitVec.ofNat 128 (if dst then r * 2 ^ 12 + k else k * 2 ^ 12 + r)) →
    (s.eng e).pc ∉ (s.eng e).stale →
    ∃ t, exec (.issueGroup e) s = .next t ∧
      (t.reg (Reg.teUndef e)).toNat = min ((s.reg (Reg.teUndef e)).toNat + 1) 0xFFFF_FFFF ∧ t.reg (Reg.teUndefpc e) = (s.eng e).pc ∧
      t.reg (Reg.teUndefinfo e) = BitVec.ofNat 32 ((if dst then 2 ^ 15 else 0) + k) ∧
      (s.rbit (Reg.teCtl e) 0 = true → t.eng e = { s.eng e with sync := some ⟨2, 0, 0⟩ }) ∧
      (s.rbit (Reg.teCtl e) 0 = false → (t.eng e).pc = (s.eng e).pc + 16 ∧ (t.eng e).sync = (s.eng e).sync ∧
        (dst = false → t.vreg e r = 0) ∧ (∀ v, v < 64 → dst = true ∨ v ≠ r → t.vreg e v = s.vreg e v)) ∧
      s.onlyEngine t e [Reg.teUndef e, Reg.teUndefpc e, Reg.teUndefinfo e]) ∧
  (
  ∀ (e : EngId) (s : State) (u : AluId) (a b c : Nat) (op : (EngId → AluId → Word → Instr) × (Word → Word → Word)), a < 64 → b < 64 →
    aluOps[c]? = some op → groupStands s e →
    let k := 0x400 + 0x40 * u.val
    wordIn (s.eng e).lines (s.eng e).pc = .word (BitVec.ofNat 128 ((b * 2 ^ 12 + (k + c)) * 2 ^ 28 + (a * 2 ^ 12 + (k + 0x20)))) →
    (s.eng e).pc ∉ (s.eng e).stale → ((s.eng e).connWord (k + 0x20)).testBit 8 = true → ((s.eng e).connWord (k + c)).testBit 9 = true →
    (s.unit e (aluU u)).accepts s.now 1 = true →
    ∃ t, exec (.issueGroup e) s = .next t ∧ t.port e (k + 0x20) = s.vreg e a ∧
      (t.unit e (aluU u)).stalls false = false ∧ (t.unit e (aluU u)).value false = op.2 (s.vreg e a) (s.vreg e b) ∧
      (∀ v, v ≠ aluU u → t.unit e v = s.unit e v) ∧ (∀ j, j ≠ k + 0x20 → t.port e j = s.port e j) ∧
      (t.eng e).pc = (s.eng e).pc + 16 ∧ (t.eng e).free = max (s.eng e).free (s.now + 1) ∧ s.onlyEngine t e [])

/-! Emulation (R222–R246) -/

/-- An entry of `n` bytes of the stores, as the sequencer reads it (R224, R226). -/
def seqValue (s : State) (e : EngId) (a n : Nat) : Nat := (s.seqEntry e a n).2.1

/-- The microword at the µPC. -/
def microWord (s : State) (e : EngId) : Word := BitVec.ofNat 32 (seqValue s e (microAddr e ((s.port e sUPC).toNat % 4096)) 4)

/-- The sequencer stands before the microword `w` of operation `op`, free of faults: a jump to a subroutine finds room on the micro
stack, a return finds an entry, and no loop test is owed (R229–R232, R240). -/
def microStands (s : State) (e : EngId) (w : Word) (op : Nat) : Prop :=
  w = microWord s e ∧ mwOp w = op ∧ (mwNxt w = 3 → s.microDepth e < 8) ∧ (mwNxt w = 4 → s.microDepth e ≠ 0) ∧
  s.microReady e false = true ∧ (s.eng e).useq.wild = false ∧ (s.eng e).useq.lpend = false ∧ (s.eng e).useq.injI = false ∧
  (s.eng e).useq.count < 256 ∧ (s.eng e).injSpar = false ∧ storesQuiet s e

/-- The fc in which a microword ends that starts its operation now, with `work` fc of work from now on: with its period, or later with its
work, the fc since its start included (R230). -/
def microEndAt (s : State) (e : EngId) (w : Word) (work : Nat) : Nat :=
  (s.eng e).useq.start + max ((mwCl w + 1) * s.emuBase e) (s.now - (s.eng e).useq.start + work)

/-- A microword has carried out its operation with `work` fc of work: its end stands, and its next address is still to be decided, for a
WAITC where `wait`; of other words of the engine only `ks`, of registers only the slip records and `rs` may have changed, and no byte of
memory has (R230, R231). -/
def microRuns (s t : State) (e : EngId) (w : Word) (wait : Bool) (work : Nat) (ks rs : List Nat) : Prop :=
  (t.eng e).useq.fin = some ⟨w, (s.port e sUPC).toNat % 4096, some (microEndAt s e w work), wait, none⟩ ∧
  (t.eng e).useq.run = true ∧ (t.eng e).useq.disp = false ∧ (t.eng e).useq.start = (s.eng e).useq.start ∧
  (∀ k, k ∉ ks → t.port e k = s.port e k) ∧ s.sameRegs t ([Reg.teEmuslip e, Reg.teEmustat e] ++ rs) ∧ s.sameEngines t e ∧ s.sameBytes t

/-- The micro-operations that only give Ma a value, with what it is and the further words of the engine that their expansion through
ALU0 uses (R236, R239). -/
def microValues : List ((EngId → Stall → Instr) × Nat × Nat × (State → EngId → Word → Word) × List Nat) :=
  [(.muMov, 0x01, 1, fun s e w => s.port e (40 + mwB w), []), (.muLdi, 0x02, 1, fun _ _ w => BitVec.ofNat 32 (w.toNat % 256), []),
   (.muAddi, 0x14, 2, fun s e w => s.port e (40 + mwA w) + (w.setWidth 8).signExtend 32, [opO 0]),
   (.muAdda, 0x15, 2, fun s e w => s.port e (40 + mwA w) + s.port e (40 + mwB w), [opO 0]),
   (.muShla, 0x16, 2, fun s e w => BitVec.ofNat 32 ((s.port e (40 + mwB w)).toNat * 2 ^ mwC w), [opO 0]),
   (.muLdmir, 0x18, 1, fun s e _ => s.reg (Reg.teEmumir e), []), (.muMpcr, 0x1D, 1, fun s e _ => s.port e sMPC, []),
   (.muLdf, 0x1E, 1, fun s e _ => s.port e sLFLG, [])]

/-- The micro-operations that give MPC, LFLG or, in the last two, TE_EMUMCNT a value (R236). -/
def microPorts : List ((EngId → Stall → Instr) × Nat × Nat × (State → EngId → Word → Word)) :=
  [(.muMpcw, 0x1C, sMPC, fun s e w => s.port e (40 + mwA w)),
   (.muStf, 0x1F, sLFLG, fun s e w => s.port e (40 + mwA w) &&& 0xFF),
   (.muSetf, 0x20, sLFLG, fun s e w => s.port e sLFLG ||| (w &&& 0xFF)),
   (.muClrf, 0x21, sLFLG, fun s e w => s.port e sLFLG &&& ~~~(w &&& 0xFF))]

/-- The arithmetic micro-operations: whether each writes Ma, and from W, BORROW, the low W bits of Ma and Mb and C what it computes: the
exact result, C where it sets C, and V (R235, R236). -/
def microAriths : List ((EngId → Stall → Instr) × Nat × Bool × (Nat → Bool → Nat → Nat → Nat → Int × Option Bool × Bool)) :=
  [(.muAdd, 0x03, true, fun W _ a b _ => (a + b, some (2 ^ W ≤ a + b), overflowsAt W (signedAt W a + signedAt W b))),
   (.muAdc, 0x04, true, fun W _ a b c => (a + b + c, some (2 ^ W ≤ a + b + c), overflowsAt W (signedAt W a + signedAt W b + c))),
   (.muSub, 0x05, true, fun W br a b _ => (a - b, some (if br then a < b else b ≤ a), overflowsAt W (signedAt W a - signedAt W b))),
   (.muSbc, 0x06, true, fun W br a b c =>
      let k := if br then c else 1 - c
      (a - b - k, some (if br then a < b + k else b + k ≤ a), overflowsAt W (signedAt W a - signedAt W b - k))),
   (.muAnd, 0x07, true, fun _ _ a b _ => ((a &&& b : Nat), none, false)),
   (.muOr, 0x08, true, fun _ _ a b _ => ((a ||| b : Nat), none, false)),
   (.muXor, 0x09, true, fun _ _ a b _ => ((a ^^^ b : Nat), none, false)),
   (.muNot, 0x0A, true, fun W _ _ b _ => (2 ^ W - 1 - b, none, false)),
   (.muShl, 0x0B, true, fun W _ _ b _ => (2 * b, some (b.testBit (W - 1)), false)),
   (.muShr, 0x0C, true, fun _ _ _ b _ => ((b / 2 : Nat), some (b.testBit 0), false)),
   (.muSra, 0x0D, true, fun W _ _ b _ => ((b / 2 : Nat) + (if b.testBit (W - 1) then 2 ^ (W - 1) else 0), some (b.testBit 0), false)),
   (.muRlc, 0x0E, true, fun W _ _ b c => (2 * b + c, some (b.testBit (W - 1)), false)),
   (.muRrc, 0x0F, true, fun W _ _ b c => ((b / 2 : Nat) + c * 2 ^ (W - 1), some (b.testBit 0), false)),
   (.muCmp, 0x10, false, fun W br a b _ => (a - b, some (if br then a < b else b ≤ a), overflowsAt W (signedAt W a - signedAt W b))),
   (.muTst, 0x11, false, fun _ _ a b _ => ((a &&& b : Nat), none, false)),
   (.muInc, 0x12, true, fun W _ a _ _ => (a + 1, some (2 ^ W ≤ a + 1), overflowsAt W (signedAt W a + signedAt W 1))),
   (.muDec, 0x13, true, fun W br a _ _ => (a - 1, some (if br then a < 1 else 1 ≤ a), overflowsAt W (signedAt W a - signedAt W 1)))]

/-- A microword that moves or loads a value gives its register that value, changes no flag but as STF, SETF and CLRF say, and ends with
its period or its work (R230, R236). An arithmetic microword works at the legacy width W: it writes its exact result modulo 2^W to Ma,
clearing the bits above, unless it only compares; Z and N come from that result, C where the operation sets it, V is the overflow at width
W, and the other bits of LFLG stay (R235, R236). -/
def Obligations.MicroMovesAndArithmetic : Prop :=
  (
  ∀ (e : EngId) (st : Stall) (s : State) (w : Word),
    (∀ op ∈ microValues, microStands s e w op.2.1 →
      ∃ t, exec (op.1 e st) s = .next t ∧ t.port e (40 + mwA w) = op.2.2.2.1 s e w ∧
        microRuns s t e w false (op.2.2.1 + st.toNat) ((40 + mwA w) :: op.2.2.2.2) []) ∧
    (∀ op ∈ microPorts, microStands s e w op.2.1 →
      ∃ t, exec (op.1 e st) s = .next t ∧ t.port e op.2.2.1 = op.2.2.2 s e w ∧ microRuns s t e w false (1 + st.toNat) [op.2.2.1] []) ∧
    (microStands s e w 0x00 → ∃ t, exec (.muNop e st) s = .next t ∧ microRuns s t e w false (1 + st.toNat) [] []) ∧
    (microStands s e w 0x22 → ∃ t, exec (.muLdcnt e st) s = .next t ∧ t.reg (Reg.teEmumcnt e) = w &&& 0xFFF ∧
      microRuns s t e w false (1 + st.toNat) [] [Reg.teEmumcnt e]) ∧
    (microStands s e w 0x23 → ∃ t, exec (.muLdcntr e st) s = .next t ∧
      t.reg (Reg.teEmumcnt e) = s.port e (40 + mwA w) &&& 0xFFF ∧ microRuns s t e w false (1 + st.toNat) [] [Reg.teEmumcnt e])) ∧
  (
  ∀ op ∈ microAriths, ∀ (e : EngId) (st : Stall) (s : State) (w : Word), microStands s e w op.2.1 →
    let W := if (s.reg (Reg.teEmucfg e)).toNat / 2 ^ 16 % 32 = 0 then 32 else (s.reg (Reg.teEmucfg e)).toNat / 2 ^ 16 % 32
    let f := s.port e sLFLG
    let x := op.2.2.2 W (s.rbit (Reg.teEmucfg e) 12) ((s.port e (40 + mwA w)).toNat % 2 ^ W) ((s.port e (40 + mwB w)).toNat % 2 ^ W)
      (if f.getLsbD 0 then 1 else 0)
    let r := (x.1 % 2 ^ W).toNat
    ∃ t, exec (op.1 e st) s = .next t ∧
      t.port e (40 + mwA w) = (if op.2.2.1 then BitVec.ofNat 32 r else s.port e (40 + mwA w)) ∧
      (t.port e sLFLG).getLsbD 0 = x.2.1.getD (f.getLsbD 0) ∧ (t.port e sLFLG).getLsbD 1 = (r == 0) ∧
      (t.port e sLFLG).getLsbD 2 = r.testBit (W - 1) ∧ (t.port e sLFLG).getLsbD 3 = x.2.2 ∧
      (∀ i, 4 ≤ i → (t.port e sLFLG).getLsbD i = f.getLsbD i) ∧
      microRuns s t e w false (2 + st.toNat) [40 + mwA w, sLFLG, opO 0] [])

/-- The access of a local load of the sequencer is served at once: it passes its checks, the near port is free, no other load waits, and
no buffered store shares a byte with it (R131, R187, R237). -/
def microLoads (s : State) (e : EngId) (a : Word) (z : Nat) (x : Access) : Prop :=
  x = s.access e ⟨0, false, .read, z, false, a, 0, none⟩ ∧ x.cause = 0 ∧ s.nearFree e = true ∧ (s.eng e).lwait = [] ∧
  s.wildSeg e a = false ∧ (s.eng e).injSpar = false ∧ (s.eng e).overlap (keysOf x.sys z) = []

/-- The other microwords that touch no memory: EXF takes a field of MIR through BIT0, SYNC applies the pending control write once every
store has completed, TRAP leaves a TRAP to be taken at its end, WAITC at its end goes on exactly where its condition holds and else runs
another period, EXIT at its end returns to LINK, and an undefined operation is Micro Fault, cause 1. How a push or pop that does not fit
is judged rests on log 108. (R223, R230, R236, R237, R240). The next address of a microword, decided with its condition in the fc before
its end: NXT 1 and 2 branch on the condition, 3 and 4 call and return through the micro stack of eight, 6 branches with the low four bits
of M0, and 7 counts MCNT down; 5 dispatches, or ends a call. A word that can meet a full or an empty stack keeps what it found until then;
where it does meet one it is Micro Fault, cause 2 or 3, and what the word did is taken back (R230–R232, R240, R244). Memory microwords
with local accesses: MRD and MFETCH give Ma the bytes at Mb or MPC in the order of MORD where it applies, MFETCH advances MPC by their
number, and MWR enters the low bytes of Ma into the store buffer of LSU0 (R227, R236, R237). -/
def Obligations.MicroControlNextAndMemory : Prop :=
  (
  ∀ (e : EngId) (st : Stall) (s : State) (w : Word),
    (microStands s e w 0x17 → s.canTrigger e 9 s.now 2 = true → (s.eng e).injSpar = false →
      let x := (s.port e (40 + mwB w)).toNat
      let p := x % 32
      let n := min (min (x / 2 ^ 8 % 64) 32) (32 - p)
      ∃ t, exec (.muExf e st) s = .next t ∧
        t.port e (40 + mwA w) = BitVec.ofNat 32 ((s.reg (Reg.teEmumir e)).toNat / 2 ^ p % 2 ^ n) ∧
        microRuns s t e w false (3 + st.toNat) [40 + mwA w, opO1 9] [Reg.teIft e]) ∧
    (microStands s e w 0x25 → s.storesDone e = true →
      ∃ t, exec (.muSync e st) s = .next t ∧ (t.eng e).pend = none ∧ (t.eng e).useq.dirty = false ∧
        (∀ k v, (s.eng e).pend = some (k, v) → t.port e k = v &&& syncMask k ∧
          microRuns s t e w false (3 + st.toNat) [k] []) ∧
        ((s.eng e).pend = none → microRuns s t e w false (3 + st.toNat) [] [])) ∧
    (microStands s e w 0x26 → ∃ t, exec (.muTrap e st) s = .next t ∧
      (t.eng e).trap = some (w.toNat % 256, microEndAt s e w (1 + st.toNat)) ∧ microRuns s t e w false (1 + st.toNat) [] []) ∧
    (microStands s e w 0x24 → ∃ t, exec (.muWaitc e st) s = .next t ∧ microRuns s t e w true (1 + st.toNat) [] []) ∧
    (∀ a n u, (s.eng e).useq.fin = some ⟨w, a, some n, true, u⟩ → mwOp w ≠ 0x27 → n ≤ s.now + 1 →
      let t := s.microDecide e
      (t.eng e).useq.fin = none ∧
      (s.microCond e (mwCond w) = false → t.port e sUPC = BitVec.ofNat 32 a ∧ (t.eng e).useq.start = n ∧
        (∀ k, k ≠ sUPC → t.port e k = s.port e k) ∧ s.onlyEngine t e []) ∧
      (s.microCond e (mwCond w) = true → mwNxt w = 0 → t.port e sUPC = BitVec.ofNat 32 ((a + 1) % 4096) ∧ (t.eng e).useq.start = n)) ∧
    (microStands s e w 0x27 → ∃ t, exec (.muExit e st) s = .next t ∧ microRuns s t e w false (1 + st.toNat) [] []) ∧
    (∀ a n u, (s.eng e).useq.fin = some ⟨w, a, some n, false, u⟩ → mwOp w = 0x27 → n ≤ s.now + 1 → (s.eng e).useq.lpend = false →
      let t := s.microDecide e
      (t.eng e).useq.run = false ∧ (t.eng e).pc = s.reg (Reg.teLink e) ∧ (s.call e = true → t.call e = false) ∧
      (s.call e = false → t.emu e = false) ∧ (∀ k, t.port e k = s.port e k) ∧
      s.sameRegs t [Reg.teEmustat e] ∧ s.sameEngines t e ∧ s.sameBytes t) ∧
    (∀ op, 0x28 ≤ op → op < 0x38 → microStands s e w op →
      ∃ t, exec (.microOpUndefined e st) s = .next t ∧ (t.eng e).sync = some ⟨7, 0, 0⟩ ∧
        t.reg (Reg.teEmufault e) = BitVec.ofNat 32 ((s.port e sUPC).toNat % 4096 * 2 ^ 16 + 1) ∧
        (∀ k, t.port e k = s.port e k) ∧ s.onlyEngine t e [Reg.teEmufault e])) ∧
  (
  ∀ (e : EngId) (s : State) (w : Word),
    let f := w.toNat % 4096
    let c := s.microCond e (mwCond w)
    let d := s.microDepth e
    let nx := fun (k : Nat) => BitVec.ofNat 32 (k % 4096)
    (∀ a n u, (s.eng e).useq.fin = some ⟨w, a, some n, false, u⟩ → n ≤ s.now + 1 → mwOp w ≠ 0x27 → (s.eng e).useq.lpend = false →
      (mwNxt w = 3 → c = true → d < 8) → (mwNxt w = 4 → c = true → d ≠ 0) →
      let m := (s.reg (Reg.teEmumcnt e)).toNat % 4096
      let t := s.microDecide e
      (t.eng e).useq.fin = none ∧
      (mwNxt w ≠ 5 → (t.eng e).useq.start = n ∧ (t.eng e).useq.intPt = mwI w ∧ (t.eng e).useq.run = (s.eng e).useq.run) ∧
      (mwNxt w = 0 → t.port e sUPC = nx (a + 1)) ∧
      (mwNxt w = 1 → t.port e sUPC = nx (if c then f else a + 1)) ∧ (mwNxt w = 2 → t.port e sUPC = nx (if c then a + 1 else f)) ∧
      (mwNxt w = 3 → c = true →
        t.port e sUPC = nx f ∧ t.reg (Reg.teEmustk e d) = nx (a + 1) ∧ t.microDepth e = d + 1) ∧
      (mwNxt w = 4 → c = true → d ≤ 8 →
        t.port e sUPC = nx (s.reg (Reg.teEmustk e (d - 1))).toNat ∧ t.microDepth e = d - 1) ∧
      (mwNxt w = 3 ∨ mwNxt w = 4 → c = false → t.port e sUPC = nx (a + 1) ∧ t.microDepth e = d) ∧
      (mwNxt w = 5 → c = true → s.call e = false →
        (t.eng e).useq.disp = true ∧ (t.eng e).useq.intPt = true ∧ (t.eng e).useq.start = n) ∧
      (mwNxt w = 5 → c = true → s.call e = true → (t.eng e).useq.run = false ∧ (t.eng e).pc = s.reg (Reg.teLink e)) ∧
      (mwNxt w = 6 → t.port e sUPC = nx (if c then f + (s.port e 40).toNat % 16 else a + 1)) ∧
      (mwNxt w = 7 → t.port e sUPC = nx (if m = 0 then a + 1 else f) ∧ (m ≠ 0 → t.reg (Reg.teEmumcnt e) = nx (m - 1))) ∧
      (∀ k, k ≠ sUPC → t.port e k = s.port e k)) ∧
    (∀ (st : Stall), (mwNxt w = 3 ∧ 8 ≤ d) ∨ (mwNxt w = 4 ∧ d = 0) →
      w = microWord s e → mwOp w = 0 → s.microReady e false = true → (s.eng e).useq.wild = false → (s.eng e).useq.injI = false →
      (s.eng e).useq.count < 256 → storesQuiet s e →
      ∃ t u, exec (.muNop e st) s = .next t ∧
        (t.eng e).useq.fin = some ⟨w, (s.port e sUPC).toNat % 4096, some (microEndAt s e w (1 + st.toNat)), false, some u⟩ ∧
        u.ports = (s.eng e).ports ∧ u.mcnt = s.reg (Reg.teEmumcnt e) ∧ u.mir = s.reg (Reg.teEmumir e) ∧ u.seq = (s.eng e).seq ∧
        (∀ k, t.port e k = s.port e k) ∧ s.onlyEngine t e [Reg.teEmuslip e, Reg.teEmustat e]) ∧
    (∀ a n u k, (mwNxt w = 3 ∧ 8 ≤ d ∧ k = 2) ∨ (mwNxt w = 4 ∧ d = 0 ∧ k = 3) → c = true → mwOp w ≠ 0x27 → n ≤ s.now + 1 →
      (s.eng e).useq.fin = some ⟨w, a, some n, false, some u⟩ →
      let t := s.microDecide e
      (t.eng e).sync = some ⟨7, 0, 0⟩ ∧ t.reg (Reg.teEmufault e) = BitVec.ofNat 32 (a % 4096 * 2 ^ 16 + k) ∧ t.microDepth e = d ∧
      (t.eng e).useq.fin = none ∧ (t.eng e).ports = u.ports ∧ (t.eng e).units = u.units ∧ (t.eng e).trap = none ∧
      t.reg (Reg.teEmumcnt e) = u.mcnt ∧ t.reg (Reg.teEmumir e) = u.mir ∧
      (∀ (m : PairId) b, b ∈ (t.eng e).sbuf[m] ↔ b ∈ (s.eng e).sbuf[m] ∧ b.seq < u.seq) ∧
      s.onlyEngine t e [Reg.teEmufault e, Reg.teEmumcnt e, Reg.teEmumir e, Reg.teEmuslip e, Reg.teEmustat e, Reg.teIft e])) ∧
  (
  ∀ (e : EngId) (st : Stall) (s : State) (w : Word) (x : Access),
    let z := if mwC w % 4 = 0 then 1 else if mwC w % 4 = 1 then 2 else 4
    let a := s.port e (40 + mwB w)
    let bs := s.readBytes x.sys z
    (microStands s e w 0x19 → w.getLsbD 3 = false → microLoads s e a z x →
      ∃ t, exec (.muMrd e st) s = .next t ∧
        t.port e (40 + mwA w) = BitVec.ofNat 32 (ofBytes (if w.getLsbD 2 then s.morder e bs else bs)) ∧
        microRuns s t e w false ((if x.split then 6 else 5) + st.toNat) [40 + mwA w] []) ∧
    (microStands s e w 0x1B → microLoads s e (s.port e sMPC) z x →
      ∃ t, exec (.muMfetch e st) s = .next t ∧ t.port e (40 + mwA w) = BitVec.ofNat 32 (ofBytes (s.morder e bs)) ∧
        t.port e sMPC = s.port e sMPC + BitVec.ofNat 32 z ∧
        microRuns s t e w false ((if x.split then 6 else 5) + st.toNat) [40 + mwA w, sMPC] []) ∧
    (microStands s e w 0x1A → w.getLsbD 3 = false → (s.eng e).sbuf[0].length < 4 → (s.eng e).lwait = [] →
      let ys := bytesOf z (s.port e (40 + mwA w)).toNat
      let zs := if w.getLsbD 2 then s.morder e ys else ys
      x = s.access e ⟨0, false, .write, z, false, a, wordOf zs, none⟩ → x.cause = 0 → s.wildSeg e a = false →
      ∃ t, exec (.muMwr e st) s = .next t ∧
        (t.eng e).sbuf[0] = (s.eng e).sbuf[0] ++ [⟨(s.eng e).seq, false, x.sys, zs, s.now, s.ofFrame e⟩] ∧ (t.eng e).sbuf[1] = (s.eng e).sbuf[1] ∧
        microRuns s t e w false (1 + st.toNat) [opO 10] []))

/-- xio.t:mcall in native code: with bit 31 clear it starts the microroutine that the Catalogue entry of its index names, in call mode,
with bit 31 set it enters emulation at the next dispatch; TE_LINK holds the address of the next group (R222, R223). A nanoword of two
moves that exchange general registers does so as a group, in 1 fc of work; a dispatch reads the macro instruction at MPC into MIR, takes
the Catalogue entry that its decode field selects, advances MPC by the instruction length and starts the microroutine at the entry's
address at the end of its period; an injection waits at the sequencer (R227, R238, R246). -/
def Obligations.SequencerStartsAndDispatches : Prop :=
  (
  ∀ (e : EngId) (w : Word) (s : State), lsuFree s e → (s.eng e).useq.run = false → (s.eng e).dly = 0 → (s.eng e).rep = 0 →
    (w.getLsbD 31 = false → storesQuiet s e → ofBytes (s.readBytes (catAddr e (w.toNat % 4096)) 2) ≠ 0xFFFF →
      ∃ t, exec (.xioMcall e w) s = .next t ∧ t.reg (Reg.teLink e) = (s.eng e).nxt ∧ t.call e = true ∧
        t.port e sUPC = BitVec.ofNat 32 (ofBytes (s.readBytes (catAddr e (w.toNat % 4096)) 2) % 4096) ∧
        (∀ k, k ≠ sUPC → t.port e k = s.port e k) ∧ (t.eng e).useq.run = true ∧ (t.eng e).useq.disp = false ∧
        (t.eng e).useq.start = s.now + 1 ∧ (t.eng e).pc = (s.eng e).nxt ∧
        s.sameEngines t e ∧ s.sameRegs t [Reg.teLink e, Reg.teEmustat e] ∧ s.sameBytes t) ∧
    (w.getLsbD 31 = true → s.hnd e = false → (s.frames e).run = none → s.emu e = false →
      ∃ t, exec (.xioMcall e w) s = .next t ∧ t.reg (Reg.teLink e) = (s.eng e).nxt ∧ t.emu e = true ∧
        (∀ k, t.port e k = s.port e k) ∧ (t.eng e).useq.run = true ∧ (t.eng e).useq.disp = true ∧
        (t.eng e).useq.start = s.now + 1 ∧ (t.eng e).pc = (s.eng e).nxt ∧ (t.eng e).lines = [] ∧
        s.onlyEngine t e [Reg.teLink e, Reg.teEmustat e])) ∧
  (
  (∀ (e : EngId) (st : Stall) (s : State) (w : Word) (a b : Nat), a < 64 → b < 64 → a ≠ b → 0x38 ≤ mwOp w →
    microStands s e w (mwOp w) → (s.eng e).injBpar = none → s.iftUsed e ≤ 256 →
    seqValue s e (nanoAddr e ((mwOp w - 0x38) * 64 + w.toNat % 64)) 32 = (swapWord a b).toNat →
    ∃ t, exec (.muNano e st) s = .next t ∧ swapped s t e a b ∧
      microRuns s t e w false (1 + st.toNat) [s.vKey e a, s.vKey e b] []) ∧
  (∀ (e : EngId) (s : State) (x : Access), s.microReady e true = true → (s.eng e).useq.dirty = false → (s.eng e).useq.injM = false →
    storesQuiet s e → microLoads s e (s.port e sMPC) 4 x →
    let dec := (s.reg (Reg.teEmudec e)).toNat
    let mir := BitVec.ofNat 32 (ofBytes (s.morder e (s.readBytes x.sys 4)))
    let i := (mir.toNat / 2 ^ (dec % 32) % 2 ^ (max 1 (min (dec / 2 ^ 8 % 16) 12)) + dec / 2 ^ 16 % 2 ^ 12) % 4096
    let c := seqValue s e (catAddr e i) 2
    c ≠ 0xFFFF →
    ∃ t, exec (.emuDispatch e) s = .next t ∧ t.reg (Reg.teEmumir e) = mir ∧
      t.port e sMPC = s.port e sMPC + BitVec.ofNat 32 ((s.reg (Reg.teEmucfg e)).toNat % 16) ∧
      t.port e sUPC = BitVec.ofNat 32 (c % 4096) ∧ (t.eng e).useq.disp = false ∧
      (t.eng e).useq.start = (s.eng e).useq.start + max ((c / 2 ^ 12 + 1) * s.emuBase e)
        (s.now - (s.eng e).useq.start + (if x.split then 7 else 6)) ∧
      (∀ k, k ≠ sMPC → k ≠ sUPC → t.port e k = s.port e k) ∧ s.sameEngines t e ∧ s.sameBytes t ∧
      s.sameRegs t [Reg.teEmumir e, Reg.teEmuslip e, Reg.teEmustat e]) ∧
  (∀ (e : EngId) (s : State), s.present e = true →
    (∃ t, exec (.teEmuinjMiss e) s = .next t ∧
      t.eng e = { s.eng e with useq := { (s.eng e).useq with injM := true } } ∧ s.onlyEngine t e []) ∧
    (∃ t, exec (.teEmuinjIpc e) s = .next t ∧
      t.eng e = { s.eng e with useq := { (s.eng e).useq with injI := true } } ∧ s.onlyEngine t e [])))

/-! Angle Bases (R24–R56) -/

/-- From `s` to `t` only base `b`, the registers of `rs` and, where the ring of the base is on, what its ring makes of the change
(R59, R72, R73) may differ. -/
def baseFrame (s t : State) (b : BaseId) (rs : List Nat) : Prop :=
  t = { s with csr := t.csr, bases := t.bases, alm := t.alm, pins := t.pins } ∧ (∀ c, c ≠ b → t.base c = s.base c) ∧
  s.sameRegs t (rs ++ [Reg.almRnext b, Reg.almRturn b, Reg.almStat, Reg.almGrpst]) ∧ s.sameBytes t ∧
  (s.ringOn b = false → t = { s with csr := t.csr, bases := t.bases } ∧ s.sameRegs t rs)

/-- What a counted transition forward or backward leaves in a base without an index event at it: the count modulo CPT, the turn count,
DIR and the event's time (R33, R34). -/
def countsOn (s t : State) (b : BaseId) (fwd : Bool) (ts : Stamp) : Prop :=
  let c := (s.reg (Reg.abCount b)).toNat % 2 ^ 28
  let cpt := (s.reg (Reg.abCpt b)).toNat % 2 ^ 28
  let wrap := if fwd then c + 1 == cpt else c == 0
  t.reg (Reg.abCount b) = BitVec.ofNat 32 (if fwd then (if wrap then 0 else c + 1) else (if wrap then cpt - 1 else c - 1)) ∧
  (t.base b).turn = (if wrap then (if fwd then (s.base b).turn + 1 else (s.base b).turn - 1) else (s.base b).turn) ∧
  t.abRev b = !fwd ∧ (t.base b).ref.t = ts ∧ (t.base b).last = some ts ∧ (t.base b).still = none ∧
  baseFrame s t b [Reg.abCount b, Reg.abStat b]

/-- An input change of base `b` at `ts` that `held` samples see is accepted and has its effect now: they are at least FILT + 1, its fc
c + FILT + 4 has come, and no receiver reports a line break (R27, R369). -/
def edgeNow (s : State) (b : BaseId) (ts : Stamp) (held : Nat) : Prop :=
  s.abFilt b < held ∧ s.edgeDue b ts ≤ s.fc ∧ ∀ r, s.broken r = false

/-- Quadrature and timed bases: a change of an input that fewer than FILT + 1 samples see is discarded, one that is accepted before its fc
waits for it, and then a transition that DEC counts moves the count by one in the direction of the lines, a T0 edge forward or as T1 says;
a T1 edge makes the next T0 edge an index event, and an index event in mode 2 takes the count to 0 with the deviation in AB_ZDEV (R27,
R33–R35, R37). An SSI base: a frame runs from SSI_FRAME, PERIOD fc after the one before, to its sample; a sample without its start or stop
level is rejected with REJ; the first accepted one sets VALID and gives turn and fraction of its word, plus the loaded offset, as the
reference phase. That VALID comes with the first accepted sample rests on log 12. (R38, R40). -/
def Obligations.EncoderSamplesGivePhase : Prop :=
  (
  (∀ (b : BaseId) (ev : QuadEdge) (s : State),
    let x := s.base b
    let idx := if x.z != ev.z then ev.z else x.idx
    let dec := (s.reg (Reg.abCfg b)).toNat / 2 ^ 4 % 4
    let fwd := if x.a != ev.a then ev.a != ev.b else ev.a == ev.b
    s.takes b 1 = true → edgeNow s b ev.ts ev.held → x.injIll = false → (x.a ≠ ev.a ∧ x.b = ev.b ∧ (dec ≠ 0 ∨ ev.b = false) ∨ x.a = ev.a ∧ x.b ≠ ev.b ∧ 2 ≤ dec) →
    ((idx = false ∨ s.zmode b = 0) →
      ∃ t, exec (.quadratureTransition b ev) s = .next t ∧ countsOn s t b fwd ev.ts ∧
        (t.base b).a = ev.a ∧ (t.base b).b = ev.b ∧ (t.base b).z = ev.z) ∧
    (idx = true → s.zmode b = 2 →
      let c := (s.reg (Reg.abCount b)).toNat % 2 ^ 28
      let cpt := s.cpt b
      let n := if fwd then (if c + 1 = cpt then 0 else c + 1) else (if c = 0 then cpt - 1 else c - 1)
      let d : Int := if 2 * n < cpt then n else (n : Int) - cpt
      ∃ t, exec (.quadratureTransition b ev) s = .next t ∧ t.reg (Reg.abCount b) = 0 ∧
        (d ≠ 0 → t.rbit (Reg.abStat b) 9 = true ∧ t.reg (Reg.abZdev b) = BitVec.ofInt 32 d) ∧ (t.base b).homed = true ∧
        baseFrame s t b [Reg.abCount b, Reg.abStat b, Reg.abZdev b])) ∧
  (∀ (b : BaseId) (x : RawEdge) (t1 : Bool) (s : State), s.takes b 3 = true → edgeNow s b x.ts x.held → (s.base b).injIll = false →
    ((s.base b).idx = false ∨ s.zmode b = 0) →
    ∃ t, exec (.timedT0Edge b x t1) s = .next t ∧
      countsOn s t b (!((s.reg (Reg.abCfg b)).toNat / 2 ^ 4 % 4 == 1 && t1)) x.ts) ∧
  (∀ (b : BaseId) (ev : QuadEdge) (x : RawEdge) (c : Bool) (s : State),
    (ev.held ≤ s.abFilt b → exec (.quadratureTransition b ev) s = .next s) ∧
    (x.held ≤ s.abFilt b → exec (.timedT0Edge b x c) s = .next s ∧ exec (.timedT1Edge ⟨b, x⟩) s = .next s ∧
      exec (.mainsCrossing b c x) s = .next s) ∧
    ((∀ r, s.broken r = false) → s.abFilt b < ev.held → s.fc < s.edgeDue b ev.ts →
      ∃ t, exec (.quadratureTransition b ev) s = .next t ∧
        t.base b = { s.base b with edges := (s.base b).edges ++ [(s.edgeDue b ev.ts, .quad ev)] } ∧ baseFrame s t b []) ∧
    ((∀ r, s.broken r = false) → s.abFilt b < x.held → s.fc < s.edgeDue b x.ts →
      (∃ t, exec (.timedT0Edge b x c) s = .next t ∧
        t.base b = { s.base b with edges := (s.base b).edges ++ [(s.edgeDue b x.ts, .t0 x.ts c)] } ∧ baseFrame s t b []) ∧
      (∃ t, exec (.mainsCrossing b c x) s = .next t ∧
        t.base b = { s.base b with edges := (s.base b).edges ++ [(s.edgeDue b x.ts, .mains c x.ts)] } ∧ baseFrame s t b []))) ∧
  (∀ (b : BaseId) (x : RawEdge) (s : State), s.takes b 3 = true → edgeNow s b x.ts x.held →
    (s.reg (Reg.abCfg b)).toNat / 2 ^ 4 % 4 ≠ 1 →
    ∃ t, exec (.timedT1Edge ⟨b, x⟩) s = .next t ∧ t.base b = { s.base b with idx := true } ∧
      t = { s with bases := t.bases } ∧ ∀ c, c ≠ b → t.base c = s.base c)) ∧
  (
  (∀ (b : BaseId) (s : State), s.takes b 2 = true → (∀ f, (s.base b).frameAt = some f → f + (s.reg (Reg.abSrc2 b)).toNat % 2 ^ 20 ≤ s.now) →
    ∃ t, exec (.ssiFrame b) s = .next t ∧ t.base b = { s.base b with ssiRun := true, frameAt := some s.now } ∧
      t = { s with bases := t.bases } ∧ ∀ c, c ≠ b → t.base c = s.base c) ∧
  (∀ (b : BaseId) (raw : SsiWord) (s : State), s.takes b 2 = true → (s.base b).ssiRun = true →
    (∀ r, s.broken r = false) →
    ((s.base b).injRej = true ∨ raw.startHigh = false ∨ raw.endLow = false →
      ∃ t, exec (.ssiSample b raw) s = .next t ∧ t.reg (Reg.abStat b) = s.reg (Reg.abStat b) ||| 0x4000 ∧
        t.base b = { s.base b with ssiRun := false, injRej := false } ∧ baseFrame s t b [Reg.abStat b]) ∧
    ((s.base b).injRej = false → raw.startHigh = true → raw.endLow = true → (s.base b).ssi = none →
      let n := s.ssiBits b
      let st := n - s.ssiTurns b
      let w := if s.rbit (Reg.abSrc1 b) 12 then grayBits (raw.word.toNat % 2 ^ n) n else raw.word.toNat % 2 ^ n
      let ts := raw.clock + BitVec.ofNat 64 ((s.reg (Reg.abSrc2 b)).toNat / 2 ^ 20 % 2 ^ 12 * 8)
      ∃ t, exec (.ssiSample b raw) s = .next t ∧ t.abStored b = true ∧ (t.base b).ssiRun = false ∧
        (t.base b).ssi = some (BitVec.ofNat 40 w) ∧
        (t.base b).ref = ⟨(BitVec.ofNat 32 (w / 2 ^ st) ++ BitVec.ofNat 32 (w % 2 ^ st * 2 ^ (32 - st)) : DWord) + (s.base b).offs, ts⟩ ∧
        (t.base b).last = some ts ∧ baseFrame s t b [Reg.abStat b])))

/-- A mains base: the first crossing is the reference; a crossing within the bounds after the last one is accepted, moves the velocity
towards the measured one by its K-th part and counts towards LOCK and VALID, which the eighth one sets; any other crossing after the
blanking, and a crossing not seen in time, is rejected with REJ, and the fourth rejected one in a row clears LOCK. That the first crossing
is a reference only rests on log 12, blanking from it on log 126, and the reference past the upper bound on log 101. (R42, R43). Velocity
and silence: a computed velocity is in use from its fc on; a base without an event for AB_SILT fc reports SILENT, holds its phase and
loses its velocity and, for mains and received bases, LOCK; a virtual master adds its velocity, moved towards the target by the
acceleration, to its accumulator. Which bases the silence timeout watches rests on log 126, and the corner values of a received base on
log 101. (R27, R31, R47). -/
def Obligations.MainsLockVelocityAndSilence : Prop :=
  (
  (∀ (b : BaseId) (rising : Bool) (ts : Stamp) (held : Nat) (s : State), s.takes b 4 = true → edgeNow s b ts held →
    (rising = true ∨ s.rbit (Reg.abSrc1 b) 4 = true) →
    ((s.base b).cross = none →
      ∃ t, exec (.mainsCrossing b rising ⟨ts, held⟩) s = .next t ∧ t.base b = { s.base b with cross := some ts, expect := ts } ∧
        baseFrame s t b []) ∧
    (∀ prev, (s.base b).cross = some prev → (s.reg (Reg.abSrc1 b)).toNat / 2 ^ 8 % 2 ^ 16 * 8000 < (ts - prev).toNat →
      let both := s.rbit (Reg.abSrc1 b) 4
      let lo := if both then 60000000 else 120000000
      let hi := if both then 90000000 else 180000000
      (lo ≤ (ts - prev).toNat → (ts - prev).toNat ≤ hi →
        let turn := if rising then (s.base b).turn + 1 else (s.base b).turn
        let v0 : Int := match (s.base b).vq.getLast? with | some q => q.2.toInt | none => (s.base b).v.toInt
        let vm : Int := Int.tdiv ((if both then 2 ^ 31 else 2 ^ 32) * 2 ^ 35) (ts - prev).toInt
        let k := min 8 ((s.reg (Reg.abSrc1 b)).toNat % 16)
        ∃ t, exec (.mainsCrossing b rising ⟨ts, held⟩) s = .next t ∧
          (t.base b).ref = ⟨(turn ++ (if rising then 0 else 0x8000_0000 : Word) : DWord), ts⟩ ∧ (t.base b).turn = turn ∧
          (t.base b).cross = some ts ∧ (t.base b).good = (s.base b).good + 1 ∧ (t.base b).bad = 0 ∧
          (t.base b).vq = (s.base b).vq ++ [(s.velDue b ts, BitVec.ofInt 64 (v0 + Int.fdiv (vm - v0) (2 ^ k)))] ∧
          ((s.base b).good = 7 → t.rbit (Reg.abStat b) 3 = true ∧ ((s.base b).homed = false → t.abStored b = true)) ∧ baseFrame s t b [Reg.abStat b]) ∧
      ((ts - prev).toNat < lo ∨ hi < (ts - prev).toNat →
        ∃ t, exec (.mainsCrossing b rising ⟨ts, held⟩) s = .next t ∧ t.rbit (Reg.abStat b) 14 = true ∧ (t.base b).good = 0 ∧
          (t.base b).bad = (s.base b).bad + 1 ∧ (3 ≤ (s.base b).bad → t.rbit (Reg.abStat b) 3 = false) ∧
          (t.base b).cross = (if hi < (ts - prev).toNat then some ts else some prev) ∧ baseFrame s t b [Reg.abStat b]))) ∧
  (∀ (b : BaseId) (s : State) (prev : Stamp), s.takes b 4 = true → (s.base b).cross = some prev →
    (if s.rbit (Reg.abSrc1 b) 4 then 90000000 else 180000000) < (s.stamp - (s.base b).expect).toNat →
    ∃ t, exec (.mainsCrossingTimeout b) s = .next t ∧ t.rbit (Reg.abStat b) 14 = true ∧ (t.base b).bad = (s.base b).bad + 1 ∧
      (3 ≤ (s.base b).bad → t.rbit (Reg.abStat b) 3 = false) ∧ (t.base b).cross = some prev ∧
      (t.base b).expect = (s.base b).expect + (if s.rbit (Reg.abSrc1 b) 4 then 90000000 else 180000000) ∧
      baseFrame s t b [Reg.abStat b])) ∧
  (
  (∀ (b : BaseId) (s : State) (c v : DWord) (vq : List (DWord × DWord)), (s.base b).vq = (c, v) :: vq → c ≤ s.fc →
    ∃ t, exec (.velocityUpdate b) s = .next t ∧ t.base b = { s.base b with v := v, vq := vq } ∧ baseFrame s t b []) ∧
  (∀ (b : BaseId) (s : State), s.abEn b = true → s.abBad b = false → s.abSrc b ∈ [1, 2, 3, 4, 5] →
    (s.reg (Reg.abSilt b)) ≠ 0 → (s.base b).still = none → s.lastFc b + (s.reg (Reg.abSilt b)).toNat ≤ s.fc.toNat →
    ∃ t, exec (.silenceTimeout b) s = .next t ∧ t.rbit (Reg.abStat b) 10 = true ∧
      t.base b = { s.base b with still := some (s.phase b), v := 0, vq := [], good := 0 } ∧ t.phase b = s.phase b ∧
      (4 ≤ s.abSrc b → t.rbit (Reg.abStat b) 3 = false) ∧ baseFrame s t b [Reg.abStat b]) ∧
  (∀ (b : BaseId) (s : State), s.takes b 6 = true → (s.base b).vmAt ≠ some s.now →
    let x := s.base b
    ∃ t v, exec (.virtualMasterAccumulation b) s = .next t ∧
      (x.va = 0 → v = x.v) ∧
      (x.va ≠ 0 → x.v.toInt < x.vt.toInt → v = BitVec.ofInt 64 (min (x.v.toInt + x.va.toNat) x.vt.toInt)) ∧
      (x.va ≠ 0 → x.vt.toInt < x.v.toInt → v = BitVec.ofInt 64 (max (x.v.toInt - x.va.toNat) x.vt.toInt)) ∧
      (x.vt = x.v → v = x.v) ∧ t.base b = { x with v := v, acc := x.acc + v.signExtend 96, vmAt := some s.now, vmV := x.v } ∧ baseFrame s t b []))

/-- Staged changes, enable and disable: APPLY arms and CANCEL disarms; once the Time Base has reached AB_AT, in a later fc than APPLY, the
target velocity and acceleration of a virtual master, with WITHPH its accumulator, the count of a counting base below CPT, or the offset
of an SSI base is loaded and ARMED clears; a count from CPT on sets CFGERR and is not loaded; EN set clears count, velocity and window and
sets VALID or CFGERR as the source prescribes, and EN cleared holds phase and velocity at 0. What an enable clears and keeps rests on log
101 and 126. (R33, R39, R40, R47, R48, R50). Reads, checks and broadcasts of a base: a read of a low word answers it and leaves its high
word in the register beside it; a lockstep mismatch is reported once, raises exception 12 at the engines of AB_LSDEST and with LSINV
clears VALID; an injection waits; a due broadcast is noted and the snapshot is on its way to the bases that follow this node. Corner
values of AB_EDGE rest on log 101. (R25, R44, R45, R51, R55). -/
def Obligations.BasesAreSetReadAndChecked : Prop :=
  (
  (∀ (b : BaseId) (s : State), ∃ t, exec (.abApply b) s = .next t ∧ t.reg (Reg.abStat b) = s.reg (Reg.abStat b) ||| 0x20 ∧
    t.base b = { s.base b with armAt := s.now } ∧ baseFrame s t b [Reg.abStat b]) ∧
  (∀ (b : BaseId) (s : State), ∃ t, exec (.abCancel b) s = .next t ∧ t.reg (Reg.abStat b) = s.reg (Reg.abStat b) &&& ~~~0x20 ∧
    s.onlyRegs t [Reg.abStat b]) ∧
  (∀ (b : BaseId) (s : State), s.rbit (Reg.abStat b) 5 = true → s.tmrOn = true → s.abAt b ≤ s.fc → (s.base b).armAt < s.now →
    (s.abSrc b = 6 → s.rbit (Reg.abCtl b) 3 = false →
      let vt : DWord := s.reg (Reg.abSrc2 b) ++ s.reg (Reg.abSrc1 b)
      let va := s.reg (Reg.abVmacc b)
      ∃ t, exec (.stagedChangeApply b) s = .next t ∧ t.rbit (Reg.abStat b) 5 = false ∧
        t.base b = { s.base b with vt := vt, va := va, v := if va = 0 then vt else (s.base b).v } ∧
        baseFrame s t b [Reg.abStat b]) ∧
    (s.abSrc b = 6 → s.rbit (Reg.abCtl b) 3 = true →
      ∃ t, exec (.stagedChangeApply b) s = .next t ∧ t.rbit (Reg.abStat b) 5 = false ∧
        (t.base b).vt = s.reg (Reg.abSrc2 b) ++ s.reg (Reg.abSrc1 b) ∧ (t.base b).va = s.reg (Reg.abVmacc b) ∧
        (t.base b).acc = (s.reg (Reg.abPreHi b) ++ s.reg (Reg.abPreLo b) ++ (0 : Word) : BitVec 96) ∧
        (t.base b).vmAt = some s.now ∧ t.rbit (Reg.abStat b) 15 = true ∧ baseFrame s t b [Reg.abStat b]) ∧
    (s.abSrc b = 1 ∨ s.abSrc b = 3 → s.rbit (Reg.abCtl b) 3 = true → s.cpt b ≤ (s.reg (Reg.abPreLo b)).toNat →
      ∃ t, exec (.stagedChangeApply b) s = .next t ∧ t.rbit (Reg.abStat b) 5 = false ∧ t.rbit (Reg.abStat b) 4 = true ∧
        s.onlyRegs t [Reg.abStat b]) ∧
    (s.abSrc b = 1 ∨ s.abSrc b = 3 → s.rbit (Reg.abCtl b) 3 = true → (s.reg (Reg.abPreLo b)).toNat < s.cpt b →
      ∃ t, exec (.stagedChangeApply b) s = .next t ∧ t.rbit (Reg.abStat b) 5 = false ∧
        t.reg (Reg.abCount b) = s.reg (Reg.abPreLo b) ∧ (t.base b).turn = s.reg (Reg.abPreHi b) ∧ (t.base b).win = [] ∧
        (t.base b).v = 0 ∧ (t.base b).ref.t = s.fc <<< 3 ∧ t.rbit (Reg.abStat b) 15 = true ∧
        baseFrame s t b [Reg.abStat b, Reg.abCount b]) ∧
    (s.abSrc b = 2 → s.rbit (Reg.abCtl b) 3 = true →
      ∃ t, exec (.stagedChangeApply b) s = .next t ∧ t.rbit (Reg.abStat b) 5 = false ∧
        (t.base b).offs = s.reg (Reg.abPreHi b) ++ s.reg (Reg.abPreLo b) ∧ t.rbit (Reg.abStat b) 15 = true ∧
        baseFrame s t b [Reg.abStat b])) ∧
  (∀ (b : BaseId) (s : State), s.abEn b = false →
    let src := s.abSrc b
    let bad := (src = 1 ∨ src = 3) ∧ s.cpt b = 0 ∨ src = 2 ∧ s.ssiBad b = true
    let valid := ¬bad ∧ ((src = 1 ∨ src = 3) ∧ (s.zmode b = 0 ∨ s.zmode b = 3) ∨ src = 5 ∨ src = 6)
    ∃ t, exec (.baseEnable b) s = .next t ∧ t.abEn b = true ∧ t.reg (Reg.abCount b) = 0 ∧ (t.abStored b = true ↔ valid) ∧
      (t.rbit (Reg.abStat b) 4 = true ↔ bad) ∧ t.abRev b = false ∧ t.rbit (Reg.abStat b) 2 = false ∧ (t.base b).v = 0 ∧
      (t.base b).win = [] ∧ (t.base b).turn = 0 ∧ (t.base b).since = s.fc ∧ (t.base b).snaps = [] ∧
      baseFrame s t b [Reg.abCtl b, Reg.abCount b, Reg.abStat b]) ∧
  (∀ (b : BaseId) (s : State), ∃ t, exec (.baseDisable b) s = .next t ∧ t.abEn b = false ∧ t.abStored b = false ∧ t.phase b = 0 ∧
    t.velAt b t.stamp = 0 ∧ t.base b = s.base b ∧ baseFrame s t b [Reg.abCtl b, Reg.abStat b])) ∧
  (
  (∀ (b : BaseId) (s : State),
    (∃ t, exec (.phaseRead b .phase) s = .next t ∧ t.rdata = [(s.phase b).setWidth 32] ∧
      t.reg (Reg.abPhHi b) ++ (s.phase b).setWidth 32 = s.phase b ∧
      t = { s with csr := t.csr, rdata := t.rdata } ∧ s.sameRegs t [Reg.abPhHi b]) ∧
    (∃ t, exec (.phaseRead b .velocity) s = .next t ∧ t.rdata = [(s.velAt b s.stamp).setWidth 32] ∧
      t.reg (Reg.abVelHi b) ++ (s.velAt b s.stamp).setWidth 32 = s.velAt b s.stamp ∧
      t = { s with csr := t.csr, rdata := t.rdata } ∧ s.sameRegs t [Reg.abVelHi b]) ∧
    (∃ t, exec (.phaseRead b .edge) s = .next t ∧ t.rdata = [((s.base b).last.getD 0).setWidth 32] ∧
      t.reg (Reg.abEdgeHi b) ++ ((s.base b).last.getD 0).setWidth 32 = (s.base b).last.getD 0 ∧
      t = { s with csr := t.csr, rdata := t.rdata } ∧ s.sameRegs t [Reg.abEdgeHi b])) ∧
  (∀ (b : BaseId) (s : State), (s.base b).lsOff = false →
    ∃ t, exec (.angleLockstepMismatch b) s = .next t ∧ t.rbit (Reg.abStat b) 12 = true ∧
      t.base b = { s.base b with lsOff := true } ∧ (s.rbit (Reg.abCfg b) 12 = true → t.abStored b = false) ∧
      (∀ e : EngId, (s.reg (Reg.abLsdest b)).getLsbD e.val = true → s.present e = true → (s.eng e).clocked = true →
        (t.reg (Reg.teApend e)).getLsbD 12 = true ∧ ∃ n, (12, n) ∈ (t.eng e).apend) ∧
      (∀ e : EngId, (s.reg (Reg.abLsdest b)).getLsbD e.val = false → t.eng e = s.eng e) ∧
      (∀ c, c ≠ b → t.base c = s.base c) ∧ s.sameBytes t) ∧
  (∀ (b : BaseId) (s : State),
    (∃ t, exec (.angInjSsirej b) s = .next t ∧ t.base b = { s.base b with injRej := true } ∧ baseFrame s t b []) ∧
    (∃ t, exec (.angInjIll b) s = .next t ∧ t.base b = { s.base b with injIll := true } ∧ baseFrame s t b []) ∧
    (∃ t, exec (.angInjLs b) s = .next t ∧ t.base b = { s.base b with injLs := true } ∧ baseFrame s t b [])) ∧
  (∀ (b : BaseId) (s : State), s.rbit (Reg.abBc b) 0 = true → s.tmrOn = true →
    (∀ c, (s.base b).bcAt = some c → c.toNat + max 1000 ((s.reg (Reg.abBc b)).toNat / 2 ^ 8) ≤ s.fc.toNat) →
    ∃ t, exec (.angleSnapshot b) s = .next t ∧ t.base b = { s.base b with bcAt := some s.fc } ∧
      t.hl.loop = s.hl.loop ++ [(s.now + 2, b, s.snapshot b)] ∧ (∀ c, c ≠ b → t.base c = s.base c) ∧
      t.engines = s.engines ∧ s.sameBytes t))

/-! The Almanac, event pins and frames (R57–R91) -/

/-- One more Error Log entry is raised in this fc: that of `code`, with the present Time Base (R415). -/
def logged (s t : State) (code unit detail : Nat) (w3 : Word) : Prop :=
  t.logn.length = s.logn.length + 1 ∧ ⟨s.fc, BitVec.ofNat 32 (code * 2 ^ 24 + unit * 2 ^ 16 + detail), w3⟩ ∈ t.logn

/-- The inbound queue `q` becomes `q'` as message `m` arrives: behind every message of an earlier fc, and among those of its own fc in
the order Almanac posts, engines by logical number, other nodes (R113). -/
def arrives (q q' : List InMsg) (m : InMsg) : Prop :=
  ∃ l r, q = l ++ r ∧ q' = l ++ m :: r ∧ (∀ x ∈ l, x.at' = m.at' → x.rank ≤ m.rank) ∧
    ∀ x, r.head? = some x → x.at' = m.at' ∧ m.rank < x.rank

/-- The head of the lookahead of ring `r`, which the prediction of this fc makes `h`, with `hs` behind it, is predicted for `tp` and in
time, may be acted on in this fc, and no step of the phase is under way (R59, R61, R65, R66). -/
def headStands (s : State) (r : BaseId) (h : Look) (hs : List Look) (tp : Stamp) : Prop :=
  (∃ g, (s.ring r).look = g :: hs ∧ s.lookPredict r g = h) ∧
  s.ringActs r = true ∧ (s.ring r).actAt ≠ some s.now ∧ (s.ring r).stepTo = none ∧
  (s.ring r).stepN = none ∧ h.tp = some tp ∧ h.late = some false ∧ h.order = false ∧ h.failed = false ∧
  h.once = false ∧ h.slot < 2 ^ 14

/-- The head has left the lookahead and the walker of the ring stands at the slot after it (R59, R66). -/
def passed (s t : State) (r : BaseId) (h : Look) (hs : List Look) : Prop :=
  (t.ring r).look = hs.map (s.lookPredict r) ∧ (t.ring r).actAt = some s.now ∧
  t.reg (Reg.almRnext r) = BitVec.ofNat 32 (s.ringAfter r h.slot h.turn).1 ∧
  t.reg (Reg.almRturn r) = (s.ringAfter r h.slot h.turn).2 ∧ ∀ q, q ≠ r → t.ring q = s.ring q

/-- Walking a ring: the walker serves, in round-robin order, the first ring after the last one served for which it can read, and WALKER_READ
takes the four words of the next slot into a free place of its lookahead; a slot that breaks the ring order is flagged and logged.
ENTRY_PERFORM, once the head's time has come, passes a disabled slot, clears DEFER of a deferred one, sends the frame request of a dispatch with its
descriptor's words to the engine that its mask names, and puts a post into the inbound queue of its engine (R59–R64, R66, R75, R113). -/
def Obligations.WalkerPerformsEntries : Prop :=
  (∀ (r : BaseId) (s : State), s.walkPick = some r ↔
    s.walkable r = true ∧ ∀ q : BaseId, (q - s.alm.last - 1).val < (r - s.alm.last - 1).val → s.walkable q = false) ∧
  (∀ (r : BaseId) (s : State), s.walkPick = some r → s.walkFree = true → (∀ x ∈ s.mtx.inj, x.1 ≠ 17) → s.ecc.bad = [] → s.ecc.injUe = [] → s.ecc.injCe = [] →
    let n := s.walkNext r
    ∃ t h, exec (.walkerRead r) s = .next t ∧ (t.ring r).look = (s.ring r).look ++ [h] ∧ h.slot = n.1 ∧ h.turn = n.2 ∧
      h.frac = s.memWord (slotAddr n.1 0) ∧ h.ctl = s.memWord (slotAddr n.1 1) ∧ h.lo = s.memWord (slotAddr n.1 2) ∧
      h.hi = s.memWord (slotAddr n.1 3) ∧ h.failed = false ∧ h.order = s.outOfOrder r n.1 h.frac ∧
      (h.order = true → t.rbit Reg.almStat 9 = true ∧ (n.1 < 2 ^ 14 → logged s t 0x10 r.val n.1 h.frac)) ∧
      (h.order = false → t.logn = s.logn) ∧ t.alm.walkAt = some s.now ∧ t.alm.last = r ∧ (∀ q, q ≠ r → t.ring q = s.ring q) ∧
      s.sameBytes t ∧ t.engines = s.engines ∧ t.pins = s.pins) ∧
  (∀ (r : BaseId) (s : State) (h : Look) (hs : List Look) (tp : Stamp), headStands s r h hs tp → h.isEdge = false →
    tp.toNat < 8 * (s.fc.toNat + 1) →
    (h.en = false → h.defer = false → ∃ t, exec (.entryPerform r) s = .next t ∧ passed s t r h hs ∧
      t = { s with csr := t.csr, alm := t.alm } ∧ s.sameRegs t [Reg.almRnext r, Reg.almRturn r] ∧ s.sameBytes t) ∧
    (h.defer = true → s.ecc.bad = [] → ∃ t, exec (.entryPerform r) s = .next t ∧ passed s t r h hs ∧
      t.memWord (slotAddr h.slot 1) = s.memWord (slotAddr h.slot 1) &&& 0xDFFF_FFFF ∧
      (∀ a, (∀ i, i < 4 → memKey a ≠ slotAddr h.slot 1 + i) → t.readByte a = s.readByte a) ∧
      t = { s with csr := t.csr, alm := t.alm, mem := t.mem, ecc := t.ecc } ∧ s.sameRegs t [Reg.almRnext r, Reg.almRturn r]) ∧
    (h.en = true → h.defer = false → h.act = 1 → s.power = .run → s.elDrop = false → ∀ (l : Fin 16) (e : EngId),
      h.lo = BitVec.ofNat 32 (2 ^ l.val) → s.phys l.val = some e →
      (s.frames e).skip.contains (h.ctl.toNat % 2 ^ 10) = false →
      let d := h.ctl.toNat % 2 ^ 10
      ∃ t f, exec (.entryPerform r) s = .next t ∧ passed s t r h hs ∧
        t.frames e = { s.frames e with transit := (s.frames e).transit ++ [f] } ∧
        f.desc = d ∧ f.entry = s.reg (Reg.almFd d 0) ∧ f.budget = s.reg (Reg.almFd d 1) ∧ f.dloff = s.reg (Reg.almFd d 2) ∧
        f.policy = s.reg (Reg.almFd d 3) ∧ f.arg = h.hi ∧ f.phase = (h.turn ++ h.frac : DWord) ∧ f.time = tp ∧ f.fire = s.now ∧ f.base = r ∧
        (∀ g, g ≠ e → t.frames g = s.frames g) ∧ t = { s with csr := t.csr, alm := t.alm } ∧
        s.sameRegs t [Reg.almRnext r, Reg.almRturn r] ∧ s.sameBytes t) ∧
    (h.en = true → h.defer = false → h.act = 4 → h.ctl.getLsbD 15 = false → ∀ e : EngId, s.phys (h.ctl.toNat % 16) = some e →
      (s.eng e).inq.length < 16 →
      ∃ t, exec (.entryPerform r) s = .next t ∧ passed s t r h hs ∧
        arrives (s.eng e).inq (t.eng e).inq ⟨BitVec.ofNat 32 (2 ^ 31 + 2 ^ 28 + r.val), h.lo, h.hi, s.now⟩ ∧
        t.eng e = { s.eng e with inq := (t.eng e).inq } ∧
        s.sameEngines t e ∧ s.sameRegs t [Reg.almRnext r, Reg.almRturn r] ∧ s.sameBytes t))

/-- The Almanac table: a naturally aligned write within a slot stores its bytes, except that DEFER of the CTL word of a live entry in the
slot of a ring that walks becomes 1 exactly where the slot stands at or after NEXT and the phase has reached it in the present turn; a
message or a CTL word at the head of an outbound queue reaches its destination (R57, R70, R115, R116). Enables: a ring whose slots overlap
no other ring's starts at its resync position with an empty lookahead, one that overlaps is refused with ALM_STAT.BADENT; a disabled ring
stops; ALM_CTL.EN starts and stops the rings as a whole (R58, R59, R91). -/
def Obligations.TablesAndRings : Prop :=
  (
  (∀ (slot : Slot) (off : SlotOffset) (z : TableSize) (data : Quad) (s : State), off.val % tableBytes z = 0 → s.ecc.bad = [] →
    ∃ t, exec (.tableWrite slot off z data) s = .next t ∧
      (∀ i, i < tableBytes z → (off.val + i ≠ 7 ∨ s.ringOf slot.val = none) →
        t.readByte (slotAddr slot.val 0 + off.val + i) = BitVec.ofNat 8 (data.toNat / 2 ^ (8 * i))) ∧
      (∀ a, (∀ i, i < 16 → (i < off.val ∨ off.val + tableBytes z ≤ i) ∧ (i ≠ 7 ∨ s.ringOf slot.val = none) ∨
        memKey a ≠ slotAddr slot.val 0 + i) → t.readByte a = s.readByte a) ∧
      (∀ r, s.ringOf slot.val = some r → s.ringOn r = true → s.abValid r = true → (t.memWord (slotAddr slot.val 1)).getLsbD 31 = true →
        ((t.memWord (slotAddr slot.val 1)).getLsbD 29 = true ↔ (s.reg (Reg.almRnext r)).toNat % 2 ^ 14 ≤ slot.val ∧
          ((s.reg (Reg.almRturn r) ++ t.memWord (slotAddr slot.val 0) : DWord) - s.phase r).toInt ≤ 0)) ∧
      (s.ringOf slot.val = none → t = { s with mem := t.mem, ecc := t.ecc, free := t.free }) ∧ s.sameRegs t [Reg.almStat] ∧
      t = { s with mem := t.mem, alm := t.alm, csr := t.csr, logn := t.logn, ecc := t.ecc, free := t.free }) ∧
  (∀ (e d : EngId) (s : State) (m : OutMsg) (ms : List OutMsg), (s.eng e).outq = m :: ms → m.trig < s.now →
    (s.eng e).outAt ≠ some s.now → (s.eng e).undo = none →
    (m.alw = false → m.dst.getLsbD 15 = false → s.phys (m.dst.toNat % 16) = some d → (s.eng d).inq.length < 16 →
      ∃ t, exec (.outboundDelivery e) s = .next t ∧
        arrives (s.eng d).inq (t.eng d).inq ⟨BitVec.ofNat 32 (2 ^ 31 + s.logical e), m.lo, m.hi, s.now⟩ ∧ (t.eng e).outq = ms ∧
        (t.eng e).outAt = some s.now ∧ (∀ f, f ≠ e → f ≠ d → t.eng f = s.eng f) ∧ t = { s with engines := t.engines }) ∧
    (m.alw = true → s.tableStoreOpen e m.seq = false → s.ecc.bad = [] → m.dst.toNat < 2 ^ 14 → s.ringOf m.dst.toNat = none →
      ∃ t, exec (.outboundDelivery e) s = .next t ∧ t.memWord (slotAddr m.dst.toNat 1) = m.lo ∧ (t.eng e).outq = ms ∧
        (∀ a, (∀ i, i < 4 → memKey a ≠ slotAddr m.dst.toNat 1 + i) → t.readByte a = s.readByte a) ∧ s.sameEngines t e ∧
        t = { s with mem := t.mem, engines := t.engines, ecc := t.ecc }))) ∧
  (
  (∀ (r : BaseId) (s : State), s.rbit (Reg.almRctl r) 0 = false →
    (s.ringRefused r = false →
      ∃ t, exec (.ringEnable r) s = .next t ∧ t.rbit (Reg.almRctl r) 0 = true ∧ (t.ring r).look = [] ∧
        t.reg (Reg.almRnext r) = BitVec.ofNat 32 (match s.firstAbove ((s.phase r).setWidth 32) (s.ringBase r) (s.ringLen r) with
          | some k => k | none => s.ringBase r) ∧
        t.rbit Reg.almStat 15 = true ∧ (∀ q, q ≠ r → t.ring q = s.ring q) ∧ s.sameBytes t) ∧
    (s.ringRefused r = true →
      ∃ t, exec (.ringEnable r) s = .next t ∧ t.rbit (Reg.almRctl r) 0 = false ∧ t.rbit Reg.almStat 10 = true ∧
        s.onlyRegs t [Reg.almStat])) ∧
  (∀ (r : BaseId) (s : State), ∃ t, exec (.ringDisable r) s = .next t ∧ t.rbit (Reg.almRctl r) 0 = false ∧ (t.ring r).look = [] ∧
    (∀ q, q ≠ r → t.ring q = s.ring q) ∧ t = { s with csr := t.csr, alm := t.alm } ∧ s.sameRegs t [Reg.almRctl r]) ∧
  (∀ s : State, s.rbit Reg.almCtl 0 = false → ∃ t, exec .almanacEnable s = .next t ∧ t.rbit Reg.almCtl 0 = true ∧
    t.alm.lsOff = false ∧ t.alm.lsSafe = false ∧ (∀ p, (s.pin p).owner = .almanac → (t.pin p).down = false) ∧
    (∀ r : BaseId, s.rbit (Reg.almRctl r) 0 = true → (t.ring r).look = []) ∧
    (∀ r : BaseId, s.rbit (Reg.almRctl r) 0 = false → t.ring r = s.ring r) ∧ t.engines = s.engines ∧ s.sameBytes t) ∧
  (∀ s : State, ∃ t, exec .almanacDisable s = .next t ∧ t.rbit Reg.almCtl 0 = false ∧ (∀ r, (t.ring r).look = []) ∧
    t = { s with csr := t.csr, alm := t.alm } ∧ s.sameRegs t [Reg.almCtl]))

/-- The causes BUDGET (1) and PHASE (2) that frame `f` has by now (R79, R80). -/
def causesOf (s : State) (f : FReq) : Nat :=
  (if f.budget ≠ 0 ∧ f.budget.toNat < s.now - f.fire then 1 else 0) +
  (if f.dloff ≠ 0 ∧ s.abValid f.base = true ∧ (s.phase f.base - (f.phase + f.dloff.setWidth 64)).msb = false then 2 else 0)

/-- A miss of frame `f` of engine `e` with the skip policy is on record: ALM_FMISS holds its descriptor and the causes, it is logged, the
miss count has advanced, and the next request of the frame is to be skipped (R80, R84). -/
def missed (s t : State) (e : EngId) (f : FReq) (causes : Nat) : Prop :=
  logged s t 0x15 e.val ((f.desc * 64 + causes) % 2 ^ 16) (f.phase.setWidth 32) ∧
  t.rfld (Reg.almFmiss e) 16 10 = f.desc % 2 ^ 10 ∧ t.reg (Reg.almFmiss e) &&& BitVec.ofNat 32 causes = BitVec.ofNat 32 causes ∧
  t.reg Reg.almMisscnt = satSucc (s.reg Reg.almMisscnt) ∧
  (t.frames e).skip = if (s.frames e).skip.contains f.desc then (s.frames e).skip else (s.frames e).skip ++ [f.desc]

/-- Frames: a request waits in the engine's queue of four 3 fc after it was sent, and a full queue from which no frame starts in this fc
makes it a miss; the head starts where no frame and no handler runs, with the background saved; BUDGET and PHASE misses of the running
frame are recorded once with all causes present, and a Gust overrun of the running or of a waiting frame is recorded, logged and no miss;
the injections wait at the running frame (R75–R84, R91). -/
def Obligations.FramesArriveStartAndMiss : Prop :=
  (∀ (e : EngId) (s : State) (f : FReq) (fs : List FReq), (s.frames e).transit = f :: fs → f.fire + 3 ≤ s.now →
    ((s.frames e).q.length < 4 ∨ (s.frames e).q.length = 4 ∧ s.frameDue e = true →
      ∃ t, exec (.frameRequestArrival e) s = .next t ∧
        t.frames e = { s.frames e with transit := fs, q := (s.frames e).q ++ [f] } ∧ (∀ g, g ≠ e → t.frames g = s.frames g) ∧
        t = { s with alm := t.alm }) ∧
    (4 ≤ (s.frames e).q.length → 5 ≤ (s.frames e).q.length ∨ s.frameDue e = false → f.missed = false → f.miss = 1 →
      ∃ t, exec (.frameRequestArrival e) s = .next t ∧ (t.frames e).transit = fs ∧ (t.frames e).q = (s.frames e).q ∧
        missed s t e f (4 + causesOf s f) ∧ t.engines = s.engines ∧ s.sameBytes t)) ∧
  (∀ (e : EngId) (s : State) (f : FReq) (fs : List FReq), s.frameDue e = true → (s.frames e).q = f :: fs →
    (s.eng e).useq.run = false → (s.eng e).rep ≠ 2 →
    ∃ t, exec (.frameStart e) s = .next t ∧ (t.frames e).run = some { f with start := s.now } ∧ (t.frames e).q = fs ∧
      (t.eng e).pc = f.entry &&& 0xFFFF_FFF0 ∧ (t.eng e).dly = 0 ∧ (t.eng e).rep = 0 ∧ (t.eng e).inFrame = true ∧
      (∃ sh, (t.eng e).shadow = some sh ∧ sh.pc = (s.eng e).pc ∧ sh.tgt = (s.eng e).tgt ∧ sh.dly = (s.eng e).dly ∧
        sh.rep = (s.eng e).rep ∧ sh.regs = (List.range 7).map (fun i => s.port e (0x040 + i))) ∧
      (t.eng e).free = s.now + 5 ∧ (t.eng e).fetchAt = s.now + 3 ∧ t.reg (Reg.almFst e) = BitVec.ofNat 32 (2 ^ 31 + f.desc) ∧ s.sameEngines t e ∧
      s.sameRegs t [Reg.almFst e, Reg.almFelap e, Reg.almFgust e] ∧ s.sameBytes t) ∧
  (∀ (e : EngId) (s : State) (f : FReq), (s.frames e).run = some f → f.missed = false → f.miss = 1 → (s.frames e).injD = false →
    s.leaving = false →
    (f.budget ≠ 0 → f.budget.toNat < s.now - f.fire →
      ∃ t, exec (.budgetMiss e) s = .next t ∧ (t.frames e).run = some { f with missed := true } ∧ missed s t e f (causesOf s f) ∧
        t.engines = s.engines ∧ s.sameBytes t) ∧
    (f.dloff ≠ 0 → s.abValid f.base = true → (s.phase f.base - (f.phase + f.dloff.setWidth 64)).msb = false →
      ∃ t, exec (.phaseMiss e) s = .next t ∧ (t.frames e).run = some { f with missed := true } ∧ missed s t e f (causesOf s f) ∧
        t.engines = s.engines ∧ s.sameBytes t)) ∧
  (∀ (e : EngId) (s : State) (f : FReq), (s.frames e).run = some f → f.gover = false → f.policy.toNat / 2 ^ 16 < f.gust →
    ∃ t, exec (.gustOverrun e) s = .next t ∧ t.rbit (Reg.almFmiss e) 3 = true ∧
      logged s t 0x16 e.val (f.desc % 2 ^ 16) (BitVec.ofNat 32 f.gust) ∧ (t.frames e).run = some { f with gover := true } ∧
      (f.policy.getLsbD 12 = true → s.present e = true → (s.eng e).clocked = true → (t.reg (Reg.teApend e)).getLsbD 9 = true) ∧
      (f.policy.getLsbD 12 = false → t.engines = s.engines) ∧ t.reg Reg.almMisscnt = s.reg Reg.almMisscnt ∧ s.sameEngines t e ∧
      s.sameBytes t) ∧
  (∀ (e : EngId) (s : State) (f : FReq) (fs : List FReq), (s.frames e).run = none → (s.frames e).q = f :: fs → f.gover = false →
    f.policy.toNat / 2 ^ 16 < f.gust →
    ∃ t, exec (.gustOverrun e) s = .next t ∧ t.rbit (Reg.almFmiss e) 3 = true ∧
      logged s t 0x16 e.val (f.desc % 2 ^ 16) (BitVec.ofNat 32 f.gust) ∧
      t.frames e = { s.frames e with q := { f with gover := true } :: fs } ∧
      (f.policy.getLsbD 12 = true → s.present e = true → (s.eng e).clocked = true → (t.reg (Reg.teApend e)).getLsbD 9 = true) ∧
      (f.policy.getLsbD 12 = false → t.engines = s.engines) ∧ t.reg Reg.almMisscnt = s.reg Reg.almMisscnt ∧ s.sameEngines t e ∧
      s.sameBytes t) ∧
  (∀ (e : EngId) (s : State) (f : FReq), (s.frames e).run = some f →
    (∃ t, exec (.almInjGusto e) s = .next t ∧ t.frames e = { s.frames e with injG := true } ∧ t = { s with alm := t.alm } ∧
      ∀ g, g ≠ e → t.frames g = s.frames g) ∧
    (∃ t, exec (.almInjDlm e) s = .next t ∧ t.frames e = { s.frames e with injD := true } ∧ t = { s with alm := t.alm } ∧
      ∀ g, g ≠ e → t.frames g = s.frames g))

/-- Edges: EDGE_COMMIT gives the edge at the head to the placement unit of its pin at its time, when that comes within 4 fc, or passes it
as not performable where the Almanac does not own the pin; EDGE_PLACE drives the pin to the edge's level at that time (R63, R67, R68).
Output groups and checks of the pins: a release clears the group's safe or held bit; a readback mismatch of a compared pin that has lasted
for the window sets its error bit, and with RBSAFE puts the pin and its groups at their safe levels; a shorter one changes nothing; a
release of that bit ends the pin's own cause; a lockstep mismatch is reported once; injections wait (R85–R87, R91). -/
def Obligations.EdgesAndOutputGroups : Prop :=
  (
  (∀ (r : BaseId) (s : State) (h : Look) (hs : List Look) (tp : Stamp) (p : PinId), headStands s r h hs tp → h.isEdge = true →
    p.val = h.ctl.toNat % 2 ^ 6 → tp.toNat + h.delay < 8 * (s.fc.toNat + 4) → s.alm.injLs = false →
    ((s.pin p).owner = .almanac → s.pinBlocked p = false → (s.pin p).q = [] → h.ctl.toNat / 2 ^ 8 % 4 < 2 →
      8 * (s.fc.toNat + 2) ≤ tp.toNat + h.delay → tp.toNat + h.delay < 2 ^ 64 →
      (∀ b, (s.pin p).lastT = some b → 8 ≤ (BitVec.ofNat 64 (tp.toNat + h.delay) - b).toInt) →
      ∃ t, exec (.edgeCommit r) s = .next t ∧ passed s t r h hs ∧
        t.pin p = { s.pin p with
          q := [⟨BitVec.ofNat 64 (tp.toNat + h.delay), h.ctl.toNat / 2 ^ 8 % 4 = 0, (s.pin p).commits⟩], commits := (s.pin p).commits + 1 } ∧
        (∀ q, q ≠ p → t.pin q = s.pin q) ∧ t = { s with csr := t.csr, alm := t.alm, pins := t.pins } ∧
        s.sameRegs t [Reg.almRnext r, Reg.almRturn r] ∧ s.sameBytes t) ∧
    ((s.pin p).owner ≠ .almanac →
      ∃ t, exec (.edgeCommit r) s = .next t ∧ passed s t r h hs ∧ t.rbit Reg.almStat 10 = true ∧ t.pins = s.pins ∧
        logged s t 0x11 r.val h.slot h.ctl ∧ s.sameBytes t)) ∧
  (∀ (p : PinId) (s : State) (x : PEdge) (xs : List PEdge), (s.pin p).q = x :: xs → x.t.toNat < s.tb.toNat + 8 →
    (∀ y ∈ xs, y.t ≠ x.t) → s.pinBlocked p = false →
    ∃ t, exec (.edgePlace p) s = .next t ∧ (t.pin p).lvl = (if x.lvl then .high else .low) ∧ (t.pin p).lastT = some x.t ∧
      (t.pin p).q = xs ∧ (t.pin p).cmpAt = s.now + 4 ∧ t = { s with pins := t.pins } ∧ ∀ q, q ≠ p → t.pin q = s.pin q)) ∧
  (
  (∀ (g : GroupId) (s : State),
    (∃ t, exec (.groupSafeRelease g) s = .next t ∧ t.groupSafeBit g.val = false ∧
      (∀ i, i ≠ 8 + g.val → (t.reg Reg.almGrpst).getLsbD i = (s.reg Reg.almGrpst).getLsbD i) ∧ s.onlyRegs t [Reg.almGrpst]) ∧
    (∃ t, exec (.groupHoldRelease g) s = .next t ∧ t.groupHeldBit g.val = false ∧
      (∀ i, i ≠ g.val → (t.reg Reg.almGrpst).getLsbD i = (s.reg Reg.almGrpst).getLsbD i) ∧ s.onlyRegs t [Reg.almGrpst])) ∧
  (∀ (p : PinId) (s : State),
    let a := if p.val < 32 then Reg.almRberrLo else Reg.almRberrHi
    (∀ held, held < max 1 ((s.reg Reg.almRbcfg).toNat % 2 ^ 8) → exec (.readbackMismatch ⟨p, held⟩) s = .next s) ∧
    (∀ held, s.comparing p = true → max 1 ((s.reg Reg.almRbcfg).toNat % 2 ^ 8) ≤ held →
      max 1 ((s.reg Reg.almRbcfg).toNat % 2 ^ 8) ≤ s.now + 1 - (s.pin p).cmpAt →
      ∃ t, exec (.readbackMismatch ⟨p, held⟩) s = .next t ∧ t.rbit a (p.val % 32) = true ∧ t.rbit Reg.almStat 13 = true ∧
        (s.rbit a (p.val % 32) = false → logged s t 0x13 p.val 0 0) ∧ (s.rbit Reg.almRbcfg 8 = false → t.pins = s.pins) ∧
        (s.rbit Reg.almRbcfg 8 = true → (t.pin p).rbOwn = true ∧ (t.pin p).lvl = (s.pin p).safe ∧ (t.pin p).q = [] ∧
          ∀ g, g < 8 → s.inGroup g p = true → t.groupSafeBit g = true) ∧
        t.engines = s.engines ∧ s.sameBytes t) ∧
    (∃ t, exec (.readbackRelease p) s = .next t ∧ t.rbit a (p.val % 32) = false ∧ t.pin p = { s.pin p with rbOwn := false } ∧
      (∀ q, q ≠ p → t.pin q = s.pin q) ∧ t = { s with csr := t.csr, pins := t.pins } ∧ s.sameRegs t [a]) ∧
    (∃ t, exec (.almInjRb p) s = .next t ∧ t.pin p = { s.pin p with injRb := true } ∧ (∀ q, q ≠ p → t.pin q = s.pin q) ∧
      t = { s with pins := t.pins })) ∧
  (∀ s : State, s.alm.lsOff = false →
    ∃ t, exec .almanacLockstepMismatch s = .next t ∧ t.rbit Reg.almStat 14 = true ∧ t.alm.lsOff = true ∧
      logged s t 0x14 0 0 0 ∧
      (∀ e : EngId, (s.reg Reg.almLsdest).getLsbD e.val = true → s.present e = true → (s.eng e).clocked = true →
        (t.reg (Reg.teApend e)).getLsbD 12 = true) ∧
      (s.rbit Reg.almCtl 1 = true → ∀ p, (s.pin p).owner = .almanac → (t.pin p).lvl = (s.pin p).safe ∧ t.pinSafe p = true) ∧
      s.sameBytes t) ∧
  (∀ s : State, ∃ t, exec .almInjLs s = .next t ∧ t = { s with alm := { s.alm with injLs := true } }))

/-! Time Base, Waveform Counters and captures (R265–R284) -/

/-- The Time Base: a read of TMR_TBLO answers bits 31:0 and snapshots bits 63:32 and the sub-cycle fraction in the same fc, and apu.t:tb
owes its result ports the whole 64-bit value of the fc after its trigger; the compare is armed by a write of TMR_TBCMP_HI and with CMPEN sets CMP
once per arming, when the Time Base is at or above TMR_TBCMP (R266, R269). -/
def Obligations.TimeBaseReadAndCompare : Prop :=
  (∀ s : State, ∃ t, exec .timeBaseRead s = .next t ∧ t.rdata = [s.fc.setWidth 32] ∧
    t.reg Reg.tmrTbhi ++ (s.fc.setWidth 32 : Word) = s.fc ∧ t.reg Reg.tmrTbsub = (s.tb.extractLsb' 0 3).setWidth 32 ∧
    t = { s with csr := t.csr, rdata := t.rdata } ∧ s.sameRegs t [Reg.tmrTbhi, Reg.tmrTbsub]) ∧
  (∀ (e : EngId) (w : Word) (s : State), runsFree s e → (s.eng e).apu = none → s.iftUsed e < 256 →
    ∃ t b, exec (.apuTb e w) s = .next t ∧ t.owes e 14 (s.now + 2) 0 0 true 0 ∧ (t.eng e).apuR = (s.eng e).apuR ++ [(s.now + 1, 3, b)]) ∧
  (∀ (e : EngId) (s : State) (b : BaseId) (r : Res), (s.eng e).apuR = [(s.now, 3, b)] → (s.unit e 14).ops = [r] → r.done = false →
    r.due = s.now + 1 → ∃ q q1, (q1 ++ q : DWord) = s.fc ∧ ((s.apuEval e).unit e 14).ops = [{ r with q := q, q1 := q1 }]) ∧
  (∀ (hi : Word) (s : State), ∃ t, exec (.tbCompareArm hi) s = .next t ∧ t.reg Reg.tmrTbcmpHi = hi ∧ t.time.cmpArm = true ∧
    t = { s with csr := t.csr, time := { s.time with cmpArm := true } } ∧ s.sameRegs t [Reg.tmrTbcmpHi]) ∧
  (∀ s : State,
    let due := s.time.cmpArm = true ∧ s.rbit Reg.tmrTbctl 4 = true ∧ (s.reg Reg.tmrTbcmpHi ++ s.reg Reg.tmrTbcmpLo : DWord) ≤ s.fc
    (due → ∃ t, exec .tbCompare s = .next t ∧ t.rbit Reg.tmrTbstat 8 = true ∧
      t = { s with csr := t.csr, time := { s.time with cmpArm := false } } ∧
      t.reg Reg.tmrTbstat = s.reg Reg.tmrTbstat ||| 0x100 ∧ s.sameRegs t [Reg.tmrTbstat]) ∧
    (¬due → exec .tbCompare s = .next s))

/-- The actions that wait for the end of the fc: those of the events and then those of the register writes. -/
def wcAsks (s t : State) (m : WcId) (byEvent byWrite : List WcAct) : Prop :=
  t.wc m = { s.wc m with acts := (s.wc m).acts ++ byEvent, actW := (s.wc m).actW ++ byWrite }

/-- A tick of a running counter that is not cascaded: it counts up to its period in force and then down to 0, changes direction there with
TOP or BOT, holds its count with ASYM where it stands beyond, and flags the channels whose compare it meets in that direction; the
prescaler starts again (R270–R273). What commands do to a counter: start, stop and reset, of one counter or of every counter of a group
mask, ask for their action, which takes effect at the end of the fc (log 18); arm and cancel set and clear ARMED; in a fc after the arming
an armed start asks for a start once the Time Base has reached WC_AT, and a link action reaches its target in a fc after that of its event
(R275, R278). The end of a fc at a counter (State.wcEnd; log 18): the actions asked for in it are combined, those of events first and then
those of register writes, and of each kind the reset comes first, then a stop if any was asked for, else a start. A start of a stopped
counter begins a new prescaler period; a reset puts the offset into the count, the period and compare shadows in force and the outputs to
WC_CFG.INIT; nothing asked for leaves the counter alone (R270, R275, R278). -/
def Obligations.CountersTickAndAct : Prop :=
  (
  ∀ (m : WcId) (s : State), s.tmrOn = true → s.wcRun m = true → s.wcCasc m = false → (s.wc m).psc + s.wcPsc m ≤ s.now →
    let p := if (s.wc m).per = 0 then 1 else (s.wc m).per
    let c := s.reg (Reg.wcCnt m)
    let up := s.wcDown m = false
    let hold := (up ∧ p ≤ c) ∨ (¬up ∧ c = 0)
    let n := if up then c + 1 else c - 1
    ∃ t, exec (.wcTick m) s = .next t ∧ (t.wc m).psc = (s.wc m).psc + s.wcPsc m ∧ t.wcRun m = true ∧
      (hold → t.reg (Reg.wcCnt m) = c ∧ t.rbit (Reg.wcStat m) 15 = true ∧ (up → t.rbit (Reg.wcStat m) 12 = true ∧ t.wcDown m = true) ∧
        (¬up → t.rbit (Reg.wcStat m) 13 = true ∧ t.wcDown m = false)) ∧
      (¬hold → t.reg (Reg.wcCnt m) = n ∧
        (up → (t.rbit (Reg.wcStat m) 12 = true ↔ s.rbit (Reg.wcStat m) 12 = true ∨ n = p) ∧ (t.wcDown m = true ↔ n = p)) ∧
        (¬up → (t.rbit (Reg.wcStat m) 13 = true ↔ s.rbit (Reg.wcStat m) 13 = true ∨ n = 0) ∧ (t.wcDown m = false ↔ n = 0)) ∧
        (∀ k : ChId, t.rbit (Reg.wcStat m) (8 + k.val) = true ↔ s.rbit (Reg.wcStat m) (8 + k.val) = true ∨
          (s.wc m).cmp[k] = n ∧ s.rbit (Reg.wcChcfg m) (8 * k.val + (if s.wcDown m then 1 else 0)) = true)) ∧
      t.engines = s.engines ∧ t.bases = s.bases ∧ s.sameBytes t) ∧
  (
  (∀ (m : WcId) (s : State),
    (∃ t, exec (.wcStart m) s = .next t ∧ wcAsks s t m [] [.start] ∧ (∀ n, n ≠ m → t.wc n = s.wc n) ∧ t = { s with wcs := t.wcs }) ∧
    (∃ t, exec (.wcStop m) s = .next t ∧ wcAsks s t m [] [.stop] ∧ (∀ n, n ≠ m → t.wc n = s.wc n) ∧ t = { s with wcs := t.wcs }) ∧
    (∃ t, exec (.wcReset m) s = .next t ∧ wcAsks s t m [] [.reset] ∧ (∀ n, n ≠ m → t.wc n = s.wc n) ∧ t = { s with wcs := t.wcs }) ∧
    (∃ t, exec (.wcArm m) s = .next t ∧ t.reg (Reg.wcStat m) = s.reg (Reg.wcStat m) ||| 0x20 ∧
      t.wc m = { s.wc m with armAt := s.now } ∧ (∀ n, n ≠ m → t.wc n = s.wc n) ∧ t = { s with csr := t.csr, wcs := t.wcs } ∧
      s.sameRegs t [Reg.wcStat m]) ∧
    (∃ t, exec (.wcCancel m) s = .next t ∧ t.reg (Reg.wcStat m) = s.reg (Reg.wcStat m) &&& ~~~0x20 ∧ s.onlyRegs t [Reg.wcStat m]) ∧
    (let due := s.tmrOn = true ∧ s.rbit (Reg.wcStat m) 5 = true ∧ (s.reg (Reg.wcAtHi m) ++ s.reg (Reg.wcAtLo m) : DWord) ≤ s.fc ∧
      (s.wc m).armAt < s.now
     (due → ∃ t, exec (.armedStart m) s = .next t ∧ t.reg (Reg.wcStat m) = s.reg (Reg.wcStat m) &&& ~~~0x20 ∧ wcAsks s t m [.start] [] ∧
       (∀ n, n ≠ m → t.wc n = s.wc n) ∧ s.sameRegs t [Reg.wcStat m] ∧ t = { s with csr := t.csr, wcs := t.wcs }) ∧
     (¬due → exec (.armedStart m) s = .next s)) ∧
    ((∀ p ∈ (s.wc m).links, s.now ≤ p.1) → exec (.linkTargetAction m) s = .next s)) ∧
  (∀ (mask : Word) (s : State) (c : WcAct),
    let go := match c with | .start => Instr.tmrGstart mask | .stop => .tmrGstop mask | .reset => .tmrGreset mask
    ∃ t, exec go s = .next t ∧ (∀ m : WcId, wcAsks s t m [] (if mask.getLsbD m.val then [c] else [])) ∧ t = { s with wcs := t.wcs }) ∧
  (∀ (m n : WcId) (a : WcAct) (k : Nat) (s : State), (s.wc m).links = [(k, n, a)] → k < s.now →
    ∃ t, exec (.linkTargetAction m) s = .next t ∧ (t.wc m).links = [] ∧ (t.wc n).acts = (s.wc n).acts ++ [a] ∧
      (n ≠ m → t.wc m = { s.wc m with links := [] }) ∧ (∀ j, j ≠ m → j ≠ n → t.wc j = s.wc j) ∧ t = { s with wcs := t.wcs })) ∧
  (
  ∀ (m : WcId) (s : State),
    let t := s.wcEnd m
    let ev := (s.wc m).acts
    let wr := (s.wc m).actW
    let ran := !ev.contains WcAct.stop && (s.wcRun m || ev.contains WcAct.start)
    (t.wc m).acts = [] ∧ (t.wc m).actW = [] ∧
    (t.wcRun m = true ↔ WcAct.stop ∉ wr ∧ (ran = true ∨ WcAct.start ∈ wr)) ∧
    (s.wcRun m = false → (ev ++ wr).contains WcAct.stop = false → (ev ++ wr).contains WcAct.start = true →
      (t.wc m).psc = s.now ∧ (t.wc m).started = true ∧
      ((s.wc m).fresh = true → ev = [] → ∀ k : ChId, (t.wc m).outs[k] = s.rbit (Reg.wcCfg m) k.val)) ∧
    (WcAct.reset ∈ wr → t.reg (Reg.wcCnt m) = s.reg (Reg.wcOfs m) ∧ (t.wc m).per = s.reg (Reg.wcPer m) ∧ (t.wc m).psc = s.now ∧
      (∀ k : ChId, (t.wc m).cmp[k] = s.reg (Reg.wcCmp m k.val) ∧ (t.wc m).outs[k] = s.rbit (Reg.wcCfg m) k.val) ∧
      (t.wcDown m = true ↔ s.rbit (Reg.wcCfg m) 17 = true ∧ s.wcCasc m = false)) ∧
    (WcAct.reset ∈ ev → WcAct.reset ∉ wr → (s.wc m).held = none → t.reg (Reg.wcCnt m) = s.reg (Reg.wcOfs m)) ∧
    (WcAct.reset ∉ ev ++ wr → t.reg (Reg.wcCnt m) = s.reg (Reg.wcCnt m) ∧ (t.wc m).per = (s.wc m).per ∧ (t.wc m).cmp = (s.wc m).cmp ∧
      t.wcDown m = s.wcDown m) ∧
    (ev = [] → wr = [] → t = s) ∧ (∀ n, n ≠ m → t.wc n = s.wc n) ∧ s.sameRegs t [Reg.wcStat m, Reg.wcCnt m] ∧
    t = { s with csr := t.csr, wcs := t.wcs, pins := t.pins })

/-- Writes and reads of a counter: a new period waits for the next TOP or BOT event unless the counter counts up at or above it; a compare
goes to its shadow, and in force at once with LDMODE 0 or 3; a link write of a stopped counter is stored; a read answers the count at the
start of the fc and for an even counter snapshots its partner's (R272, R273, R277–R279). What the registers held before a write is kept
for the actions of the fc's events (log 18). How a new period is judged rests on log 16. -/
def Obligations.CounterWritesReadsAndLinks : Prop :=
  (∀ (m : WcId) (v : Word) (s : State),
    (∃ t, exec (.periodWrite m v) s = .next t ∧ t.reg (Reg.wcPer m) = v ∧
      (let now := s.wcDown m = false ∧ s.wcCasc m = false ∧ (if v = 0 then 1 else v) ≤ s.reg (Reg.wcCnt m)
       (now → t.wc m = { s.wc m with per := v, held := (t.wc m).held } ∧ t.rbit (Reg.wcStat m) 4 = false) ∧
       (¬now → t.wc m = { s.wc m with held := (t.wc m).held } ∧ t.rbit (Reg.wcStat m) 4 = true)) ∧
      (t.wc m).held = some { s.wcBefore m with newP := true } ∧
      (∀ n, n ≠ m → t.wc n = s.wc n) ∧ t = { s with csr := t.csr, wcs := t.wcs } ∧ s.sameRegs t [Reg.wcPer m, Reg.wcStat m]) ∧
    (∀ k : ChId, ∃ t, exec (.compareWrite m k v) s = .next t ∧ t.reg (Reg.wcCmp m k.val) = v ∧
      (let ld := (s.reg (Reg.wcCfg m)).toNat / 2 ^ 12 % 4
       t.wc m = { s.wc m with cmp := if ld = 0 ∨ ld = 3 then (s.wc m).cmp.set k.val v k.isLt else (s.wc m).cmp,
                              held := some (s.wcBefore m) }) ∧
      (∀ n, n ≠ m → t.wc n = s.wc n) ∧ t = { s with csr := t.csr, wcs := t.wcs } ∧ s.sameRegs t [Reg.wcCmp m k.val]) ∧
    (s.wcRun m = false ∨ (s.reg (Reg.wcLink m)).toNat / 2 ^ 24 % 32 = v.toNat / 2 ^ 24 % 32 →
      ∃ t, exec (.linkTargetWrite m v) s = .next t ∧ t.reg (Reg.wcLink m) = v &&& 0x1FFF_FFFF ∧ s.onlyRegs t [Reg.wcLink m])) ∧
  (∀ (m : WcId) (s : State), ∃ t, exec (.wcCountRead m) s = .next t ∧
    t.rdata = [if (s.wc m).chAt = some s.now then (s.wc m).chOld else s.reg (Reg.wcCnt m)] ∧
    (∀ o : WcId, o.val = m.val + 1 → m.val % 2 = 0 → t.reg (Reg.wcSnaphi m) = s.wcCount o) ∧
    t = { s with csr := t.csr, rdata := t.rdata } ∧ s.sameRegs t [Reg.wcSnaphi m, Reg.wcStat m])

/-- A follower that has accepted no frame for TMR_TBSYNCTO fc loses SYNCD and reports LOST, and the ring of a received base that was valid
takes the safe state that INVSAFE asks for; in a slew fc that no start-up sequence or reset runs in, the Time Base advances by 9 or 7
steps instead of 8, beside a step that a frame has given it, and the outstanding correction is one step less (R45, R72, R267, R268). A
capture pair that is owned and enabled takes the timestamp of a transition that CAP_CFG.FILT accepts, or the count and direction that its
counter had at the start of the fc of that transition; a shorter one is discarded. It sets the flag of the transition and OVR over an
unread capture, and after a falling edge the width since the rising one; a read answers the low word and snapshots the high one. What a
capture with SRC = 1 takes rests on log 103. (R27, R278, R280, R281). -/
def Obligations.TimeBaseSourceAndCaptures : Prop :=
  (
  (∀ s : State, s.follower = true → (s.reg Reg.tmrTbsyncto).toNat ≤ s.time.quiet →
    ∃ t, exec .tbSyncTimeout s = .next t ∧ t.syncd = false ∧ t.rbit Reg.tmrTbstat 10 = true ∧
      (∀ r : BaseId, s.ringOn r = true → s.rbit (Reg.almRctl r) 2 = true → s.abSrc r = 5 → s.abValid r = true →
        t.abValid r = false ∧ t.groupSafeBit ((s.reg (Reg.almRctl r)).toNat / 2 ^ 8 % 8) = true) ∧
      ((∀ r : BaseId, s.ringOn r = true → s.rbit (Reg.almRctl r) 2 = true → s.abSrc r ≠ 5 ∨ s.abValid r = false) →
        t.pins = s.pins ∧ s.sameRegs t [Reg.tmrTbstat]) ∧
      t = { s with csr := t.csr, pins := t.pins, time := { s.time with quiet := 0 } } ∧ s.sameRegs t [Reg.tmrTbstat, Reg.almGrpst]) ∧
  (∀ s : State, s.tmrOn = true → s.time.slew ≠ 0 → max 8 ((s.reg Reg.tmrTbsync).toNat / 2 ^ 16) ≤ s.time.since + 1 →
    s.boot.fall = none → s.boot.later = none → s.boot.hold = none → s.boot.fetch = none →
    ∃ t, exec .timeBaseSlew s = .next t ∧ t.now = s.now + 1 ∧
      (s.time.slew.msb = false → t.tb = s.tb + BitVec.ofNat 67 (9 + s.time.jump.toNat) ∧ t.time.slew = s.time.slew - 1) ∧
      (s.time.slew.msb = true → t.tb = s.tb + BitVec.ofNat 67 (7 + s.time.jump.toNat) ∧ t.time.slew = s.time.slew + 1) ∧
      t.time.since = 0 ∧ t.time.jump = 0)) ∧
  (
  (∀ (m : WcId) (k : Nat) (s : State),
    ((∀ p ∈ (s.wc m).hist, p.1 < k) → s.wcPast m k = (s.reg (Reg.wcCnt m), s.wcDown m)) ∧
    (∀ j c d h, (s.wc m).hist = (j, c, d) :: h → k ≤ j → (∀ p ∈ h, p.1 < k) → s.wcPast m k = (c, d))) ∧
  (∀ (n : WcId) (rising : Bool) (x : RawEdge) (s : State), x.held ≤ (s.reg (Reg.capCfg n)).toNat / 2 ^ 16 % 16 →
    exec (.captureEdge n rising x) s = .next s) ∧
  (∀ (n m : WcId) (rising : Bool) (ts : Stamp) (held : Nat) (s : State),
    let x := s.caps[n]
    s.broken (.capture n) = false → (s.reg (Reg.capCfg n)).toNat / 2 ^ 16 % 16 < held →
    s.tmrOn = true → x.owner = some m → s.rbit (Reg.capCfg n) 0 = true →
    let src := s.rbit (Reg.capCfg n) 1
    let v : DWord := if src then ((if (s.wcPast m (s.fcOf ts)).2 then 1 else 0 : Word) ++ (s.wcPast m (s.fcOf ts)).1 : DWord) else ts
    ∃ t, exec (.captureEdge n rising ⟨ts, held⟩) s = .next t ∧ t.rbit (Reg.capStat n) 0 = rising ∧
      (rising = true → t.caps[n].rise = v ∧ t.caps[n].riseUnread = true ∧ t.caps[n].fall = x.fall ∧ t.rbit (Reg.capStat n) 8 = true ∧
        (x.riseUnread = true → t.rbit (Reg.capStat n) 10 = true)) ∧
      (rising = false → t.caps[n].fall = v ∧ t.caps[n].fallUnread = true ∧ t.caps[n].rise = x.rise ∧ t.rbit (Reg.capStat n) 9 = true ∧
        (x.fallUnread = true → t.rbit (Reg.capStat n) 10 = true) ∧
        (x.half = true → src = false → t.reg (Reg.capWidth n) = BitVec.ofNat 32 (min (v - x.rise).toNat 0xFFFF_FFFF))) ∧
      (∀ k : WcId, k ≠ n → t.caps[k] = s.caps[k]) ∧ t = { s with csr := t.csr, caps := t.caps } ∧
      s.sameRegs t [Reg.capStat n, Reg.capWidth n]) ∧
  (∀ (n : WcId) (falling : Bool) (s : State),
    let x := s.caps[n]
    let v := if falling then (if x.fallAt = some s.now then x.fallOld else x.fall) else if x.riseAt = some s.now then x.riseOld else x.rise
    let hi := if falling then Reg.capFallHi n else Reg.capRiseHi n
    ∃ t, exec (.captureRead n falling) s = .next t ∧ t.rdata = [v.setWidth 32] ∧ t.reg hi ++ (v.setWidth 32 : Word) = v ∧
      (falling = true → x.fallAt ≠ some s.now → t.caps[n] = { x with fallUnread := false }) ∧
      (falling = false → x.riseAt ≠ some s.now → t.caps[n] = { x with riseUnread := false }) ∧
      (∀ k : WcId, k ≠ n → t.caps[k] = s.caps[k]) ∧ t = { s with csr := t.csr, caps := t.caps, rdata := t.rdata } ∧ s.sameRegs t [hi]))

/-! Dependability and the performance counters (R288, R296, R369, R402–R427) -/

/-- An injection waits for the event it names and changes nothing else: a corrected or uncorrectable ECC error for the next read of its
store, which then meets it once, parity errors for the next trigger or the next move of the bus, the watchdog for the next fc, a march
failure for the next march test that no access ends (log 128); THW and WARN stand while they are set; a line break, injected or of the
line, sets the receiver's bit and is logged; an ECC write-back, in an fc after the correction in which no port has accessed the bank
(log 127), takes its unit off the waiting ones (R296, R369, R412). -/
def Obligations.InjectionsWaitForTheirEvents : Prop :=
  (∀ (e : EngId) (emu : Bool) (s : State), s.present e = true →
    let st := if emu then 16 + e.val else e.val
    (∃ t, exec (.teInjCe e emu) s = .next t ∧ t = { s with ecc := { s.ecc with injCe := s.ecc.injCe ++ [st] } }) ∧
    (∃ t, exec (.teInjUe e emu) s = .next t ∧ t = { s with ecc := { s.ecc with injUe := s.ecc.injUe ++ [st] } } ∧
      ∀ a n master, s.region a = .tile e → emu = false →
        (t.eccRead master a n).1 = true ∧ st ∉ (t.eccRead master a n).2.ecc.injUe ∧
        (t.eccRead master a n).2.reg (Reg.teEccue e) = satSucc (s.reg (Reg.teEccue e)) ∧
        (t.eccRead master a n).2.reg (Reg.teEccaddr e) = BitVec.ofNat 32 (memKey a / 8 * 8))) ∧
  (∀ (e : EngId) (bus : BaseId) (s : State), s.present e = true →
    (∃ t, exec (.teInjSpar e) s = .next t ∧ s.onlyEngine t e [] ∧ t.eng e = { s.eng e with injSpar := true }) ∧
    (∃ t, exec (.teInjBpar e bus) s = .next t ∧ s.onlyEngine t e [] ∧ t.eng e = { s.eng e with injBpar := some bus }) ∧
    (∃ t, exec (.teInjWdg e) s = .next t ∧ s.onlyEngine t e [] ∧ t.eng e = { s.eng e with wdgDue := some ((s.eng e).wdgDue.getD (s.now + 1)) })) ∧
  (∀ (store : StoreSel) (s : State),
    (∃ t, exec (.sysInjCe store) s = .next t ∧ t = { s with ecc := { s.ecc with injCe := s.ecc.injCe ++
      (if store.toNat = 3 then [] else [0x20 + store.toNat]) } }) ∧
    (∃ t, exec (.sysInjUe store) s = .next t ∧ t = { s with ecc := { s.ecc with injUe := s.ecc.injUe ++
      (if store.toNat = 3 then [] else [0x20 + store.toNat]) } })) ∧
  (∀ s : State, ∃ t, exec .curInjMfail s = .next t ∧ t = { s with cur := { s.cur with injM := true } }) ∧
  (∀ (b : Borrow) (s : State), b.found = ⟨[], []⟩ → b.cut = none → s.cur.injM = true →
    let t := s.borrowEnd b
    t.cur.injM = false ∧ t.reg Reg.curMfailcnt = satSucc (s.reg Reg.curMfailcnt) ∧ t.rbit Reg.curStat 8 = true ∧
    (s.rbit Reg.curFinfo 31 = false → t.reg Reg.curFaddr = BitVec.ofNat 32 (vitAddr b.idx)) ∧
    logged s t 0x03 (vitStore b.idx) 0 (BitVec.ofNat 32 (vitAddr b.idx))) ∧
  (∀ (b : Borrow) (s : State), b.found = ⟨[], []⟩ → b.cut.isSome = true → (s.borrowEnd b).cur.injM = s.cur.injM) ∧
  (∀ (on : Bool) (s : State),
    (∃ t, exec (.pwrInjThw on) s = .next t ∧ t.rbit Reg.pwrInj 1 = on ∧ t.rbit Reg.pwrInj 0 = s.rbit Reg.pwrInj 0 ∧ s.onlyRegs t [Reg.pwrInj]) ∧
    (∃ t, exec (.pwrInjWarn on) s = .next t ∧ t.rbit Reg.pwrInj 0 = on ∧ t.rbit Reg.pwrInj 1 = s.rbit Reg.pwrInj 1 ∧ s.onlyRegs t [Reg.pwrInj])) ∧
  (∀ (r : RcvId) (s : State),
    (∀ lasts : Nat, ∃ t, exec (.lineBreak ⟨r, lasts⟩) s = .next t ∧ t.rbit Reg.encBrk r.val = true ∧ logged s t 0x0A r.val 0 0 ∧
      t.brk[r] = max s.brk[r] (s.now + lasts) ∧ t = { s with csr := t.csr, logn := t.logn, brk := t.brk } ∧
      s.sameRegs t [Reg.encBrk]) ∧
    (∃ t, exec (.gpioInjBrk r) s = .next t ∧ t.rbit Reg.encBrk r.val = true ∧ logged s t 0x0A r.val 0 0 ∧
      t.brk[r] = max s.brk[r] (s.now + (s.reg Reg.encBrkt).toNat) ∧ t = { s with csr := t.csr, logn := t.logn, brk := t.brk } ∧
      s.sameRegs t [Reg.encBrk])) ∧
  (∀ (unit : Word) (s : State),
    (s.bankBusy unit.toNat = true → exec (.eccWriteback unit) s = .next s) ∧
    (s.bankBusy unit.toNat = false → ∃ t, exec (.eccWriteback unit) s = .next t ∧
      (∀ p, p ∈ t.ecc.wb ↔ p ∈ s.ecc.wb ∧ ¬(p.1 = unit.toNat ∧ p.2 < s.now)) ∧ t = { s with ecc := { s.ecc with wb := t.ecc.wb } }))

/-- A Vitrine that the Curator may borrow: its engine is present and its never-borrow bit is clear (R404, R408). -/
def mayBorrow (s : State) (i : Nat) : Prop :=
  (i < 2048 → s.engmask.getLsbD (i / 128) = true) ∧ s.rbit (Reg.curNb (i / 32)) (i % 32) = false

/-- The Curator: a borrow takes the next Vitrine that may be borrowed, in ascending index with wrap, and stands in COPY for 32 fc, in TEST
for 320 and in RESTORE for 32; one whose engine runs a frame with GDEF waits. A scrub read takes one row, in an fc in
which no port has accessed its bank (log 127), and counts a pass at the end of
the last store. A write of CUR_NBw sets bits at once and clears them only without LOCK, and a borrowed Vitrine that it marks is given
back within 48 fc (R403, R404, R407, R408). -/
def Obligations.CuratorBorrowsScrubsAndGivesBack : Prop :=
  (∀ (m : MarchResult) (s : State) (i k : Nat), (s.power = .run ∨ s.power = .hold) → s.rbit Reg.curCtl 1 = true → s.cur.borrow = none →
    s.cur.endAt + max 1 (s.reg Reg.curBint).toNat ≤ s.now →
    k < 6144 → i = (s.cur.pos + k) % 6144 → mayBorrow s i → (∀ j, j < k → ¬mayBorrow s ((s.cur.pos + j) % 6144)) →
    ((i < 2048 ∧ ∃ f, (s.frames (Fin.ofNat 16 (i / 128))).run = some f ∧ f.gdef = true) → exec (.vitrineBorrow m) s = .next s) ∧
    (¬(i < 2048 ∧ ∃ f, (s.frames (Fin.ofNat 16 (i / 128))).run = some f ∧ f.gdef = true) →
      ∃ t b, exec (.vitrineBorrow m) s = .next t ∧ t.cur.borrow = some b ∧ b.idx = i ∧
        (∀ d, b.state (s.now + d) = if d < 32 then 1 else if d < 352 then 2 else if d < 384 then 3 else 0) ∧
        b.found = m ∧
        t.reg Reg.curVit = BitVec.ofNat 32 (if i < 2048 then 0x2000_0000 + i / 128 * 0x10_0000 + i % 128 * 0x1000
          else 0x1000_0000 + (i - 2048) * 0x1000) ∧ t.rfld Reg.curStat 0 2 = 1 ∧
        t = { s with csr := t.csr, cur := { s.cur with borrow := some b } } ∧ s.sameRegs t [Reg.curVit, Reg.curStat])) ∧
  (∀ (s : State) (a : Nat), (s.power = .run ∨ s.power = .hold) → s.rbit Reg.curCtl 0 = true →
    s.cur.scrubAt + max 8 (s.reg Reg.curScrubdiv).toNat ≤ s.now → s.scrubRow s.cur.scrub = some a →
    s.bankBusy a = false → s.ecc.bad = [] → s.ecc.injUe = [] → s.ecc.injCe = [] →
    ∃ t, exec .scrubRead s = .next t ∧ t.cur.scrubAt = s.now ∧
      (s.scrubRow (a + 128) = none → t.cur.scrub = 0 ∧ t.reg Reg.curPasscnt = satSucc (s.reg Reg.curPasscnt) ∧
        t.rbit Reg.curStat 11 = true ∧ s.sameRegs t [Reg.curPasscnt, Reg.curStat]) ∧
      (s.scrubRow (a + 128) ≠ none → t.cur.scrub = a + 128 ∧ s.sameRegs t []) ∧
      t = { s with csr := t.csr, cur := { s.cur with scrub := t.cur.scrub, scrubAt := s.now } }) ∧
  (∀ (w : NbWord) (v : Word) (s : State), ∃ t, exec (.neverBorrowMark w v) s = .next t ∧
    t.reg (Reg.curNb w.val) = (if s.rbit Reg.sysCtl 1 then s.reg (Reg.curNb w.val) ||| v else v) ∧
    (s.cur.borrow = none → s.onlyRegs t [Reg.curNb w.val]) ∧
    (∀ b, s.cur.borrow = some b → (∀ c, b.cut = some c → c ≤ s.now + 16) → b.idx / 32 = w.val → v.getLsbD (b.idx % 32) = true →
      (s.reg (Reg.curNb w.val)).getLsbD (b.idx % 32) = false → ∀ c, t.cur.borrow = some c → c.state (s.now + 48) = 0) ∧
    t = { s with csr := t.csr, cur := t.cur } ∧ s.sameRegs t [Reg.curNb w.val, Reg.curStat, Reg.curAbortcnt])

/-- A watchdog of a running engine that has reached 0, or is made to expire, acts by STAGE: at 0 it raises exception 11, enters STAGE 1 and
reloads, at 1 it halts the engine and with SAFE makes the groups of GRP safe; each expiry is logged. One that is not to expire does
nothing. A kick reloads the count and clears STAGE, after an expiry of the same fc (R413). -/
def Obligations.WatchdogExpiresAndKicks : Prop :=
  ∀ (e : EngId) (s : State), s.present e = true →
    let due := s.live e = true ∧ ((∃ k, (s.eng e).wdgDue = some k ∧ k ≤ s.now) ∨
      s.rbit (Reg.teWdctl e) 0 = true ∧ s.reg (Reg.teWdcnt e) = 0 ∧ s.rbit (Reg.teWdctl e) 2 = false)
    let load : Word := if s.reg (Reg.teWdload e) = 0 then 1 else s.reg (Reg.teWdload e)
    (¬due → exec (.watchdogExpiry e) s = .next s ∧
      ∃ t, exec (.watchdogKick e) s = .next t ∧ t.reg (Reg.teWdcnt e) = load ∧
        t.reg (Reg.teWdctl e) = s.reg (Reg.teWdctl e) &&& 0xFFFF_FFFB ∧ t.eng e = { s.eng e with wdgDue := none } ∧
        s.onlyEngine t e [Reg.teWdcnt e, Reg.teWdctl e]) ∧
    (due → s.rbit (Reg.teWdctl e) 2 = false →
      (∃ t, exec (.watchdogExpiry e) s = .next t ∧ t.rbit (Reg.teWdctl e) 2 = true ∧ t.reg (Reg.teWdcnt e) = load ∧
        t.rbit (Reg.teApend e) 11 = true ∧ (∃ k, (11, k) ∈ (t.eng e).apend) ∧ logged s t 0x18 e.val 0 (s.eng e).pc ∧
        t.eng e = { s.eng e with wdgDue := none, apend := (t.eng e).apend } ∧ s.sameEngines t e ∧
        t = { s with csr := t.csr, engines := t.engines, logn := t.logn } ∧
        s.sameRegs t [Reg.teWdcnt e, Reg.teWdctl e, Reg.teApend e]) ∧
      (∃ t, exec (.watchdogKick e) s = .next t ∧ t.rbit (Reg.teWdctl e) 2 = false ∧ t.reg (Reg.teWdcnt e) = load ∧
        t.rbit (Reg.teApend e) 11 = true ∧ logged s t 0x18 e.val 0 (s.eng e).pc ∧ s.sameEngines t e ∧
        s.sameRegs t [Reg.teWdcnt e, Reg.teWdctl e, Reg.teApend e])) ∧
    (due → s.rbit (Reg.teWdctl e) 2 = true →
      ∃ t, exec (.watchdogExpiry e) s = .next t ∧ t.halted e = true ∧
        (s.rbit (Reg.teWdctl e) 1 = true → ∀ g, g < 8 → s.rbit (Reg.teWdctl e) (8 + g) = true → t.rbit Reg.almGrpst (8 + g) = true) ∧
        ⟨s.fc, BitVec.ofNat 32 (0x18 * 2 ^ 24 + e.val * 2 ^ 16 + 1), (s.eng e).pc⟩ ∈ t.logn ∧
        t.eng e = { s.eng e with wdgDue := none } ∧ s.sameEngines t e ∧
        t = { s with csr := t.csr, engines := t.engines, logn := t.logn, pins := t.pins } ∧
        s.sameRegs t [Reg.teExcstat e, Reg.almGrpst])

/-- The Error Log: the entries of a fc enter the input buffer of 16 places as it ends, in the order of CODE, UNIT, DETAIL and W3, and
those that find no place are counted as lost; below 64 entries an acceptance, one in a fc, writes the first entry of the input buffer at
the place after the youngest; in a full log it is lost, or with WRAP takes the oldest entry's place, and the loss is counted. A pop
removes the oldest entry (R415, R417). A performance counter that has wrapped sets its bit of PERF_OVF; with its IE the first sample is
recorded, with the context (that of the group that issues in the fc, log 128), the frame's descriptor, the counter and the address the
context gives, a later one sets MORE, and FOVF stops the counters. A read answers bits 31:0 and snapshots bits 47:32 as they stood at the
start of the fc; a write stores both halves, the high one as it was written last, when the fc ends (R425, R426). -/
def Obligations.ErrorLogAndPerfCounters : Prop :=
  (
  (∀ (s : State) (code unit detail : Nat) (w3 : Word),
    let x : LogEntry := ⟨s.fc, BitVec.ofNat 32 (code % 256 * 2 ^ 24 + unit % 256 * 2 ^ 16 + detail % 65536), w3⟩
    (s.log code unit detail w3).logn.Perm (x :: s.logn) ∧ s.log code unit detail w3 = { s with logn := (s.log code unit detail w3).logn } ∧
    ((∀ y ∈ s.logn, y.t = s.fc) → s.logn.Pairwise (fun a b => LogEntry.before a b = true) →
      (s.log code unit detail w3).logn.Pairwise (fun a b => LogEntry.before a b = true))) ∧
  (∀ s : State, s.logq.length ≤ 16 → let k := 16 - s.logq.length
    s.logEnter.logn = [] ∧ s.logEnter.logq = s.logq ++ s.logn.take k ∧
    ((s.reg Reg.errLost).toNat + (s.logn.length - k) < 2 ^ 32 →
      (s.logEnter.reg Reg.errLost).toNat = (s.reg Reg.errLost).toNat + (s.logn.length - k) ∧
      (k < s.logn.length → s.logEnter.rbit Reg.errStat 10 = true) ∧ s.sameRegs s.logEnter [Reg.errLost, Reg.errStat])) ∧
  (∀ s : State, s.logq = [] ∨ s.logAt = some s.now → exec .errorLogAccept s = .next s) ∧
  (∀ (x : LogEntry) (xs : List LogEntry) (s : State), s.logq = x :: xs → s.logAt ≠ some s.now →
    let n := s.rfld Reg.errStat 0 7
    let h := s.rfld Reg.errStat 16 6
    let holds (t : State) (k : Nat) : Prop := (t.reg (Reg.errEnt k 1) ++ t.reg (Reg.errEnt k 0) : DWord) = x.t ∧
      t.reg (Reg.errEnt k 2) = x.w2 ∧ t.reg (Reg.errEnt k 3) = x.w3
    ∃ t, exec .errorLogAccept s = .next t ∧ t.logq = xs ∧ t = { s with csr := t.csr, logq := xs, logAt := some s.now } ∧
      (n < 64 → holds t ((h + n) % 64) ∧ t.rfld Reg.errStat 0 7 = n + 1 ∧ t.rfld Reg.errStat 16 6 = h ∧ t.rbit Reg.errStat 8 = true ∧
        s.sameRegs t (Reg.errStat :: (List.range 4).map (Reg.errEnt ((h + n) % 64)))) ∧
      (64 ≤ n → s.rbit Reg.errCtl 0 = false → t.reg Reg.errLost = satSucc (s.reg Reg.errLost) ∧ t.rbit Reg.errStat 10 = true ∧
        t.rfld Reg.errStat 0 7 = n ∧ t.rfld Reg.errStat 16 6 = h ∧ s.sameRegs t [Reg.errStat, Reg.errLost]) ∧
      (64 ≤ n → s.rbit Reg.errCtl 0 = true → holds t h ∧ t.rfld Reg.errStat 0 7 = n ∧ t.rfld Reg.errStat 16 6 = (h + 1) % 64 ∧
        t.reg Reg.errLost = satSucc (s.reg Reg.errLost) ∧ t.rbit Reg.errStat 10 = true ∧ t.rbit Reg.errStat 8 = true ∧
        s.sameRegs t (Reg.errStat :: Reg.errLost :: (List.range 4).map (Reg.errEnt h)))) ∧
  (∀ s : State, let n := s.rfld Reg.errStat 0 7
    (n = 0 → exec .errorLogPop s = .next s) ∧
    (0 < n → ∃ t, exec .errorLogPop s = .next t ∧ t.rfld Reg.errStat 0 7 = n - 1 ∧
      t.rfld Reg.errStat 16 6 = (s.rfld Reg.errStat 16 6 + 1) % 64 ∧ s.onlyRegs t [Reg.errStat]))) ∧
  (
  (∀ (e : EngId) (k : BaseId) (s : State),
    let c := (s.perfCtx e).1 % 4
    let d := if c = 1 then (s.perfCtx e).2 % 1024 else 0
    ((∀ x, (s.eng e).perfAt = some x → x.1 ≠ s.now) →
      let back := (s.eng e).hold = some .eret
      s.perfCtx e = (if (s.eng e).useq.run = true ∨ back ∧ (s.port e sESTAT).getLsbD 7 = true then 3
        else if s.hnd e = true ∧ ¬back then 2 else if (s.eng e).inFrame then 1 else 0, s.frameDesc e)) ∧
    (∀ x, (s.eng e).perfAt = some (s.now, x) → s.perfCtx e = x) ∧
    ((s.eng e).wrapped.getLsbD k.val = false → exec (.perfOverflow e k) s = .next s) ∧
    ((s.eng e).wrapped.getLsbD k.val = true → ∃ t, exec (.perfOverflow e k) s = .next t ∧ t.rbit (Reg.perfOvf e) k.val = true ∧
      (t.eng e).wrapped.getLsbD k.val = false ∧ t.eng e = { s.eng e with wrapped := (t.eng e).wrapped } ∧
      s.onlyEngine t e [Reg.perfOvf e, Reg.perfSinfo e, Reg.perfSpc e, Reg.perfCtl e] ∧
      (s.rbit (Reg.perfCtl e) (8 + k.val) = false → s.sameRegs t [Reg.perfOvf e]) ∧
      (s.rbit (Reg.perfCtl e) (8 + k.val) = true →
        (s.rbit (Reg.perfSinfo e) 31 = false → t.rbit (Reg.perfSinfo e) 31 = true ∧ t.rfld (Reg.perfSinfo e) 8 3 = k.val ∧
          t.rfld (Reg.perfSinfo e) 0 2 = c ∧ t.rfld (Reg.perfSinfo e) 16 10 = d ∧ t.reg (Reg.perfSpc e) =
            if c = 3 then s.port e sUPC else if (s.eng e).issued = some s.now then (s.eng e).grp else (s.eng e).pc) ∧
        (s.rbit (Reg.perfSinfo e) 31 = true → t.reg (Reg.perfSinfo e) = s.reg (Reg.perfSinfo e) ||| 0x4000_0000 ∧
          t.reg (Reg.perfSpc e) = s.reg (Reg.perfSpc e)) ∧
        (t.rbit (Reg.perfCtl e) 0 = true ↔ s.rbit (Reg.perfCtl e) 0 = true ∧ s.rbit (Reg.perfCtl e) 1 = false)))) ∧
  (∀ (e : EngId) (k : BaseId) (v : Word) (s : State), s.present e = true →
    (∃ t q, exec (.perfCountRead e k) s = .next t ∧ t.rdata = [q] ∧
      ((t.reg (Reg.perfCntHi e k)).setWidth 16 ++ q : BitVec 48) = (s.eng e).perf0[k] ∧
      t = { s with csr := t.csr, rdata := [q] } ∧ s.sameRegs t [Reg.perfCntHi e k]) ∧
    (∃ t, exec (.perfCountWrite e k v) s = .next t ∧
      t.eng e = { s.eng e with perfW := (s.eng e).perfW ++ [(k, (s.eng e).perfHi[k] ++ v)] } ∧
      s.onlyEngine t e [])) ∧
  (∀ (e : EngId) (k : BaseId) (w : BitVec 48) (s : State), (s.eng e).wrapped = 0 →
    ((s.eng e).perfW = [(k, w)] →
      let t := s.perfSettle e
      (t.eng e).perf[k] = w ∧ (t.eng e).perf0[k] = w ∧
      (∀ j : BaseId, j ≠ k → (t.eng e).perf[j] = (s.eng e).perf[j] ∧ (t.eng e).perf0[j] = (s.eng e).perf[j]) ∧
      t.eng e = { s.eng e with perf := (t.eng e).perf, perf0 := (t.eng e).perf0, perfW := [] } ∧ s.onlyEngine t e [])))

/-! The bus matrix (R302–R316) -/

/-- From `s` to `t` the request `r` becomes what `f` makes of it, and every other request stays. -/
def reqBecomes (s t : State) (r : Req) (f : Req → Req) : Prop :=
  t.mtx.reqs = s.mtx.reqs.map fun q => if q.id = r.id ∧ q.gone = false then f q else q

/-- Issuing: a request of a master that may issue takes the next number and the target its address names, none where the paths of R13 lead
to no target (log 111). It is answered at once with the code that an injection holds for its master, with DECERR where it has no target,
and with a refusal between bridges; an ordered one is held while its master has others outstanding, any other one waits for its target;
beyond 32 outstanding an engine's stays in its far port. ORDERED_RELEASE lets the master's oldest request go on, as the target decode
finds it then (R13, R137, R288, R302–R305, R308, R309, R311, R315). Accepting: once in a fc, a target accepts the oldest waiting request
of the first master in round-robin order after the one it last chose that has one and a place; where no master has, nothing happens
(R305–R307). -/
def Obligations.MatrixIssuesAndAccepts : Prop :=
  (
  (∀ (m : MasterId) (q : ReqSpec) (s : State), s.mayIssue m = true → reqOk q m.val = true →
    let full := 32 ≤ s.outstanding m.val
    let inj := s.mtx.inj.find? (·.1 == m.val)
    let named := s.target q.addr.toNat
    let bridge := m.val = 26 ∨ 29 ≤ m.val
    let far := m.val < 16 ∨ m.val = 17
    let tgt := if ¬far ∧ (named = some 24 ∨ named = some 26 ∨ ¬bridge ∧ (named = some 28 ∨ named = some 29)) then none else named
    let bridged := bridge ∧ (tgt = some 28 ∨ tgt = some 29)
    let behind := q.ordered = true ∧ ∃ o ∈ s.mtx.reqs, o.m = m.val ∧ o.stage ≠ .queued
    ∃ t r, exec (.matrixRequest m q) s = .next t ∧ t.mtx.reqs = s.mtx.reqs ++ [r] ∧ t.mtx.next = s.mtx.next + 1 ∧
      r.id = s.mtx.next ∧ r.m = m.val ∧ r.addr = q.addr ∧ r.kind = q.kind ∧ r.len = q.len ∧ r.data = q.data ∧ r.tgt = tgt ∧
      r.remap = s.rbit Reg.sysCtl 0 ∧ r.beats = 0 ∧
      (full → r.stage = .queued ∧ t.mtx.inj = s.mtx.inj) ∧
      (¬full → (∀ k c, inj = some (k, c) → r.stage = .done ∧ r.resp = c ∧ ∀ x ∈ t.mtx.inj, x.1 ≠ m.val) ∧
        (inj = none → t.mtx.inj = s.mtx.inj ∧
          (tgt = none → r.stage = .done ∧ r.resp = .decErr) ∧
          (bridged → r.stage = .done ∧ r.resp = .refuse) ∧
          (tgt ≠ none → ¬bridged → (behind → r.stage = .held) ∧ (¬behind → r.stage = .waiting)))) ∧
      t = { s with mtx := { s.mtx with reqs := t.mtx.reqs, next := t.mtx.next, inj := t.mtx.inj } }) ∧
  (∀ (m : MasterId) (s : State) (r : Req), s.mtx.reqs.find? (·.m == m.val) = some r → r.stage = .held →
    ∃ t, exec (.orderedRelease m) s = .next t ∧ t = { s with mtx := { s.mtx with reqs := t.mtx.reqs } } ∧
      reqBecomes s t r fun q =>
        let g := s.targetFor q.m q.addr.toNat
        let b := q.m = 26 ∨ 29 ≤ q.m ∧ q.m ≤ 32
        let q := { q with tgt := g, remap := s.rbit Reg.sysCtl 0 }
        if g = none then { q with stage := .done, resp := .decErr }
        else if b ∧ (g = some 28 ∨ g = some 29) then { q with stage := .done, resp := .refuse } else { q with stage := .waiting }) ∧
  (∀ (v : Word) (s : State) (c : Resp), v.toNat / 2 ^ 8 % 8 = c.code → c ≠ .okay →
    ∃ t, exec (.mtxInj v) s = .next t ∧ (v.toNat % 64, c) ∈ t.mtx.inj ∧ t = { s with mtx := { s.mtx with inj := t.mtx.inj } })) ∧
  (
  ∀ (x : TargetId) (s : State), (s.power = .run ∨ s.power = .hold) →
    (s.mtx.accAt[x] = some s.now → exec (.targetAccept x) s = .next s) ∧
    let at' (j : Nat) := (s.mtx.last[x] + 1 + j) % 33
    let may (m : Nat) (r : Req) : Prop := s.oldest x.val m = some r ∧
      s.accepted x.val < if m = 26 ∨ 29 ≤ m then 64 else 56
    (∀ (d : Nat) (r : Req), s.mtx.accAt[x] ≠ some s.now → d < 33 → may (at' d) r → (∀ j, j < d → ∀ q, ¬may (at' j) q) →
      ∃ t, exec (.targetAccept x) s = .next t ∧ t.mtx.last[x] = r.m ∧
        reqBecomes s t r (fun q => { q with stage := .accepted, accSeq := s.mtx.next }) ∧
        t.mtx.accAt[x] = some s.now ∧
        (∀ y : TargetId, y ≠ x → t.mtx.last[y] = s.mtx.last[y] ∧ t.mtx.accAt[y] = s.mtx.accAt[y]) ∧
        t = { s with mtx := { s.mtx with reqs := t.mtx.reqs, last := t.mtx.last, accAt := t.mtx.accAt, next := s.mtx.next + 1 } }) ∧
    ((∀ j, j < 33 → ∀ q, ¬may (at' j) q) → exec (.targetAccept x) s = .next s))

/-- The stores are free of errors and injections and no Vitrine is borrowed. -/
def storesSound (s : State) : Prop := s.ecc.bad = [] ∧ s.ecc.injUe = [] ∧ s.ecc.injCe = [] ∧ s.cur.borrow = none

/-- From `s` to `t` the beat of request `r` at the bytes from `lo` to below `hi` of a store has been carried out: a read has their values, a
write has stored its bytes there and nowhere else, and an atomic has read the word and written the new one. The bytes of which `odd` holds
may be changed by something else, and the registers of `rs` too. -/
def beatDone (s t : State) (r : Req) (lo hi : Nat) (last : Bool) (odd : Nat → Bool) (rs : List Nat) : Prop :=
  let a := r.site
  let next : Req := { r with beats := r.beats + 1, stage := if last then .done else r.stage }
  (r.kind = .read →
    reqBecomes s t r (fun _ => { next with rdata := r.rdata ++ (List.range (hi - lo)).map fun i => s.readByte (lo + i) }) ∧ s.sameBytes t) ∧
  (r.kind = .write → r.data.length = r.len → reqBecomes s t r (fun _ => next) ∧
    (∀ i, lo ≤ i → i < hi → odd i = false → r.data[i - a]? = some (t.readByte i)) ∧
    (∀ b, (∀ i, lo ≤ i → i < hi → memKey b ≠ memKey i) → odd (memKey b) = false → t.readByte b = s.readByte b)) ∧
  (r.kind = .atomAdd ∨ r.kind = .atomSwap → r.len = 4 → r.data.length = 4 → a % 4 = 0 →
    reqBecomes s t r (fun _ => { r with beats := 1, stage := .done, rdata := (List.range 4).map fun i => s.readByte (a + i) }) ∧
    t.memWord a = (if r.kind = .atomAdd then s.memWord a + wordOf r.data else wordOf r.data) ∧
    (∀ b, (∀ i, i < 4 → memKey b ≠ memKey (a + i)) → t.readByte b = s.readByte b)) ∧
  s.sameRegs t rs ∧ ∀ f k, t.port f k = s.port f k

/-- Carrying out at the stores, one beat in a fc, in the order of acceptance: a beat at a Main Store port keeps its bank busy for the fc,
and an atomic for a second one, and starts in no bank that is busy; one at a Tile Store waits for an atomic of the near port in the same
doubleword; one at the Almanac table has a fc that the walker leaves free, and may change DEFER of the slot that it writes; the Boot ROM
and the emulation stores answer like them (R61, R70, R190, R224, R290, R291, R293, R294, R303). Carrying out at the other targets, one
beat in a fc: a request that its target refuses is answered with REFUSE and changes nothing; the flash answers reads below its density,
with the read command of QSPI_CFG (log 58), and DECERR beyond, and not while it is busy; a register is read or written as its address
says; a cycle window passes the request to a backplane port that is a master, and else refuses it; a bridge target takes the request beat
by beat, and with the last one target 29 sends it to the host or refuses it while the link is not up, a read then waiting for the host,
and target 28 sends a frame to its node, or decodes it again where it names this node. That a refused request keeps its place until then
rests on log 72. (R57, R190, R287, R303, R311, R336, R354, R363, R372). -/
def Obligations.TargetsCarryOutBeats : Prop :=
  (
  ∀ (x : TargetId) (s : State) (r : Req), (s.power = .run ∨ s.power = .hold) → s.inHand x.val = some r →
    (s.mtx.beatAt[x] = some s.now → exec (.targetAccess x) s = .next s) ∧
    let idle := { s with mtx := { s.mtx with beatAt := s.mtx.beatAt.set x.val (some s.now) x.isLt } }
    let w := if x.val < 8 ∨ x.val = 25 then 16 else if x.val = 27 then 4 else 8
    let a := r.site
    let lo := if r.beats = 0 then a else (a / w + r.beats) * w
    let hi := min (a + r.len) ((a / w + r.beats + 1) * w)
    let last := decide (a + r.len ≤ (a / w + r.beats + 1) * w)
    let within (b n : Nat) := b ≤ a ∧ a + r.len ≤ b + n
    let bank := lo % 2 ^ 24 / 2 ^ 18
    s.mtx.beatAt[x] ≠ some s.now → r.refused = false → storesSound s → 1 ≤ r.len → a % 256 + r.len ≤ 256 → lo < hi →
    (x.val < 8 → within 0x1000_0000 0x100_0000 →
      ((∃ p ∈ s.mtx.busy, s.now < p.2 ∧ p.1 = bank) → exec (.targetAccess x) s = .next idle) ∧
      ((∀ p ∈ s.mtx.busy, s.now < p.2 → p.1 ≠ bank) → ∃ t, exec (.targetAccess x) s = .next t ∧
        beatDone s t r lo hi last (fun _ => false) [] ∧
        t.mtx.busy = s.mtx.busy.filter (fun p => decide (s.now < p.2)) ++ [(bank, s.now + if kindAtomic r.kind then 2 else 1)] ∧
        (r.kind = .read → t = { s with mtx := { idle.mtx with reqs := t.mtx.reqs, busy := t.mtx.busy } }))) ∧
    (∀ e : EngId, x.val = 8 + e.val → within (tileAddr e 0) 0x10_0000 →
      (s.meetsAtomic e lo (hi - lo) (kindAtomic r.kind) = true → exec (.targetAccess x) s = .next idle) ∧
      (s.meetsAtomic e lo (hi - lo) (kindAtomic r.kind) = false → (∀ u ∈ (s.eng e).uses, u.fc = s.now → u.near = false) →
        ∃ t, exec (.targetAccess x) s = .next t ∧ beatDone s t r lo hi last (fun _ => false) [] ∧
          (r.kind = .read → s.sameEngines t e ∧ t.eng e = { s.eng e with uses := (t.eng e).uses } ∧
            t = { s with mtx := { idle.mtx with reqs := t.mtx.reqs }, engines := t.engines }))) ∧
    (x.val = 24 → within 0x3000_0000 0x4_0000 → ∃ t, exec (.targetAccess x) s = .next t ∧ beatDone s t r lo hi last (fun _ => false) [] ∧
      t = { s with mtx := { idle.mtx with reqs := t.mtx.reqs } }) ∧
    (x.val = 25 → within 0x3800_0000 0x4_0000 →
      (s.alm.walkAt = some s.now ∨ s.alm.portAt = some s.now → exec (.targetAccess x) s = .next idle) ∧
      (s.alm.walkAt ≠ some s.now → s.alm.portAt ≠ some s.now → ∃ t, exec (.targetAccess x) s = .next t ∧
        beatDone s t r lo hi last (fun k => k == a / 16 * 16 + 7) [Reg.almStat] ∧
        (r.kind = .read → t = { s with mtx := { idle.mtx with reqs := t.mtx.reqs }, alm := { s.alm with portAt := some s.now } }))) ∧
    (x.val = 27 → emuStore a = true → ∃ t, exec (.targetAccess x) s = .next t ∧ beatDone s t r lo hi last (fun _ => false) [] ∧
      (r.kind = .read → t = { s with mtx := { idle.mtx with reqs := t.mtx.reqs } }))) ∧
  (
  ∀ (x : TargetId) (s : State) (r : Req), (s.power = .run ∨ s.power = .hold) → s.inHand x.val = some r → s.mtx.beatAt[x] ≠ some s.now →
    let idle := { s with mtx := { s.mtx with beatAt := s.mtx.beatAt.set x.val (some s.now) x.isLt } }
    let a := r.addr.toNat
    let fin' (c : Resp) (q : Req) : Req := { q with stage := .done, resp := c, rdata := if c = .okay then q.rdata else [] }
    (r.refused = true → ∃ t, exec (.targetAccess x) s = .next t ∧ reqBecomes s t r (fun q => { fin' .refuse q with beats := 1 }) ∧
      t = { idle with mtx := { idle.mtx with reqs := t.mtx.reqs } }) ∧
    (x.val = 26 → r.refused = false → 0x4000_0000 ≤ a → 1 ≤ r.len →
      let w := 4
      let lo := if r.beats = 0 then a else (a / w + r.beats) * w
      let hi := min (a + r.len) ((a / w + r.beats + 1) * w)
      (s.now < s.qspi → exec (.targetAccess x) s = .next idle) ∧
      (s.qspi ≤ s.now → ∃ t, exec (.targetAccess x) s = .next t ∧ t = { idle with mtx := { idle.mtx with reqs := t.mtx.reqs } } ∧
        (Config.flashSfdp = true → Config.flashDensity.toNat * 1024 ≤ a - 0x4000_0000 + r.len - 1 →
          reqBecomes s t r fun q => { fin' .decErr q with beats := r.beats + 1 }) ∧
        (Config.flashSfdp = false ∨ a - 0x4000_0000 + r.len - 1 < Config.flashDensity.toNat * 1024 → lo < hi →
          reqBecomes s t r fun q => { q with beats := r.beats + 1, rdata := r.rdata ++ s.qspiRead (lo - 0x4000_0000) (hi - lo),
                                             stage := if a + r.len ≤ (a / w + r.beats + 1) * w then .done else q.stage }))) ∧
    (x.val = 27 → r.refused = false → emuStore a = false → lbpWindow a = none → ∃ t, exec (.targetAccess x) s = .next t ∧
      (r.kind = .read → t = { (idle.csrRead a).2 with mtx := t.mtx } ∧
        reqBecomes (idle.csrRead a).2 t r fun q => { q with stage := .done, beats := 1, rdata := bytesOf 4 (idle.csrRead a).1.toNat }) ∧
      (r.kind = .write → t = { idle.csrWrite a (wordOf r.data) with mtx := t.mtx } ∧
        reqBecomes (idle.csrWrite a (wordOf r.data)) t r fun q => { q with stage := .done, beats := 1 })) ∧
    (∀ p o, x.val = 27 → r.refused = false → emuStore a = false → lbpWindow a = some (p, o) → ∃ t, exec (.targetAccess x) s = .next t ∧
      reqBecomes s t r (fun q => if s.rfld (Reg.lbpCfg p) 0 2 = 1 then { q with stage := .passed } else { fin' .refuse q with beats := 1 }) ∧
      t = { idle with mtx := { idle.mtx with reqs := t.mtx.reqs } }) ∧
    (28 ≤ x.val → r.refused = false → 1 ≤ r.len → r.len ≤ 256 →
      let more := r.beats + 1 < (a + r.len - 1) / 8 - a / 8 + 1
      (more → ∃ t, exec (.targetAccess x) s = .next t ∧ reqBecomes s t r (fun q => { q with beats := r.beats + 1 }) ∧
        t = { idle with mtx := { idle.mtx with reqs := t.mtx.reqs } }) ∧
      (¬more → x.val = 29 → ∃ t, exec (.targetAccess x) s = .next t ∧
        reqBecomes s t r (fun q => if s.pcieUp = false then fin' .refuse q else if r.kind = .write then fin' .okay q
          else { q with stage := .passed }) ∧
        t = { idle with mtx := { idle.mtx with reqs := t.mtx.reqs }, pcie := t.pcie } ∧
        (s.pcieUp = false → t.pcie = s.pcie) ∧
        (s.pcieUp = true → t.pcie = { s.pcie with tlp := some (r.kind == .write, s.hostAddr r.addr, r.len, r.data),
                                                  out := s.pcie.out ++ if r.kind = .write then [] else [(r.id, s.now)] })) ∧
      (¬more → x.val = 28 →
        let o := r.addr - 0x6000_0000
        (s.route r.node = .none → ∃ t, exec (.targetAccess x) s = .next t ∧
          reqBecomes s t r (fun q => { q with stage := .done, resp := .decErr }) ∧ t = { idle with mtx := { idle.mtx with reqs := t.mtx.reqs } }) ∧
        (∀ p, s.route r.node = .port p → s.hlState p = 3 → ∃ t, exec (.targetAccess x) s = .next t ∧
          reqBecomes s t r (fun q => { q with stage := .done, resp := .link }) ∧ t = { idle with mtx := { idle.mtx with reqs := t.mtx.reqs } }) ∧
        (∀ p, s.route r.node = .port p → s.hlState p ≠ 3 → s.freeTag = none → exec (.targetAccess x) s = .next idle) ∧
        (∀ p g, s.route r.node = .port p → s.hlState p ≠ 3 → s.freeTag = some g → ∃ t f, exec (.targetAccess x) s = .next t ∧
          reqBecomes s t r (fun q => { q with stage := .passed }) ∧ t.hl.txns = s.hl.txns ++ [⟨g, r.id, r.node, p, s.now⟩] ∧
          (t.hlPort p).txq = (s.hlPort p).txq ++ [⟨f, s.stamp, false, none⟩] ∧ (∀ q, q ≠ p → t.hlPort q = s.hlPort q) ∧
          f.typ = (match r.kind with | .read => (4 : Nibble) | .write => 5 | _ => 6) ∧ f.dst = r.node ∧ f.tag = g ∧ f.w2 = o ∧ f.w3.getLsbD 16 = r.ordered ∧
          t = { idle with mtx := { idle.mtx with reqs := t.mtx.reqs }, hl := { s.hl with ports := t.hl.ports, txns := t.hl.txns } }) ∧
        (s.route r.node = .own → 0x200_0000 ≤ o.toNat → ∃ t, exec (.targetAccess x) s = .next t ∧
          reqBecomes s t r (fun q => { q with stage := .done, resp := .decErr }) ∧ t = { idle with mtx := { idle.mtx with reqs := t.mtx.reqs } }) ∧
        (s.route r.node = .own → o.toNat < 0x200_0000 → ∃ t, exec (.targetAccess x) s = .next t ∧
          t = { idle with mtx := { idle.mtx with reqs := t.mtx.reqs } } ∧
          ∀ q, t.findReq r.id = some q → s.findReq r.id = some r → q.orig = some r.addr ∧ q.beats = 0 ∧
            q.addr.toNat = (if o.toNat < 0x100_0000 then 0x1000_0000 + o.toNat else 0x1F00_0000 + o.toNat)))))

/-- A response other than OKAY has been recorded: its flag, the count, and the record and its log entry, or MORE where a record stands; one
that is OKAY leaves them alone (R312). -/
def respRecorded (s t : State) (r : Req) : Prop :=
  let c := r.resp.code
  let g := match r.named.2 with | some g => g | none => 0x1F
  (r.resp = .okay → s.sameRegs t [] ∧ t.logn = s.logn) ∧
  (r.resp ≠ .okay → t.rbit Reg.mtxStat (7 + c) = true ∧ t.reg Reg.mtxErrcnt = satSucc (s.reg Reg.mtxErrcnt) ∧
    (s.rbit Reg.mtxErrinfo 31 = true → t.reg Reg.mtxErrinfo = s.reg Reg.mtxErrinfo ||| 0x4000_0000 ∧
      t.reg Reg.mtxErraddr = s.reg Reg.mtxErraddr ∧ t.logn = s.logn) ∧
    (s.rbit Reg.mtxErrinfo 31 = false → t.reg Reg.mtxErraddr = r.named.1 ∧ t.rbit Reg.mtxErrinfo 31 = true ∧
      t.rfld Reg.mtxErrinfo 8 3 = c ∧ t.rfld Reg.mtxErrinfo 16 6 = r.m ∧ t.rbit Reg.mtxErrinfo 29 = reqWrites r.kind ∧
      t.rfld Reg.mtxErrinfo 24 5 = g ∧ logged s t 0x20 r.m (c * 256 + g) r.named.1)) ∧
  s.sameRegs t [Reg.mtxStat, Reg.mtxErraddr, Reg.mtxErrinfo, Reg.mtxErrcnt]

/-- Request `r` is the next one of its master to be answered: it is answered, and each earlier one of the master that a target has is at
another target and open; no request of the master waits to be issued, and no command of the monitor waits for it (R307). -/
def nextAnswered (s : State) (r : Req) : Prop :=
  (s.power = .run ∨ s.power = .hold) ∧ r.stage = .done ∧ s.monAsks r.id = false ∧ (∀ q ∈ s.mtx.reqs, q.m = r.m → q.stage ≠ .queued) ∧
  (∀ g, r.named.2 = some g → g < 30) ∧
  ∃ xs ys, s.mtx.reqs = xs ++ r :: ys ∧ ∀ q ∈ xs, q.m = r.m → q.gone = false → q.named.2 ≠ r.named.2 ∧ q.stage ≠ .done

/-- Answering: the next answered request of a master leaves the matrix and is recorded. The data of one that came from outside this model
is shown. Where the answer of a request of the bench is shown rests on log 75. (R305, R307, R311, R312). Answering an engine: the halves
of far operations that the request carried have the response and its bytes, and so have the parts of the lines in hand, which can be used
3 fc later, or raise exception 10 after an ECC error and exception 5 after another one; the BMU takes the bytes of its element, or stops
with FAULT, the deferred fault recorded and raised; and a vector word that an entry waits for starts the handler at its address, or halts
the engine where the read has failed (R124, R192, R195, R196, R213, R216, R307). The reset of a master drops all its reads and writes that
are not carried out, without a byte written, records the one it cuts with the first byte not carried out, and counts and logs once; what
it drops keeps its places up to the end of the fc. What a reset that cuts no request logs rests on log 54. (R313). -/
def Obligations.ResponsesAndMasterReset : Prop :=
  (
  ∀ (m : MasterId) (s : State) (r : Req), r.m = m.val → nextAnswered s r → 16 ≤ m.val → s.waitsFor r = false →
    ∃ t, exec (.response m) s = .next t ∧ t.mtx.reqs = s.mtx.reqs.filter (fun q => q.id != r.id) ∧
      t.rdata.length = (r.rdata.length + 3) / 4 ∧
      (∀ k, k < r.rdata.length / 4 → t.rdata[k]? = some (wordOf ((r.rdata.drop (4 * k)).take 4))) ∧
      respRecorded s t r ∧ t = { s with csr := t.csr, mtx := t.mtx, rdata := t.rdata, logn := t.logn }) ∧
  (
  ∀ (m : MasterId) (e : EngId) (s : State) (r : Req), m.val = e.val → r.m = m.val → nextAnswered s r →
    (∀ f ∈ (s.eng e).far, f.micro = none) →
    let ans (h : FarHalf) : FarHalf := if h.id = r.id then { h with resp := some r.resp, data := r.rdata } else h
    let part (p : LinePart) : LinePart := if p.id = some r.id then
        (match r.resp with
         | .okay => { p with data := some r.rdata, due := s.now + 3 }
         | .eccErr => { p with exc := some (10, 0), due := s.now + 3 }
         | _ => { p with exc := some (5, 0), due := s.now + 3 }) else p
    let line (l : Line) : Line := { l with parts := l.parts.map part }
    let got (x : Engine) : Engine := { x with far := x.far.map (fun f => { f with halves := f.halves.map ans }), lines := x.lines.map line,
                                              lbuf := x.lbuf.map fun ls => ls.map line }
    let only (t : State) := s.sameEngines t e ∧ respRecorded s t r ∧ t.mtx.reqs = s.mtx.reqs.filter (fun q => q.id != r.id) ∧
      t = { s with csr := t.csr, mtx := t.mtx, engines := t.engines, logn := t.logn }
    ((s.eng e).bmu = none → (s.eng e).vreq = none → ∃ t, exec (.response m) s = .next t ∧ t.eng e = got (s.eng e) ∧ only t) ∧
    (∀ o el h, (s.eng e).vreq = none → (s.eng e).bmu = some o → o.fin = none → o.stop = false → o.wild = false → o.elems = [el] →
      el.reqs = [h] → h.id = r.id → el.rest = [] → el.bad = none → el.data = none → el.res = none →
      (o.code = 0 ∨ o.code = 1 ∨ o.code = 5 → r.resp = .okay → ∃ t, exec (.response m) s = .next t ∧
        t.eng e = { got (s.eng e) with bmu := some { o with elems := [{ el with reqs := [], data := some r.rdata }] } } ∧ only t) ∧
      (r.resp ≠ .okay → s.rbit (Reg.teDfinfo e) 14 = false → ∃ t, exec (.response m) s = .next t ∧
        (t.eng e).bmu = some { o with elems := [], fin := some 4, due := s.now + 1 } ∧
        t.reg (Reg.teDfaddr e) = h.addr ∧ t.rbit (Reg.teDfinfo e) 14 = true ∧ t.rbit (Reg.teDfinfo e) 10 = true ∧
        t.rfld (Reg.teDfinfo e) 0 3 = r.resp.code ∧
        (s.present e = true → (s.eng e).clocked = true → t.rbit (Reg.teApend e) (if r.resp = .eccErr then 10 else 5) = true) ∧
        s.sameEngines t e ∧ t = { s with csr := t.csr, mtx := t.mtx, engines := t.engines, logn := t.logn })) ∧
    (∀ v, (s.eng e).bmu = none → (s.eng e).vreq = some (r.id, v, true) → s.rbit (Reg.teCfg e) 8 = false →
      (r.resp = .okay → ∃ t, exec (.response m) s = .next t ∧ (t.eng e).pc = wordOf r.rdata &&& 0xFFFF_FFF0 ∧ (t.eng e).first = true ∧
        (t.eng e).fetchAt = s.now ∧ (t.eng e).vreq = none ∧ (t.eng e).lines = [] ∧ only t) ∧
      (r.resp ≠ .okay → ∃ t, exec (.response m) s = .next t ∧ t.halted e = true ∧ (t.eng e).vreq = none ∧ s.sameEngines t e ∧
        t = { s with csr := t.csr, mtx := t.mtx, engines := t.engines, logn := t.logn }))) ∧
  (
  (∀ (m : MasterNum) (s : State), 18 ≤ m.toNat → m.toNat ≤ 32 → (∀ q ∈ s.mtx.reqs, q.m = m.toNat → q.kind = .read ∨ q.kind = .write) →
    let mine := s.mtx.reqs.filter fun q => q.m == m.toNat
    let left := mine.filter fun q => q.stage != .passed && q.stage != .done && !q.gone
    (mine = [] → exec (.masterReset m) s = .next s) ∧
    (∃ t, exec (.masterReset m) s = .next t ∧
      t.mtx.reqs = s.mtx.reqs.filterMap (fun q => if q.m ≠ m.toNat ∨ q.gone = true then some q else if q.stage = .queued then none
        else some { q with stage := .dropped (q.stage == .accepted || q.stage == .passed) }) ∧
      (left = [] → s.sameRegs t [] ∧ t.logn = s.logn) ∧
      (left ≠ [] → t.reg Reg.mtxRstcnt = satSucc (s.reg Reg.mtxRstcnt) ∧ t.logn.length = s.logn.length + 1) ∧
      (mine.filter Req.cut = [] → s.sameRegs t [Reg.mtxRstcnt]) ∧
      (∀ r g, mine.filter Req.cut = [r] → r.orig = none → r.tgt = some g → g < 30 →
        t.rbit Reg.mtxStat 12 = true ∧
        (s.rbit Reg.mtxRstinfo 31 = true → t.reg Reg.mtxRstinfo = s.reg Reg.mtxRstinfo ||| 0x4000_0000) ∧
        (s.rbit Reg.mtxRstinfo 31 = false → t.rbit Reg.mtxRstinfo 31 = true ∧ t.rfld Reg.mtxRstinfo 24 5 = g ∧
          t.rfld Reg.mtxRstinfo 16 6 = m.toNat ∧ t.rfld Reg.mtxRstinfo 8 7 = (r.total - r.beats) % 128 ∧
          t.rfld Reg.mtxRstinfo 0 7 = r.beats % 128 ∧
          t.reg Reg.mtxRstaddr = BitVec.ofNat 32 ((r.addr.toNat / beatWidth g + r.beats) * beatWidth g))) ∧
      t = { s with csr := t.csr, mtx := { s.mtx with reqs := t.mtx.reqs }, logn := t.logn, hl := t.hl, pcie := t.pcie } ∧
      s.sameRegs t [Reg.mtxStat, Reg.mtxRstaddr, Reg.mtxRstinfo, Reg.mtxRstcnt])) ∧
  (∀ s : State, (∀ q ∈ s.mtx.reqs, q.stage ≠ .queued) →
    s.dropsEnd = { s with mtx := { s.mtx with reqs := s.mtx.reqs.filter fun q => !q.gone } }))

/-! The Hatorlink (R317–R348) -/

/-- From `s` to `t` nothing but port `p` of the Hatorlink, the registers of `rs` and the number of free values drawn changes. -/
def onlyPort (s t : State) (p : PortId) (rs : List Nat) : Prop :=
  t = { s with csr := t.csr, free := t.free, hl := { s.hl with ports := t.hl.ports } } ∧ (∀ q, q ≠ p → t.hlPort q = s.hlPort q) ∧ s.sameRegs t rs

/-- The partner of port `p`, which was up, has broken a rule: the counter and the flag of the rule, one more violation in the window, which
counts from 0 where it has begun since, and with THR reached the quarantine (R340, R341). -/
def violated (s t : State) (p : PortId) (counter flag : Nat) : Prop :=
  let n := min 255 ((if (s.hlPort p).win = s.fc.toNat / (1000 * max 1 (s.rfld (Reg.hlQcfg p) 16 16)) then s.rfld (Reg.hlViol p) 0 8 else 0) + 1)
  let thr := s.rfld (Reg.hlQcfg p) 0 8
  t.reg counter = satSucc (s.reg counter) ∧ t.rbit (Reg.hlStat p) flag = true ∧ t.rfld (Reg.hlViol p) 0 8 = n ∧
  (thr ≠ 0 ∧ thr ≤ n → t.hlState p = 3 ∧ t.rbit (Reg.hlStat p) 15 = true ∧ logged s t 0x28 p.val n 0) ∧
  (¬(thr ≠ 0 ∧ thr ≤ n) → t.hlState p = 2 ∧ onlyPort s t p [counter, Reg.hlStat p, Reg.hlViol p])

/-- CRED of a link control set: the receive buffers of port `p` that are free of 16, with or without that of the frame that it answers, which
no rule settles (R328; log 131). -/
def credOf (s : State) (p : PortId) (c : Byte) : Prop := 16 - s.hlHeld p - 1 ≤ c.toNat ∧ c.toNat ≤ 16 - s.hlHeld p

/-- Ports: EN or a retry after 1 ms starts the training of a port that is down; training ends up, with the partner recorded and what it
has received gone from the replay buffer, or fails with its cause; the measured delay is shown; a port that was up goes down with DOWN,
keeps its replay buffer and with AUTO trains again; RETRAIN trains afresh, out of quarantine with an empty replay buffer; a window that
begins counts from 0. A training that fails records the partner where the IDs were exchanged, and clears VALID else. What a failed
training shows of the partner rests on log 112. (R320–R322, R341, R345). -/
def Obligations.PortsTrainAndGoDown : Prop :=
  (∀ (p : PortId) (s : State),
    (∃ t, exec (.portEnable p) s = .next t ∧ t.reg (Reg.hlCtl p) = s.reg (Reg.hlCtl p) ||| 1 ∧
      t.hlState p = (if s.hlState p = 0 then 1 else s.hlState p) ∧ (t.hlPort p).sent = (s.hlPort p).sent ∧
      onlyPort s t p [Reg.hlCtl p, Reg.hlStat p]) ∧
    (∃ t, exec (.portRetrain p) s = .next t ∧ t.hlState p = (if s.rbit (Reg.hlCtl p) 0 then 1 else 0) ∧
      (s.hlState p = 2 → t.rbit (Reg.hlStat p) 9 = true) ∧
      (t.hlPort p).sent = (if s.hlState p = 3 then [] else (s.hlPort p).sent) ∧ onlyPort s t p [Reg.hlStat p]) ∧
    (∀ cause (partner : Option NodeId), s.hlState p = 1 → ∃ t, exec (.trainingFailure p ⟨cause, partner⟩) s = .next t ∧ t.hlState p = 0 ∧
      t.rbit (Reg.hlStat p) 10 = true ∧
      t.reg (Reg.hlPartner p) = (match if cause.toNat < 4 then none else partner with
        | some id => (0x8000_0000 : Word) ||| id.setWidth 32 | none => s.reg (Reg.hlPartner p) &&& 0x7FFF_FFFF) ∧
      t.rfld (Reg.hlTrinfo p) 0 4 = cause.toNat ∧ (t.hlPort p).retryAt = some (s.now + 1000000) ∧
      onlyPort s t p [Reg.hlStat p, Reg.hlTrinfo p, Reg.hlPartner p]) ∧
    (∀ k, (s.hlPort p).retryAt = some k → k ≤ s.now → s.rbit (Reg.hlCtl p) 0 = true → s.hlState p = 0 →
      ∃ t, exec (.trainingRetry p) s = .next t ∧ t.hlState p = 1 ∧ onlyPort s t p [Reg.hlStat p]) ∧
    (∀ d : LinkDelay, s.hlState p = 1 ∨ s.hlState p = 2 → ∃ t, exec (.delayMeasurement p d) s = .next t ∧
      t.rfld (Reg.hlTrinfo p) 16 9 = d.toNat ∧ s.onlyRegs t [Reg.hlTrinfo p]) ∧
    (s.hlState p = 2 → ∃ t, exec (.linkDown p) s = .next t ∧ t.rbit (Reg.hlStat p) 9 = true ∧
      t.hlState p = (if s.rbit (Reg.hlCtl p) 1 && s.rbit (Reg.hlCtl p) 0 then 1 else 0) ∧ (t.hlPort p).sent = (s.hlPort p).sent ∧
      (t.hlPort p).txSeq = (s.hlPort p).txSeq ∧ (t.hlPort p).rxSeq = (s.hlPort p).rxSeq ∧ onlyPort s t p [Reg.hlStat p]) ∧
    (∀ (id : NodeId) (n : Byte), s.hlState p = 1 → ∃ t, exec (.portUp p id n) s = .next t ∧ t.hlState p = 2 ∧
      t.rbit (Reg.hlStat p) 8 = true ∧ t.reg (Reg.hlPartner p) = (0x8000_0000 : Word) ||| id.setWidth 32 ∧
      (t.hlPort p).sent.map (·.f) = ((s.hlPort p).sent.map (·.f)).filter (fun f => decide ((f.lseq - n).toNat < 128)) ∧
      (∀ q ∈ (t.hlPort p).sent, q.again = true) ∧ onlyPort s t p [Reg.hlStat p, Reg.hlPartner p]) ∧
    (let w := s.fc.toNat / (1000 * max 1 (s.rfld (Reg.hlQcfg p) 16 16))
     ((s.hlPort p).win = w → exec (.violationWindow p) s = .next s) ∧
     ((s.hlPort p).win ≠ w → ∃ t, exec (.violationWindow p) s = .next t ∧ t.reg (Reg.hlViol p) = 0 ∧
      t.hlPort p = { s.hlPort p with win := w } ∧ onlyPort s t p [Reg.hlViol p])))

/-- Sending and acknowledging: a port that is up and idle sends a TSYNC first, then a replay, then ANGLE, response and request frames by
class while the partner has a place for the class; a sequenced frame takes the next LSEQ and stays in the replay buffer. ACK and NAK take
what they cover out of it and NAK, like an ACK timeout, marks the rest to be sent again; one of an LSEQ that is not outstanding breaks a
rule. Bad frames are answered with NAK or ACK, a request of an unexpected node whose SRC has a route also with RESP 1, a relay ends the
copy of a bad frame with EOB, and an injection makes the next frame bad. Credits at the start, the order of injections, the LSEQ of a cut
frame and CRED rest on log 40, 41, 113 and 131. (R319, R326–R328, R340, R345). -/
def Obligations.FramesAreSentAndAcknowledged : Prop :=
  (∀ (p : PortId) (s : State), s.hlState p = 2 → (s.hlPort p).busy ≤ s.now →
    let x := s.hlPort p
    let first (c : Nat) : Option HlItem := x.txq.find? (fun i => hlClass i.f == c)
    let free := x.cred - x.sent.length
    (∀ i, first 1 = some i → ∃ t f, exec (.frameSend p) s = .next t ∧ (t.hlPort p).txq = x.txq.erase i ∧ (t.hlPort p).out = some f ∧
      (t.hlPort p).sent = x.sent ∧ (t.hlPort p).busy = s.now + hlFrameTime f ∧
      (i.orig = true → f = { i.f with payload := bytesOf 8 s.stamp.toNat }) ∧
      (i.orig = false → f = { i.f with w2 := i.f.w2 + BitVec.ofInt 32 (max 0 (s.stamp - i.due).toInt) }) ∧
      (∀ q, q ≠ p → t.hlPort q = s.hlPort q) ∧ t = { s with hl := t.hl }) ∧
    (∀ q, first 1 = none → x.sent.find? (·.again) = some q → ∃ t, exec (.frameSend p) s = .next t ∧ (t.hlPort p).out = some q.f ∧
      (t.hlPort p).txq = x.txq ∧
      (t.hlPort p).sent = x.sent.map (fun y => if y = q then { q with tries := q.tries + 1, since := s.now, again := false } else y) ∧
      (t.hlPort p).busy = s.now + hlFrameTime q.f ∧ t.reg (Reg.hlReplay p) = satSucc (s.reg (Reg.hlReplay p)) ∧
      (∀ q, q ≠ p → t.hlPort q = s.hlPort q) ∧ t = { s with csr := t.csr, hl := t.hl } ∧ s.sameRegs t [Reg.hlReplay p]) ∧
    (∀ i, first 1 = none → x.sent.find? (·.again) = none →
      (0 < free ∧ first 2 = some i ∨ 2 < free ∧ first 2 = none ∧ (first 3 = some i ∨ first 3 = none ∧ first 4 = some i)) →
      ∃ t, exec (.frameSend p) s = .next t ∧ (t.hlPort p).out = some { i.f with lseq := x.txSeq } ∧ (t.hlPort p).txSeq = x.txSeq + 1 ∧
        (t.hlPort p).txq = x.txq.erase i ∧ (t.hlPort p).sent = x.sent ++ [⟨{ i.f with lseq := x.txSeq }, 1, s.now, false⟩] ∧
        (t.hlPort p).busy = s.now + hlFrameTime i.f ∧ (∀ q, q ≠ p → t.hlPort q = s.hlPort q) ∧ t = { s with hl := t.hl })) ∧
  (∀ (p : PortId) (seq cred : Byte) (s : State), s.hlState p = 2 → (s.hlPort p).injAck = false →
    let x := s.hlPort p
    let past (q : HlSent) : Bool := decide ((seq - q.f.lseq).toNat < 128)
    let ahead (q : HlSent) : Bool := decide ((q.f.lseq - seq).toNat < 128)
    ((∀ q ∈ x.sent, q.f.lseq ≠ seq) →
      (∃ t, exec (.ackReceive p seq cred) s = .next t ∧ violated s t p (Reg.hlSeqerr p) 12 ∧
        t.hlPort p = { x with win := s.hlWindow p }) ∧
      (∃ t, exec (.nakReceive p seq cred) s = .next t ∧ violated s t p (Reg.hlSeqerr p) 12 ∧
        t.hlPort p = { x with win := s.hlWindow p })) ∧
    ((∃ q ∈ x.sent, q.f.lseq = seq) →
      (∃ t, exec (.ackReceive p seq cred) s = .next t ∧
        t.hlPort p = { x with sent := x.sent.filter (fun q => !past q), cred := cred.toNat } ∧ onlyPort s t p []) ∧
      ((∀ q ∈ x.sent, q.tries ≤ max 1 (s.rfld (Reg.hlCfg p) 0 4)) → ∃ t, exec (.nakReceive p seq cred) s = .next t ∧
        t.hlPort p = { x with
          sent := (x.sent.filter (fun q => !(past q && q.f.lseq != seq))).map (fun q => if ahead q then { q with again := true } else q),
          cred := cred.toNat } ∧ onlyPort s t p []))) ∧
  (∀ (p : PortId) (s : State) (q : HlSent) (qs : List HlSent), (s.hlPort p).sent = q :: qs → s.hlState p = 2 → q.again = false →
    q.since + max 500 (s.rfld (Reg.hlCfg p) 8 16) ≤ s.now →
    (∀ r ∈ q :: qs, (r.f.lseq - q.f.lseq).toNat < 128) →
    ((∀ r ∈ q :: qs, r.tries ≤ max 1 (s.rfld (Reg.hlCfg p) 0 4)) → ∃ t, exec (.ackTimeout p) s = .next t ∧
      (t.hlPort p).sent = (q :: qs).map (fun r => { r with again := true }) ∧ onlyPort s t p []) ∧
    (max 1 (s.rfld (Reg.hlCfg p) 0 4) < q.tries → s.rfld (Reg.hlQcfg p) 0 8 = 0 → ∃ t, exec (.ackTimeout p) s = .next t ∧
      t.hlState p = 1 ∧ t.rbit (Reg.hlStat p) 9 = true ∧ t.rbit (Reg.hlStat p) 12 = true ∧
      t.reg (Reg.hlReplay p) = satSucc (s.reg (Reg.hlReplay p)) ∧ (t.hlPort p).sent = q :: qs ∧
      onlyPort s t p [Reg.hlStat p, Reg.hlReplay p, Reg.hlViol p])) ∧
  (∀ (p : PortId) (s : State), s.hlState p = 2 →
    let rx := (s.hlPort p).rxSeq
    let w := s.hlWindow p
    (∀ err, err = .badCrc ∨ err = .truncated → ∃ t c, exec (.linkFrameError p ⟨err, none⟩) s = .next t ∧
      violated s t p (Reg.hlCrcerr p) 11 ∧ t.hlPort p = { s.hlPort p with lcs := some (false, rx, c), win := w } ∧ credOf s p c) ∧
    exec (.linkFrameError p ⟨.endedBad, none⟩) s = .next s ∧
    (∃ t, exec (.linkFrameError p ⟨.badLcs, none⟩) s = .next t ∧ t.reg (Reg.hlCrcerr p) = satSucc (s.reg (Reg.hlCrcerr p)) ∧
      s.onlyRegs t [Reg.hlCrcerr p]) ∧
    (∃ t c, exec (.linkFrameError p ⟨.duplicate, none⟩) s = .next t ∧ t.hlPort p = { s.hlPort p with lcs := some (true, rx - 1, c) } ∧
      credOf s p c ∧ onlyPort s t p []) ∧
    (∃ t c, exec (.linkFrameError p ⟨.laterSeq, none⟩) s = .next t ∧ violated s t p (Reg.hlSeqerr p) 12 ∧
      t.hlPort p = { s.hlPort p with lcs := some (false, rx, c), win := w } ∧ credOf s p c) ∧
    (∃ t, exec (.linkFrameError p ⟨.strayAck, none⟩) s = .next t ∧ violated s t p (Reg.hlSeqerr p) 12 ∧
      t.hlPort p = { s.hlPort p with win := w }) ∧
    (∃ t c, exec (.linkFrameError p ⟨.unknownFrame, none⟩) s = .next t ∧ violated s t p (Reg.hlUnkerr p) 13 ∧
      t.hlPort p = { s.hlPort p with lcs := some (true, rx, c), rxSeq := rx + 1, win := w } ∧ credOf s p c) ∧
    (∀ f, f.rsp = true ∨ f.bc = true ∨ f.typ = 3 ∨ (∀ q, s.route f.src ≠ .port q) →
      ∃ t c, exec (.linkFrameError p ⟨.wrongNode f, none⟩) s = .next t ∧ violated s t p (Reg.hlNodeerr p) 14 ∧
      t.hlPort p = { s.hlPort p with lcs := some (true, rx, c), rxSeq := rx + 1, win := w } ∧ credOf s p c) ∧
    (∀ f q, f.rsp = false → f.bc = false → f.typ ≠ 3 → s.route f.src = .port q → ∃ t g, exec (.linkFrameError p ⟨.wrongNode f, none⟩) s = .next t ∧
      t.reg (Reg.hlNodeerr p) = satSucc (s.reg (Reg.hlNodeerr p)) ∧ t.rbit (Reg.hlStat p) 14 = true ∧
      (t.hlPort (if f.typ = 7 then p else q)).txq = (s.hlPort (if f.typ = 7 then p else q)).txq ++ [⟨g, s.stamp, false, none⟩] ∧
      g.rsp = true ∧ g.typ = f.typ ∧ g.dst = f.src ∧ g.src = s.hlId ∧ g.tag = f.tag ∧ g.payload = [] ∧
      (f.typ = 7 → g.w2 = f.w2 ||| 0x0100_0000 ∧ g.w3 = f.w3) ∧ (f.typ ≠ 7 → g.w2 = f.w2 ∧ g.w3 = 0x0100_0000)) ∧
    (∀ (f : HlFrame) (q : PortId), f.typ ≠ 7 → f.hops.toNat < 64 → f.bc = false → s.route f.dst = .port q → s.hlState q = 2 →
      (s.hlPort q).busy ≤ s.now → ∃ t, exec (.linkFrameError p ⟨.endedBad, some f⟩) s = .next t ∧
        t.hlPort q = { s.hlPort q with
          out := some { f with hops := f.hops + 1, lseq := if f.noseq then 0 else (s.hlPort q).txSeq }, eob := true } ∧
        onlyPort s t q [])) ∧
  (∀ (p : PortId) (s : State),
    (∃ t, exec (.hlInjDropack p) s = .next t ∧ t.hlPort p = { s.hlPort p with injAck := true } ∧ onlyPort s t p []) ∧
    (∃ t, exec (.hlInjRxnode p) s = .next t ∧ t.hlPort p = { s.hlPort p with injNode := true } ∧ onlyPort s t p []) ∧
    (∃ t, exec (.hlInjRxunk p) s = .next t ∧ t.hlPort p = { s.hlPort p with injUnk := true } ∧ onlyPort s t p []) ∧
    (∃ t, exec (.hlInjRxseq p) s = .next t ∧ t.hlPort p = { s.hlPort p with injSeq := true } ∧ onlyPort s t p []) ∧
    (∃ t, exec (.hlInjRxcrc p) s = .next t ∧ t.hlPort p = { s.hlPort p with injCrc := true } ∧ onlyPort s t p [] ∧
      ∀ f rx, s.hlState p = 2 → f.typ = 1 → f.rsp = false → ∃ u c, exec (.tsyncReceive p f rx) t = .next u ∧
        violated t u p (Reg.hlCrcerr p) 11 ∧
        u.hlPort p = { s.hlPort p with injCrc := false, lcs := some (false, (s.hlPort p).rxSeq, c), win := s.hlWindow p }))

/-- Port `p` is up and no injection waits for its next frame. -/
def lineUp (s : State) (p : PortId) : Prop :=
  s.hlState p = 2 ∧ (s.hlPort p).injCrc = false ∧ (s.hlPort p).injSeq = false ∧ (s.hlPort p).injUnk = false ∧ (s.hlPort p).injNode = false

/-- Port `p` receives the good frame `f`, of this type, for this node, with the LSEQ that it expects (R325, R327, R330). -/
def received (s : State) (p : PortId) (f : HlFrame) (typ : Nibble) (rsp : Bool) : Prop :=
  lineUp s p ∧ f.typ = typ ∧ f.rsp = rsp ∧ f.bc = false ∧ f.noseq = false ∧ f.lseq = (s.hlPort p).rxSeq ∧ hlGood f = true ∧
  f.src ≠ s.hlId ∧ (if typ = 7 then f.hops = 0 else s.route f.dst = .own)

/-- The frame has been acknowledged, with a CRED of the free receive buffers (R327, R328; log 131). -/
def acked (s t : State) (p : PortId) (f : HlFrame) : Prop :=
  (t.hlPort p).rxSeq = f.lseq + 1 ∧ ∃ c : Byte, (t.hlPort p).lcs = some (true, f.lseq, c) ∧ credOf s p c

/-- The response of this type to `f`, with these words and bytes, waits at port `q` as the last frame (R324, R336). -/
def answers (s t : State) (q : PortId) (f : HlFrame) (w2 w3 : Word) (data : List Byte) : Prop :=
  (t.hlPort q).txq = (s.hlPort q).txq ++ [⟨⟨f.typ, false, true, false, f.src, s.hlId, 0, 0, f.tag, w2, w3, data⟩, s.stamp, false, none⟩]

/-- Time and angles over the link: a source sends a TSYNC every HL_TSPER fc on the ports of HL_BCORIG; a follower uses the frame of its
source node and port once, with e as R332 computes it, and gives its Time Base a step in the next fc or slews it; a TSYNC frame is relayed
with HOPS + 1 on the ports of HL_BCFWD but its own; an ANGLE frame brings its snapshot, once, to every base that follows its node and
base, which holds the last four. How many snapshots are held and the corner values of a received base rest on log 44 and 101. (R45, R265,
R267, R268, R331–R334). -/
def Obligations.BroadcastsCarryTimeAndAngles : Prop :=
  (∀ s : State, s.rfld Reg.tmrTbctl 0 2 = 2 → s.tmrOn = true →
    (s.hl.tsAt + max 1000 (s.reg Reg.hlTsper).toNat ≤ s.now → ∃ t, exec .tsyncSend s = .next t ∧ t.hl.tsAt = s.now ∧
      (∀ q, ((s.rbit Reg.hlBcorig q.val = true → (t.hlPort q).txq = (s.hlPort q).txq ++
        [⟨⟨1, true, false, true, 0, s.hlId, 0, 0, 0, 0, 0, List.replicate 8 0⟩, s.stamp, true, none⟩]) ∧
        (s.rbit Reg.hlBcorig q.val = false → t.hlPort q = s.hlPort q))) ∧
      t = { s with hl := { s.hl with ports := t.hl.ports, tsAt := s.now } }) ∧
    (s.now < s.hl.tsAt + max 1000 (s.reg Reg.hlTsper).toNat → exec .tsyncSend s = .next s)) ∧
  (∀ (p : PortId) (f : HlFrame) (rx : Stamp) (s : State), lineUp s p → f.typ = 1 → f.rsp = false → hlGood f = true → f.hops.toNat < 64 →
    ∃ t, exec (.tsyncReceive p f rx) s = .next t ∧
      (∀ q : PortId, (t.hlPort q).txq = (s.hlPort q).txq ++ if q ≠ p ∧ s.rbit (Reg.hlBcfwd p) q.val = true then
        [⟨{ f with hops := f.hops + 1, lseq := 0 }, rx, false, some p⟩] else []) ∧
      (s.rbit (Reg.hlBcfwd p) 4 = false → t = { s with hl := { s.hl with ports := t.hl.ports } }) ∧
      (s.rbit (Reg.hlBcfwd p) 4 = true → s.follower = true → f.src.toNat = s.rfld Reg.hlTsctl 12 12 → p.val = s.rfld Reg.hlTsctl 0 2 →
        let orig := ofBytes f.payload
        ((f.src, BitVec.ofNat 64 orig) ∈ s.hl.tsSeen → t = { s with hl := { s.hl with ports := t.hl.ports } }) ∧
        ((f.src, BitVec.ofNat 64 orig) ∉ s.hl.tsSeen →
        let e : Int := (rx.toNat : Int) - (orig + 768 * f.hops.toNat + f.w2.toNat)
        let thr : Int := max 1 (s.rfld Reg.tmrTbsync 8 8) * 8
        let win : Int := s.rfld Reg.tmrTbsync 0 8
        t.reg Reg.tmrTberr = BitVec.ofInt 32 (max (-2 ^ 31) (min e (2 ^ 31 - 1))) ∧
        (thr ≤ -e → t.time.jump = BitVec.ofInt 64 (-e) ∧ t.time.slew = 0 ∧ t.rbit Reg.tmrTbstat 9 = true) ∧
        (-e < thr → t.time.jump = s.time.jump ∧ t.time.slew = BitVec.ofInt 64 (-e)) ∧
        (t.rbit Reg.tmrTbstat 0 = true ↔ -win ≤ e ∧ e ≤ win) ∧ (t.rbit Reg.tmrTbstat 1 = true ↔ win < e) ∧ t.time.quiet = 0 ∧
        t.hl.tsSeen = s.hl.tsSeen ++ [(f.src, BitVec.ofNat 64 orig)])) ∧
      t = { s with csr := t.csr, hl := t.hl, time := t.time, alm := t.alm, pins := t.pins } ∧
      s.sameRegs t ([Reg.tmrTberr, Reg.tmrTbstat, Reg.almStat, Reg.almGrpst] ++
        (List.finRange 8).map (fun r => Reg.almRnext r.val) ++ (List.finRange 8).map (fun r => Reg.almRturn r.val))) ∧
  (∀ (p : PortId) (f : HlFrame) (s : State) (b : BaseId), lineUp s p → f.typ = 2 → f.rsp = false → f.noseq = false →
    f.lseq = (s.hlPort p).rxSeq → hlGood f = true → s.rbit (Reg.hlBcfwd p) 4 = true → s.followsBase b f.src (f.w2.toNat % 8) = true →
    (∀ x ∈ s.hl.anSeen, x ≠ (f.src, f.w2.toNat % 8, BitVec.ofNat 64 (ofBytes (f.payload.take 8)))) →
    (∀ x ∈ (s.base b).snaps, x.t.toNat < ofBytes (f.payload.take 8)) →
    ∃ t n, exec (.angleReceive p f) s = .next t ∧ acked s t p f ∧ (t.base b).snaps = (n :: (s.base b).snaps).take 4 ∧
      (t.base b).last = some s.stamp ∧ (t.base b).still = none ∧
      n.t.toNat = ofBytes (f.payload.take 8) ∧ n.phase.toNat = ofBytes ((f.payload.drop 8).take 8) ∧
      n.vel.toNat = ofBytes ((f.payload.drop 16).take 8) ∧ n.limit.toNat = ofBytes ((f.payload.drop 24).take 8) ∧
      n.dir = f.w2.getLsbD 4 ∧ n.valid = f.w2.getLsbD 5 ∧ t.rbit (Reg.abStat b) 3 = true ∧
      (∀ c, s.followsBase c f.src (f.w2.toNat % 8) = false → t.base c = s.base c) ∧ t.engines = s.engines ∧ s.sameBytes t ∧
      t = { s with csr := t.csr, hl := t.hl, bases := t.bases, alm := t.alm, pins := t.pins, free := t.free })

/-- Messages between nodes: one for this node enters the queue of its engine and is answered with BUSY 0, or with BUSY 1 where delivery is
off or the queue is full; BUSY 0 ends the sender's message, BUSY 1 lets it be sent again after WAIT fc; a message that has waited is sent
again; a response that matches none is counted stale; one with no answer within HL_TXTO is given up. One to this node's own number is
delivered 60 fc later. The local delivery to the own node rests on log 39. (R335, R342). -/
def Obligations.NodeMessagesAreAnswered : Prop :=
  (∀ (p q : PortId) (f : HlFrame) (s : State), received s p f 3 false → s.route f.src = .port q → s.power = .run →
    let off := s.rbit Reg.hlMsgeng 31 = false
    let dest := s.map[s.rfld Reg.hlMsgeng 0 4]?
    ((off ∨ (∀ e, dest = some (some e) → 16 ≤ (s.eng e).inq.length)) → ∃ t, exec (.msgReceive p f) s = .next t ∧ acked s t p f ∧
      answers s t q f 0 1 [] ∧ t = { s with free := t.free, hl := { s.hl with ports := t.hl.ports } }) ∧
    (∀ e, ¬off → dest = some (some e) → (s.eng e).inq.length < 16 → ∃ t, exec (.msgReceive p f) s = .next t ∧ acked s t p f ∧
      answers s t q f 0 0 [] ∧
      arrives (s.eng e).inq (t.eng e).inq ⟨BitVec.ofNat 32 (2 ^ 31 + 2 * 2 ^ 28 + f.src.toNat),
        wordOf (f.payload.take 4), wordOf (f.payload.drop 4), s.now⟩ ∧ t.eng e = { s.eng e with inq := (t.eng e).inq } ∧
      s.sameEngines t e ∧ t = { s with engines := t.engines, free := t.free, hl := { s.hl with ports := t.hl.ports } })) ∧
  (∀ (p : PortId) (f : HlFrame) (s : State), received s p f 3 true →
    ((∀ x ∈ s.hl.msgs, ¬(x.tag = f.tag ∧ x.node = f.src ∧ x.sent.isSome = true)) → ∃ t, exec (.msgResponse p f) s = .next t ∧ acked s t p f ∧
      t.reg Reg.hlStale = satSucc (s.reg Reg.hlStale) ∧ onlyPort s t p [Reg.hlStale]) ∧
    (∀ m ∈ s.hl.msgs, m.tag = f.tag → m.node = f.src → m.sent.isSome = true → m.tries ≠ 0 → (∀ x ∈ s.hl.msgs, x.tag = f.tag → x = m) →
      (f.w3 = 0 → ∃ t, exec (.msgResponse p f) s = .next t ∧ acked s t p f ∧ ∀ x ∈ t.hl.msgs, x.tag ≠ f.tag) ∧
      (f.w3 = 1 → m.tries ≤ s.rfld Reg.hlBusyrt 16 8 → ∃ t, exec (.msgResponse p f) s = .next t ∧ acked s t p f ∧
        { m with sent := none, wait := s.now + s.rfld Reg.hlBusyrt 0 16 } ∈ t.hl.msgs))) ∧
  (∀ (tag : Byte) (s : State) (m : HlMsg) (q : PortId), s.hl.msgs.find? (·.tag == tag) = some m →
    m.sent = none → m.tries ≠ 0 → m.wait ≤ s.now →
    (s.route m.node = .own → ∃ t, exec (.msgResend tag) s = .next t ∧
      { m with tries := m.tries + 1, sent := some s.now } ∈ t.hl.msgs ∧ t.hl.own = s.hl.own ++ [(s.now + 60, tag)] ∧
      t = { s with hl := { s.hl with msgs := t.hl.msgs, own := t.hl.own } }) ∧
    (s.route m.node = .port q → ∃ t, exec (.msgResend tag) s = .next t ∧
      { m with tries := m.tries + 1, sent := some s.now } ∈ t.hl.msgs ∧
      (t.hlPort q).txq = (s.hlPort q).txq ++ [⟨⟨3, false, false, false, m.node, s.hlId, 0, 0, tag, 0, 0,
        bytesOf 4 m.lo.toNat ++ bytesOf 4 m.hi.toNat⟩, s.stamp, false, none⟩] ∧
      (∀ r, r ≠ q → t.hlPort r = s.hlPort r) ∧ t = { s with hl := { s.hl with ports := t.hl.ports, msgs := t.hl.msgs } })) ∧
  (∀ (tag : Byte) (s : State) (m : HlMsg) (e : EngId), s.hl.own = [(s.now, tag)] → s.hl.msgs = [m] → m.tag = tag → m.sent.isSome = true →
    s.power = .run → s.rbit Reg.hlMsgeng 31 = true → s.map[s.rfld Reg.hlMsgeng 0 4]? = some (some e) → (s.eng e).inq.length < 16 →
    let t := s.msgOwnDue
    arrives (s.eng e).inq (t.eng e).inq ⟨BitVec.ofNat 32 (2 ^ 31 + 2 * 2 ^ 28 + s.hlId.toNat), m.lo, m.hi, s.now⟩ ∧
    t.hl.msgs = [] ∧ t.hl.own = [] ∧ s.sameEngines t e) ∧
  (∀ (tag : Byte) (s : State) (m : HlMsg) (e : EngId) (k : Nat), (∀ x ∈ s.hl.txns, x.tag ≠ tag) → s.hl.msgs = [m] → m.tag = tag →
    m.src = some e → m.sent = some k → k + max 1000 (s.reg Reg.hlTxto).toNat ≤ s.now → m.tries ≠ 0 →
    ∃ t, exec (.transactionTimeout tag) s = .next t ∧ t.hl.msgs = [] ∧ t.reg Reg.hlMsgdrop = satSucc (s.reg Reg.hlMsgdrop) ∧
      t.rbit (Reg.teStat e) 2 = true ∧ logged s t 0x29 e.val m.node.toNat 0 ∧ t.engines = s.engines ∧
      t = { s with csr := t.csr, hl := { s.hl with msgs := [] }, logn := t.logn } ∧
      s.sameRegs t [Reg.hlMsgdrop, Reg.teStat e])

/-- Remote memory: a request of another node goes to the inbound master of its port at the address its window offset maps to, ordered with
ORD; one beyond the window is answered with RESP 1 and one that would cross 256 bytes with RESP 2. A response completes the request of its
tag; a stale one is counted, and so is one whose type or length does not fit its request, as unknown; no response within HL_TXTO gives
LINK. An image request is read through the port's master from the window of HL_IMGBASE and answered, or with RESP 2 beyond HL_IMGLEN. A
configuration response that matches none of the image requests that are out is stale, one that disagrees with its request is unknown (log
135 for the tags), one with an error ends the slot with a read error, and one that ends an image in which no error is found brings it into
the holding registers. What a failed image, a response that disagrees and the class of a CONFIG response do rests on log 83, 114 and 118.
(R336, R339, R340, R342, R390, R391). -/
def Obligations.RemoteRequestsAreServed : Prop :=
  (∀ (p q : PortId) (f : HlFrame) (s : State) (typ : Nibble) (kind : ReqKind) (size : Nat) (c : Instr), received s p f typ false →
    s.route f.src = .port q →
    (typ = 4 ∧ kind = .read ∧ size = f.w3.toNat % 2 ^ 9 ∧ c = .rreadRequest p f ∨
     typ = 5 ∧ kind = .write ∧ size = f.w3.toNat % 2 ^ 9 ∧ c = .rwriteRequest p f ∨
     typ = 6 ∧ kind = (if f.w3.getLsbD 12 then .atomSwap else .atomAdd) ∧ size = 4 ∧ c = .ratomRequest p f) →
    let a := if f.w2.toNat < 0x100_0000 then 0x1000_0000 + f.w2.toNat else 0x1F00_0000 + f.w2.toNat
    (0x200_0000 ≤ f.w2.toNat → ∃ t, exec c s = .next t ∧ acked s t p f ∧ answers s t q f f.w2 0x0100_0000 [] ∧
      t = { s with free := t.free, hl := { s.hl with ports := t.hl.ports } }) ∧
    (f.w2.toNat < 0x200_0000 → 256 < a % 256 + size → ∃ t, exec c s = .next t ∧ acked s t p f ∧ answers s t q f f.w2 0x0200_0000 [] ∧
      t = { s with free := t.free, hl := { s.hl with ports := t.hl.ports } }) ∧
    (f.w2.toNat < 0x200_0000 → a % 256 + size ≤ 256 → ∃ t r, exec c s = .next t ∧ acked s t p f ∧ t.mtx.reqs = s.mtx.reqs ++ [r] ∧
      r.m = 29 + p.val ∧ r.addr.toNat = a ∧ r.kind = kind ∧ r.len = size ∧ r.ordered = f.w3.getLsbD 16 ∧
      r.data = (if kind = .read then [] else f.payload.take size) ∧
      t.hl.inb = s.hl.inb ++ [⟨[(r.id, none)], p, f.src, f.tag, typ, f.w2, f.w3, size⟩] ∧
      t = { s with mtx := t.mtx, free := t.free, hl := { s.hl with ports := t.hl.ports, inb := t.hl.inb } })) ∧
  (∀ (p : PortId) (f : HlFrame) (s : State), received s p f 4 true ∨ received s p f 5 true ∨ received s p f 6 true →
    ((∀ x ∈ s.hl.txns, ¬(x.tag = f.tag ∧ x.node = f.src)) → ∃ t, exec (.remoteResponse p f) s = .next t ∧ acked s t p f ∧
      t.reg Reg.hlStale = satSucc (s.reg Reg.hlStale) ∧ onlyPort s t p [Reg.hlStale]) ∧
    (∀ x r, s.hl.txns.find? (fun x => x.tag == f.tag && x.node == f.src) = some x → s.findReq x.id = some r →
      r.gone = false →
      let typ : Nibble := match r.kind with | .read => 4 | .write => 5 | _ => 6
      let fits := f.typ = typ ∧ (r.kind = .read → f.w3.toNat / 2 ^ 24 % 8 = 0 → f.payload.length = max r.len 8)
      (¬fits → ∃ t, exec (.remoteResponse p f) s = .next t ∧ acked s t p f ∧ violated s t p (Reg.hlUnkerr p) 13 ∧
        (t.hlState p ≠ 3 → t.hl.txns = s.hl.txns)) ∧
      (fits → ∃ t u, exec (.remoteResponse p f) s = .next t ∧ acked s t p f ∧ t.findReq x.id = some u ∧
        u = { r with stage := .done, resp := u.resp, rdata := f.payload.take r.len } ∧ u.resp.code = f.w3.toNat / 2 ^ 24 % 8 ∧
        t.hl.txns = s.hl.txns.filter (fun y => y.tag != f.tag) ∧ t = { s with mtx := t.mtx, hl := t.hl, free := t.free }))) ∧
  (∀ (tag : Byte) (s : State) (x : HlTxn) (r : Req), s.hl.txns.find? (·.tag == tag) = some x → s.findReq x.id = some r → r.gone = false →
    (x.since + max 1000 (s.reg Reg.hlTxto).toNat ≤ s.now → ∃ t, exec (.transactionTimeout tag) s = .next t ∧
      t.findReq x.id = some { r with stage := .done, resp := .link, rdata := [] } ∧
      t.hl.txns = s.hl.txns.filter (fun y => y.tag != tag) ∧ t = { s with mtx := t.mtx, hl := { s.hl with txns := t.hl.txns } }) ∧
    (s.now < x.since + max 1000 (s.reg Reg.hlTxto).toNat → exec (.transactionTimeout tag) s = .next s)) ∧
  (∀ (p : PortId) (f : HlFrame) (s : State), received s p f 7 false →
    let n := f.w2.toNat / 2 ^ 8 % 2 ^ 9
    let a := (s.reg Reg.hlImgbase).toNat + f.w3.toNat
    ((s.reg Reg.hlImglen).toNat < f.w3.toNat + n → ∃ t, exec (.configImageRequest p f) s = .next t ∧ acked s t p f ∧
      answers s t p f (f.w2 ||| 0x0200_0000) f.w3 [] ∧ onlyPort s t p []) ∧
    (f.w3.toNat + n ≤ (s.reg Reg.hlImglen).toNat → a + n ≤ 2 ^ 32 → ∃ t rs, exec (.configImageRequest p f) s = .next t ∧ acked s t p f ∧
      t.mtx.reqs = s.mtx.reqs ++ rs ∧ (∀ r ∈ rs, r.m = 29 + p.val ∧ r.kind = .read) ∧
      rs.map (fun r => (r.addr.toNat, r.len)) =
        (if a % 256 + n ≤ 256 then [(a, n)] else [(a, 256 - a % 256), (a / 256 * 256 + 256, a % 256 + n - 256)]) ∧
      t.hl.inb = s.hl.inb ++ [⟨rs.map fun r => (r.id, none), p, f.src, f.tag, 7, f.w2, f.w3, n⟩] ∧
      t = { s with mtx := t.mtx, free := t.free, hl := { s.hl with ports := t.hl.ports, inb := t.hl.inb } })) ∧
  (∀ (s : State) (q : HlIn) (id : Nat) (bs : List Byte), s.hl.inb = [q] → q.parts = [(id, none)] →
    (q.typ = 7 ∨ ∃ p, s.route q.src = .port p) →
    let t := s.remoteDone id .okay bs
    let body (typ : Nibble) : List Byte := if typ = 5 then [] else if typ = 7 then bs else bs ++ List.replicate (8 - bs.length) 0
    t.hl.inb = [] ∧ ∃ p : PortId, (if q.typ = 7 then p = q.port else s.route q.src = .port p) ∧
      (t.hlPort p).txq = (s.hlPort p).txq ++ [⟨⟨q.typ, false, true, false, q.src, s.hlId, 0, 0, q.tag, q.x,
        (if q.typ = 7 then q.w3 else 0), body q.typ⟩, s.stamp, false, none⟩] ∧
      (∀ r, r ≠ p → t.hlPort r = s.hlPort r) ∧ t = { s with hl := { s.hl with ports := t.hl.ports, inb := [] } }) ∧
  (∀ (p : PortId) (f : HlFrame) (x : Option ImgBody) (s : State), received s p f 7 true →
    let asks (h : HlImage) := h.out.find? fun y => y.2.2.isNone && y.1 / 256 % 256 == f.tag.toNat
    let base := { s.hlTake p f with boot := { s.boot with wait := none, go := false, fetch := none } }.bootPhase 2 2
    ((∀ h, s.boot.fetch = some h → asks h = none ∨ h.port ≠ p ∨ f.src ≠ s.hlNeighbour p) → ∃ t, exec (.configResponse p f x) s = .next t ∧
      acked s t p f ∧ t.reg Reg.hlStale = satSucc (s.reg Reg.hlStale) ∧ onlyPort s t p [Reg.hlStale]) ∧
    (∀ h y, s.boot.fetch = some h → asks h = some y → h.port = p → f.src = s.hlNeighbour p →
      let n := f.w2.toNat / 2 ^ 8 % 2 ^ 9
      let code := f.w2.toNat / 2 ^ 24 % 8
      (f.w3.toNat ≠ y.1 ∨ n ≠ y.2.1 → ∃ t, exec (.configResponse p f x) s = .next t ∧ acked s t p f ∧
        violated s t p (Reg.hlUnkerr p) 13 ∧ t.boot = s.boot) ∧
      (f.w3.toNat = y.1 → n = y.2.1 → code ≠ 0 →
        exec (.configResponse p f x) s = .next (base.loadOffered 2 (.readError (imgGen h.got)))) ∧
      (f.w3.toNat = y.1 → n = y.2.1 → code = 0 → h.out = [(y.1, y.2.1, none)] →
        let bs := h.got ++ f.payload
        let body := match x with | some b => b | none => match h.body with | some b => b | none => ImgBody.empty
        0x20 ≤ bs.length → headerOk bs = true → imgLength bs = bs.length → base.imageError bs body = none →
        exec (.configResponse p f x) s = .next (base.slotHolds (imageOf bs body) 2 0))))

/-! PCIe and Ethernet (R351–R360) -/

/-- From `s` to `t` the requests `ids` are issued by master `m`, in order, for `n` bytes from `a` on: reads, or writes of `data`. None
crosses a multiple of 64 (R304, R357). -/
def asked (s t : State) (m : Nat) (write : Bool) (a n : Nat) (data : List Byte) (ids : List Nat) : Prop :=
  ∃ rs : List Req, t.mtx.reqs = s.mtx.reqs ++ rs ∧ rs.map (·.id) = ids ∧ (rs.map (·.len)).sum = n ∧
    (∀ r ∈ rs, r.m = m ∧ r.kind = (if write then .write else .read) ∧ 0 < r.len ∧ r.addr.toNat % 64 + r.len ≤ 64) ∧
    ∀ i r, rs[i]? = some r → let o := ((rs.take i).map (·.len)).sum
      r.addr = BitVec.ofNat 32 (a + o) ∧ r.data = (if write then (data.drop o).take r.len else [])

/-- From `s` to `t` an error of a host request is reported: bit `b` of PCIE_STAT, `u` in the Uncorrectable Error Status of AER and `d` in the
dword of Device Control and Device Status. -/
def reported (s t : State) (b : Nat) (u d : Word) : Prop :=
  t.rbit Reg.pcieStat b = true ∧ t.cfg 0x104 = s.cfg 0x104 ||| u ∧ t.cfg 0x78 = s.cfg 0x78 ||| d ∧ s.sameRegs t [Reg.pcieStat] ∧
  t = { s with csr := t.csr, pcie := { s.pcie with cfg := t.pcie.cfg } }

/-- PCIe requests: an inbound request of the host is issued by master 26 in parts that stay within 256 bytes, at the addresses its BAR
maps to, and a malformed one is reported; a read is complete with the data before its first failing part and that part's status, and a
failing write part is reported in PCIE_STAT and AER. A completion answers the outbound read whose tag it bears: data, DECERR for
Unsupported Request, REFUSE else; one that none waits for is late; the timeout refuses the oldest. Training ends as ×1 or ×2. The end of
the link refuses every request at target 29 and resets master 26, and PERST# resets the configuration space. Where AER and PCI Express
stand is the model's choice (log 134) (R351–R354, R356, R379). MSI and the configuration space: vector v, enabled and not masked, is sent
once as v AND (n − 1) when its source asserts; a masked one waits as pending, and is sent when the mask clears. A BAR holds the address
bits of its size that the host writes. Where the MSI capability stands is the model's choice (log entries 63, 134) (R351, R352, R355). -/
def Obligations.PcieRequestsMsiAndConfiguration : Prop :=
  (
  (∀ (s : State) (o : Nat),
    (o < 0x20_0000 → s.barAddr true o = 0x5000_0000 + o) ∧
    (0x20_0000 ≤ o → o < 0x30_0000 → s.barAddr true o = 0x5100_0000 + (o - 0x20_0000)) ∧
    (0x30_0000 ≤ o → o < 0x40_0000 → s.target (s.barAddr true o) = none) ∧
    (o < 0x400_0000 → s.barAddr false o = (s.reg (Reg.pcieWin (o / 2 ^ 24))).toNat % 256 * 2 ^ 24 + o % 2 ^ 24)) ∧
  (∀ (q : PcieReq) (s : State), s.pcieUp = true → s.power = .run → q.bad = true → ∃ t, exec (.pcieInboundRequest q) s = .next t ∧
    reported s t 11 0x0004_0000 0x0004_0000) ∧
  (∀ (q : PcieIn) (r : Req) (s : State), s.pcie.inb.find? (fun x => x.parts.any (·.1 == r.id)) = some q →
    let parts := q.parts.map (partTake r.id r.resp r.rdata)
    let t := s.pcieAnswer r
    (q.write = true → r.resp = .decErr → reported s { t with pcie := { t.pcie with inb := s.pcie.inb } } 9 0x0010_0000 0x000A_0000) ∧
    (q.write = true → r.resp ≠ .okay → r.resp ≠ .decErr →
      reported s { t with pcie := { t.pcie with inb := s.pcie.inb } } 10 0x0000_8000 0x0002_0000) ∧
    ((q.write = true ∨ ∃ p ∈ parts, p.2 = none) → t.pcie.cpl = s.pcie.cpl) ∧
    (q.write = false → s.sameRegs t []) ∧
    (∀ good bad : List (Nat × Option (Resp × List Byte)), q.write = false → (∀ p ∈ parts, p.2 ≠ none) → parts = good ++ bad →
      (∀ p ∈ good, ∃ bs, p.2 = some (.okay, bs)) →
      let data := good.flatMap fun p => match p.2 with | some x => x.2 | none => []
      (bad = [] → t.pcie.cpl = some (.success, data)) ∧
      ∀ p ps c bs, bad = p :: ps → p.2 = some (c, bs) → c ≠ .okay →
        t.pcie.cpl = some (if c = .decErr then .unsupported else .abort, data))) ∧
  (∀ (q : PcieReq) (s : State), s.pcieUp = true → s.power = .run → q.bad = false → 0 < q.len →
    ∃ (t : State) (ps : List (Nat × Nat)) (rs : List Req), exec (.pcieInboundRequest q) s = .next t ∧ t.mtx.reqs = s.mtx.reqs ++ rs ∧
      ((ps.map fun p : Nat × Nat => p.2).sum = q.len) ∧ (∀ p ∈ ps, p.1 % 256 + p.2 ≤ 256 ∧ 0 < p.2) ∧
      (∀ i p, ps[i]? = some p → p.1 = q.off.toNat + ((ps.take i).map fun p : Nat × Nat => p.2).sum) ∧
      rs.map (fun r => (r.m, r.addr, r.kind, r.len, r.data)) = ps.map (fun p =>
        (26, BitVec.ofNat 32 (s.barAddr q.bar0 p.1), if q.write then .write else .read, p.2,
          if q.write then (q.data.drop (p.1 - q.off.toNat)).take p.2 else [])) ∧
      t.pcie.inb = s.pcie.inb ++ [⟨q.write, rs.map fun r => (r.id, none)⟩] ∧
      t = { s with mtx := t.mtx, pcie := { s.pcie with inb := t.pcie.inb } }) ∧
  (∀ (c : PcieCpl) (s : State), s.pcieUp = true →
    ((∀ x ∈ s.pcie.out, x.1 ≠ c.tag) → ∃ t, exec (.pcieCompletion c) s = .next t ∧ t.rbit Reg.pcieStat 12 = true ∧ s.onlyRegs t [Reg.pcieStat]) ∧
    (∀ x r, x ∈ s.pcie.out → x.1 = c.tag → s.findReq c.tag = some r → r.gone = false → ∃ t, exec (.pcieCompletion c) s = .next t ∧
      t.findReq c.tag = some { r with
        stage := .done
        resp := (match c.status with | .success => .okay | .unsupported => .decErr | _ => .refuse)
        rdata := if c.status = .success then c.data.take r.len else [] } ∧
      t.pcie.out = s.pcie.out.filter (fun x => x.1 != c.tag) ∧ t = { s with mtx := t.mtx, pcie := { s.pcie with out := t.pcie.out } })) ∧
  (∀ (s : State) (id k : Nat) (xs : List (Nat × Nat)) (r : Req), s.pcie.out = (id, k) :: xs → s.findReq id = some r →
    r.gone = false →
    (k + 1000 * max 1 (s.reg Reg.pcieCplto).toNat ≤ s.now → ∃ t, exec .pcieCompletionTimeout s = .next t ∧
      t.findReq id = some { r with stage := .done, resp := .refuse, rdata := [] } ∧ t.pcie.out = xs.filter (fun x => x.1 != id) ∧
      t = { s with mtx := t.mtx, pcie := { s.pcie with out := t.pcie.out } }) ∧
    (s.now < k + 1000 * max 1 (s.reg Reg.pcieCplto).toNat → exec .pcieCompletionTimeout s = .next s)) ∧
  (∀ (w : Fin 4) (g : Bool) (s : State), (s.power = .run ∨ s.power = .hold) → s.rbit Reg.pcieCtl 0 = true →
    (w.val = 1 ∨ w.val = 2) → ∃ t, exec (.pcieLinkUp w g) s = .next t ∧ t.pcieUp = true ∧ t.rfld Reg.pcieStat 0 2 = w.val ∧ t.rbit Reg.pcieStat 2 = g ∧
      s.onlyRegs t [Reg.pcieStat]) ∧
  (∀ (perst : Bool) (s : State), (s.power = .run ∨ s.power = .hold) →
    (∀ q ∈ s.mtx.reqs, q.m = 26 → q.kind = .read ∨ q.kind = .write) →
    ∃ t, exec (.pcieLinkReset perst) s = .next t ∧ t.pcieUp = false ∧ t.rbit Reg.pcieStat 8 = true ∧ t.pcie.out = [] ∧ t.pcie.inb = [] ∧
      t.mtx.reqs = s.mtx.reqs.filterMap (fun q => if q.gone = true then some q
        else if q.m = 26 then
          (if q.stage = .queued then none else some { q with stage := .dropped (q.stage == .accepted || q.stage == .passed) })
        else if q.tgt = some 29 ∧ q.stage ≠ .queued ∧ q.stage ≠ .done then some { q with stage := .done, resp := .refuse, rdata := [] }
        else some q) ∧
      t.pcie.cfg = (if perst then [] else s.pcie.cfg) ∧ t.pcie.pend = (if perst then 0 else s.pcie.pend) ∧
      t = { s with csr := t.csr, mtx := t.mtx, pcie := t.pcie, hl := t.hl, logn := t.logn } ∧
      s.sameRegs t [Reg.pcieStat, Reg.mtxStat, Reg.mtxRstaddr, Reg.mtxRstinfo, Reg.mtxRstcnt])) ∧
  (
  (∀ (v : MsiId) (s : State), (s.power = .run ∨ s.power = .hold) → s.rbit (Reg.pcieMsirt v) 31 = true →
    s.source (s.rfld (Reg.pcieMsirt v) 0 8) = true → s.msiOn = true → s.pcieUp = true →
    let n := 2 ^ min 5 ((s.cfg msiCap).toNat / 2 ^ 20 % 8)
    (s.pcie.seen.getLsbD v.val = true → exec (.msiSend v) s = .next s) ∧
    (s.pcie.seen.getLsbD v.val = false →
      (s.msiMasked v = false → ∃ t, exec (.msiSend v) s = .next t ∧ t.pcie.msi = some (v.val % n) ∧ t.pcie.seen.getLsbD v.val = true ∧
        t = { s with pcie := { s.pcie with seen := t.pcie.seen, msi := t.pcie.msi, pend := t.pcie.pend } }) ∧
      (s.msiMasked v = true → ∃ t, exec (.msiSend v) s = .next t ∧ t.pcie.pend = s.pcie.pend ||| BitVec.ofNat 32 (2 ^ v.val) ∧
        t.pcie.msi = s.pcie.msi ∧ t.pcie.seen.getLsbD v.val = true ∧
        t = { s with pcie := { s.pcie with seen := t.pcie.seen, pend := t.pcie.pend } }))) ∧
  (∀ (v : MsiId) (w : Word) (s : State), s.pcieUp = true → s.msiOn = true → s.pcie.pend = BitVec.ofNat 32 (2 ^ v.val) →
    w.getLsbD v.val = false → ∃ t, exec (.pcieConfigRequest true (BitVec.ofNat 12 (msiCap + 16)) w) s = .next t ∧
      t.cfg (msiCap + 16) = w ∧ t.pcie.msi = some (v.val % 2 ^ min 5 ((s.cfg msiCap).toNat / 2 ^ 20 % 8)) ∧ t.pcie.pend = 0 ∧
      t = { s with pcie := { s.pcie with cfg := t.pcie.cfg, msi := t.pcie.msi, pend := 0 } }) ∧
  (∀ (o : CfgOffset) (keep fix w : Word) (s : State), s.pcieUp = true → s.pcie.pend = 0 →
    (o = 0x10 ∧ keep = 0xFFC0_0000 ∧ fix = 0 ∨ o = 0x18 ∧ keep = 0xFC00_0000 ∧ fix = 0xC ∨ o = 0x1C ∧ keep = 0xFFFF_FFFF ∧ fix = 0) →
    ∃ t u, exec (.pcieConfigRequest true o w) s = .next t ∧ t = { s with pcie := { s.pcie with cfg := t.pcie.cfg } } ∧
      exec (.pcieConfigRequest false o 0) t = .next u ∧ u.rdata = [w &&& keep ||| fix] ∧ u = { t with rdata := u.rdata }))

/-- The answers of the parts `ps` of a step, once the request `r` is answered as the last of them: the code of the first that failed, and
their bytes. -/
def answered (ps : List (Nat × Option (Resp × List Byte))) (r : Req) (c : Resp) (bs : List Byte) : Prop :=
  (∃ p ∈ ps, p.1 = r.id) ∧ (∀ p ∈ ps, p.1 ≠ r.id → p.2 ≠ none) ∧ partsAnswer (ps.map (partTake r.id r.resp r.rdata)) = (c, bs)

/-- From `s` to `t` the transmit descriptor of the job `j` is written back with OWN = 0, ERR = 1 and the timestamp that TSREQ asks for. -/
def givenUp (s t : State) (m : PairId) (j : EthJob) (ids : List Nat) : Prop :=
  asked s t (27 + m.val) true (j.at' + 4) (if j.w1.getLsbD 29 then 12 else 4)
    (bytesOf 4 ((j.w1 &&& 0x77FF_FFFF) ||| 0x0800_0000).toNat ++ if j.w1.getLsbD 29 then bytesOf 8 (s.fc <<< 3).toNat else []) ids ∧
  t.eth[m].txJob = some { j with step := .back, parts := ids.map (·, none) } ∧
  t.eth[m] = { s.eth[m] with txJob := t.eth[m].txJob, down := t.eth[m].down }

/-- From `s` to `t` nothing but the MAC `m`, the requests, the free values drawn and the registers of `rs` changes. -/
def onlyEth (s t : State) (m : PairId) (rs : List Nat) : Prop :=
  t = { s with csr := t.csr, mtx := t.mtx, eth := t.eth, free := t.free } ∧ (∀ i : PairId, i ≠ m → t.eth[i] = s.eth[i]) ∧ s.sameRegs t rs

/-- Ethernet: a MAC that may send reads the descriptor at its place in the transmit ring; one that it owns has its buffer read; the frame is
then sent, and the descriptor written back with OWN = 0 and the timestamp where TSREQ asks for it, or with ERR = 1 where the buffer cannot
be read or the link goes down. A good frame that arrives reads the next receive descriptor: its bytes are written to the buffer, and the
descriptor gets its length, STATUS 0 and timestamp; one that is not owned is not used, and the frame counts as discarded. A bad frame is
counted, a PAUSE frame stops the sender for its time at the speed of the in-band status or of SPD; the in-band link status acts as written, and
an MDIO access keeps ETH_MDIO.BUSY set until it ends. The spec leaves open and the model chooses what a frame too short or too long to send does
(log 130), the addresses and lengths that it checks (log 78), one descriptor in hand and what IRQ asks for (log 77), and PHY timing (log 119)
(R357–R360, R379). -/
def Obligations.EthernetWalksItsRings : Prop :=
  (∀ (m : PairId) (s : State), (s.power = .run ∨ s.power = .hold) → s.rbit (Reg.ethCtl m) 0 = true → s.eth[m].down = false →
    s.eth[m].pause ≤ s.now →
    (s.eth[m].txJob = none → ∃ t ids, exec (.ethTransmitFrame m) s = .next t ∧
      let a := (s.reg (Reg.ethTxring m)).toNat + s.eth[m].tx
      asked s t (27 + m.val) false a 16 [] ids ∧
      t.eth[m] = { s.eth[m] with txJob := some ⟨.desc, a, 0, ids.map (·, none), [], 0⟩ } ∧ onlyEth s t m []) ∧
    (∀ j, s.eth[m].txJob = some j → j.step = .ready → (j.bytes.length < 60 ∨ 1518 < j.bytes.length) →
      ∃ t ids, exec (.ethTransmitFrame m) s = .next t ∧ givenUp s t m j ids ∧ onlyEth s t m []) ∧
    (∀ j, s.eth[m].txJob = some j → j.step = .ready → 60 ≤ j.bytes.length → j.bytes.length ≤ 1518 →
      ∃ t ids, exec (.ethTransmitFrame m) s = .next t ∧
      let ts := (s.fc <<< 3) + BitVec.ofNat 64 (s.rfld (Reg.ethTsofs m) 16 16)
      asked s t (27 + m.val) true (j.at' + 4) (if j.w1.getLsbD 29 then 12 else 4)
        (bytesOf 4 (j.w1 &&& 0x77FF_FFFF).toNat ++ if j.w1.getLsbD 29 then bytesOf 8 ts.toNat else []) ids ∧
      t.eth[m] = { s.eth[m] with out := j.bytes ++ bytesOf 4 (crc32 j.bytes).toNat, txJob := some { j with step := .back, parts := ids.map (·, none) } } ∧ onlyEth s t m []) ∧
    (∀ j, s.eth[m].txJob = some j → j.step ≠ .ready → exec (.ethTransmitFrame m) s = .next s)) ∧
  (∀ (m : PairId) (s : State), (s.power = .run ∨ s.power = .hold) →
    (s.rbit (Reg.ethCtl m) 0 = false ∨ s.eth[m].down = true ∨ s.now < s.eth[m].pause) → exec (.ethTransmitFrame m) s = .next s) ∧
  (∀ (m : PairId) (s : State) (r : Req), (s.power = .run ∨ s.power = .hold) → s.nextResponse (27 + m.val) = some r → r.resp = .okay →
    (EthJob.asks s.eth[m].txJob r.id = true ∨ EthJob.asks s.eth[m].rxJob r.id = true) →
    exec (.response (Fin.ofNat 33 (27 + m.val))) s = .next (((s.dropReq r.id).pumpReq (27 + m.val)).ethAnswer m r)) ∧
  (∀ (m : PairId) (s : State) (r : Req) (j : EthJob) (c : Resp) (bs : List Byte), s.eth[m].txJob = some j → answered j.parts r c bs →
    let t := s.ethAnswer m r
    let w1 := wordAt bs 1
    (j.step = .desc → (c ≠ .okay ∨ w1.getLsbD 31 = false ∨ s.eth[m].down = true) →
      t.mtx = s.mtx ∧ t.eth[m] = { s.eth[m] with txJob := none } ∧ onlyEth s t m []) ∧
    (j.step = .desc → c = .okay → w1.getLsbD 31 = true → s.eth[m].down = false → ∃ ids ps,
      asked s t (27 + m.val) false (wordAt bs 0).toNat (w1.toNat % 2 ^ 11) [] ids ∧ ps = ids.map (·, none) ∧
      t.eth[m] = { s.eth[m] with txJob := some { j with w1 := w1, parts := ps, step := if ids = [] then .ready else .data } } ∧
      onlyEth s t m []) ∧
    (j.step = .data → c = .okay → s.eth[m].down = false →
      t.mtx = s.mtx ∧ t.eth[m] = { s.eth[m] with txJob := some { j with step := .ready, bytes := bs, parts := [] } } ∧ onlyEth s t m []) ∧
    (j.step = .data → (c ≠ .okay ∨ s.eth[m].down = true) → ∃ ids, givenUp s t m j ids ∧ onlyEth s t m []) ∧
    (j.step = .back → j.at' = (s.reg (Reg.ethTxring m)).toNat + s.eth[m].tx → t.mtx = s.mtx ∧
      t.eth[m] = { s.eth[m] with txJob := none, tx := if j.w1.getLsbD 30 then 0 else s.eth[m].tx + 16 } ∧
      t.reg (Reg.ethStat m) = (if j.w1.getLsbD 28 then s.reg (Reg.ethStat m) ||| 0x100 else s.reg (Reg.ethStat m)) ∧
      onlyEth s t m [Reg.ethStat m])) ∧
  (∀ (m : PairId) (f : EthFrame) (s : State), (s.power = .run ∨ s.power = .hold) → s.rbit (Reg.ethCtl m) 1 = true →
    ((f.fcsOk = false ∨ f.data.length < 64 ∨ 1522 < f.data.length) → ∃ t, exec (.ethReceiveFrame m f) s = .next t ∧
      t.reg (Reg.ethRxerr m) = satSucc (s.reg (Reg.ethRxerr m)) ∧ t.rbit (Reg.ethStat m) 11 = true ∧
      s.onlyRegs t [Reg.ethRxerr m, Reg.ethStat m]) ∧
    (f.fcsOk = true → 64 ≤ f.data.length → f.data.length ≤ 1522 → ∀ q, pauseTime f.data = some q →
      ∃ t k k', exec (.ethReceiveFrame m f) s = .next t ∧ t.eth[m].pause = s.now + q * 512 * k ∧
        (let speed := if s.rbit (Reg.ethCtl m) 2 then (match s.eth[m].speed with | some v => v.toNat | none => k')
          else s.rfld (Reg.ethCtl m) 4 2
         k = (match speed with | 0 => 100 | 1 => 10 | _ => 1)) ∧
        t = { s with eth := t.eth } ∧ ∀ i : PairId, i ≠ m → t.eth[i] = s.eth[i]) ∧
    (f.fcsOk = true → 64 ≤ f.data.length → f.data.length ≤ 1522 → pauseTime f.data = none →
      (s.eth[m].rxJob ≠ none → ∃ t, exec (.ethReceiveFrame m f) s = .next t ∧
        t.eth[m] = { s.eth[m] with rxq := s.eth[m].rxq ++ [f] } ∧ t.mtx = s.mtx ∧ onlyEth s t m []) ∧
      (s.eth[m].rxJob = none → s.eth[m].rxq = [] → ∃ t ids, exec (.ethReceiveFrame m f) s = .next t ∧
        let a := (s.reg (Reg.ethRxring m)).toNat + s.eth[m].rx
        asked s t (27 + m.val) false a 16 [] ids ∧ onlyEth s t m [] ∧
        t.eth[m] = { s.eth[m] with rxJob := some ⟨.desc, a, 0, ids.map (·, none), f.data,
          f.ts - BitVec.ofNat 64 (s.rfld (Reg.ethTsofs m) 0 16)⟩ }))) ∧
  (∀ (m : PairId) (s : State) (r : Req) (j : EthJob) (c : Resp) (bs : List Byte), EthJob.asks s.eth[m].txJob r.id = false →
    s.eth[m].rxJob = some j → s.eth[m].rxq = [] → answered j.parts r c bs →
    let t := s.ethAnswer m r
    let w1 := wordAt bs 1
    (j.step = .desc → (c ≠ .okay ∨ w1.getLsbD 31 = false) → t.mtx = s.mtx ∧ t.eth[m] = { s.eth[m] with rxJob := none } ∧
      t.reg (Reg.ethRxnodesc m) = satSucc (s.reg (Reg.ethRxnodesc m)) ∧ t.rbit (Reg.ethStat m) 12 = true ∧
      onlyEth s t m [Reg.ethRxnodesc m, Reg.ethStat m]) ∧
    (j.step = .desc → c = .okay → w1.getLsbD 31 = true → 0 < min j.bytes.length (w1.toNat % 2 ^ 11) → ∃ ids,
      asked s t (27 + m.val) true ((wordAt bs 0).toNat / 8 * 8) (min j.bytes.length (w1.toNat % 2 ^ 11))
        (j.bytes.take (w1.toNat % 2 ^ 11)) ids ∧
      t.eth[m] = { s.eth[m] with rxJob := some { j with step := .data, w1 := w1, parts := ids.map (·, none) } } ∧ onlyEth s t m []) ∧
    (j.step = .data → ∃ (ids : List Nat) (w : Word), asked s t (27 + m.val) true (j.at' + 4) 12 (bytesOf 4 w.toNat ++ bytesOf 8 j.ts.toNat) ids ∧
      w.getLsbD 31 = false ∧ w.toNat % 2 ^ 11 = min j.bytes.length (j.w1.toNat % 2 ^ 11) ∧
      (c = .okay → j.bytes.length ≤ j.w1.toNat % 2 ^ 11 → w.toNat / 2 ^ 24 % 16 = 0) ∧
      t.eth[m] = { s.eth[m] with rxJob := some { j with step := .back, parts := ids.map (·, none) } } ∧ onlyEth s t m []) ∧
    (j.step = .back → j.at' = (s.reg (Reg.ethRxring m)).toNat + s.eth[m].rx → t.mtx = s.mtx ∧
      t.eth[m] = { s.eth[m] with rxJob := none, rx := if j.w1.getLsbD 30 then 0 else s.eth[m].rx + 16 } ∧
      t.reg (Reg.ethStat m) = (if j.w1.getLsbD 28 then s.reg (Reg.ethStat m) ||| 0x200 else s.reg (Reg.ethStat m)) ∧
      onlyEth s t m [Reg.ethStat m])) ∧
  (∀ (m : PairId) (s : State), (s.power = .run ∨ s.power = .hold) →
    (∃ t, exec (.ethLinkDown m) s = .next t ∧ t.rbit (Reg.ethStat m) 0 = false ∧ t.rbit (Reg.ethStat m) 10 = true ∧ t.eth[m].down = true ∧
      (∀ j, s.eth[m].txJob = some j → j.step = .ready → ∃ ids, givenUp s t m j ids) ∧
      ((∀ j, s.eth[m].txJob = some j → j.step ≠ .ready) → t.mtx = s.mtx ∧ t.eth[m] = { s.eth[m] with down := true }) ∧
      onlyEth s t m [Reg.ethStat m]) ∧
    (∀ v, ∃ t, exec (.ethLinkUp ⟨m, v⟩) s = .next t ∧ t.rbit (Reg.ethStat m) 0 = true ∧
      t.eth[m] = { s.eth[m] with down := false, speed := some v } ∧ t.mtx = s.mtx ∧
      onlyEth s t m [Reg.ethStat m])) ∧
  (∀ (m : PairId) (v : Word) (phy : MdioPhy) (s : State), (s.power = .run ∨ s.power = .hold) → s.eth[m].mdio = none →
    ∃ t w, exec (.mdioAccess m v phy) s = .next t ∧ t.reg (Reg.ethMdio m) = 0x8000_0000 ||| (v &&& 0x43FF_FFFF) ∧
      t.eth[m] = { s.eth[m] with mdio := some (s.now + phy.lasts.toNat + 1, w) } ∧
      w = (if v.getLsbD 30 then v &&& 0x43FF_FFFF else (v &&& 0x43FF_0000) ||| phy.data.setWidth 32) ∧
      onlyEth s t m [Reg.ethMdio m] ∧ t.mtx = s.mtx) ∧
  (∀ (m : PairId) (k : Nat) (w : Word) (s : State), s.eth[m].mdio = some (k, w) →
    (s.now < k → s.mdioEnd m = s) ∧
    (k ≤ s.now → (s.mdioEnd m).reg (Reg.ethMdio m) = w ∧ (s.mdioEnd m).eth[m] = { s.eth[m] with mdio := none } ∧
      onlyEth s (s.mdioEnd m) m [Reg.ethMdio m]))

/-! Legacy Bus Ports (R361–R368, R382) -/

/-- The request `r` is the last one issued from `s` to `t`, by master `m`, with these parts. -/
def lastIssued (s t : State) (r : Req) (m : Nat) (a : Nat) (kind : ReqKind) (data : List Byte) (ordered : Bool) : Prop :=
  t.mtx.reqs = s.mtx.reqs ++ [r] ∧ r.m = m ∧ r.addr = BitVec.ofNat 32 a ∧ r.kind = kind ∧ r.data = data ∧ r.ordered = ordered ∧
  r.len = if kind = .read then 4 else data.length

/-- From `s` to `t` nothing but port `p`, the matrix, the data returned and the registers of `rs` changes. -/
def onlyLbp (s t : State) (p : PairId) (rs : List Nat) : Prop :=
  t = { s with csr := t.csr, mtx := t.mtx, lbp := t.lbp, rdata := t.rdata } ∧ (∀ i : PairId, i ≠ p → t.lbp[i] = s.lbp[i]) ∧ s.sameRegs t rs

/-- How long the strobe of a master cycle of port `p` lasts with READY `k` fc after its assertion; none where it is not seen in time. -/
def strobeOf (s : State) (p : PairId) (ready : Option (BitVec 16)) : Option Nat :=
  let n := max 1 (s.rfld (Reg.lbpTim p) 8 8)
  if s.lbpHasRole p 4 = false then some n
  else match ready with
    | some k => if k.toNat ≤ max 1 (s.rfld (Reg.lbpMaxw p) 0 16) then some (max n (k.toNat + 1)) else none
    | none => none

/-- Master mode: a window access starts one cycle at the word address of its offset, from the fc after the end of the last one, for the request
that reached the port first or for the command itself: the strobe follows TAS later and lasts TSTB, or until READY and one fc more; a read is answered the data of the low BW
bits as the strobe is released, a write THLD later, when A and D are released. Without READY in time the timeout refuses it with TMO; in
another mode it is refused. LBP_CFG takes a mode while the port is off, unless two lines hold one role, and only MODE and IE while it is
on; a port that stops closes its burst as the gap timer does, at the end of the fc. That the command itself may ask for a cycle, and what a port
that stops does with the cycle in progress, are the model's choice (log entries 64, 65) (R361–R363, R382). -/
def Obligations.BackplaneMasterCycles : Prop :=
  (∀ (p : PairId) (x : LbpAccess) (s : State), s.power = .run → s.lbp[p].cyc = none → s.lbp[p].idle ≠ some s.now →
    (∀ q ∈ s.mtx.reqs, q.atWindow p = false) →
    (s.lbpMode p ≠ 1 → ∃ t, exec (.lbpWindowAccess p x) s = .next t ∧ t.rdata = [] ∧ t.mtx = s.mtx ∧ onlyLbp s t p []) ∧
    (s.lbpMode p = 1 → ∃ t, exec (.lbpWindowAccess p x) s = .next t ∧
      let stb := s.now + max 1 (s.rfld (Reg.lbpTim p) 0 8)
      t.lbp[p] = { s.lbp[p] with
        a := some (BitVec.ofNat 24 (s.rfld (Reg.lbpWinbase p) 0 24 + x.off.toNat / 4))
        d := if x.write then some (s.lbpData p x.data) else none
        cyc := some { off := x.off.toNat, write := x.write, data := if x.write then 0 else s.lbpData p x.din, start := s.now, stb := stb
                      rel := (strobeOf s p x.ready).map (stb + ·), hold := max 1 (s.rfld (Reg.lbpTim p) 16 8), req := none, done := false } } ∧
      t.mtx = s.mtx ∧ onlyLbp s t p [])) ∧
  (∀ (p : PairId) (x : LbpAccess) (s : State), s.lbp[p].cyc ≠ none ∨ s.lbp[p].idle = some s.now → exec (.lbpWindowAccess p x) s = .next s) ∧
  (∀ (p : PairId) (x : LbpAccess) (s : State) (r : Req), s.power = .run → s.lbp[p].cyc = none → s.lbp[p].idle ≠ some s.now → s.lbpMode p = 1 →
    r ∈ s.mtx.reqs → r.atWindow p = true → (∀ q ∈ s.mtx.reqs, q.atWindow p = true → q = r ∨ r.accSeq < q.accSeq) → ∃ t c, exec (.lbpWindowAccess p x) s = .next t ∧ t.lbp[p].cyc = some c ∧
      c.req = some r.id ∧ c.start = s.now ∧ c.write = decide (r.kind = .write) ∧
      t.lbp[p].a = some (BitVec.ofNat 24 (s.rfld (Reg.lbpWinbase p) 0 24 + r.addr.toNat % 0x8000 / 4)) ∧
      t.lbp[p].d = (if r.kind = .write then some (s.lbpData p (wordOf r.data)) else none) ∧ t.mtx = s.mtx ∧ onlyLbp s t p []) ∧
  (∀ (p : PairId) (s : State) (c : LbpCycle) (n : Nat), s.lbp[p].cyc = some c → s.lbp[p].a ≠ none → c.rel = some n →
    let t := s.lbpCycleTick p
    (s.now < n → t = s) ∧
    (n ≤ s.now → s.now < n + c.hold → (c.write = true → t = s) ∧
      (c.write = false → c.done = false → t.lbp[p] = { s.lbp[p] with cyc := some { c with done := true } } ∧ onlyLbp s t p [] ∧
        (c.req = none → t.rdata = [c.data] ∧ t.mtx = s.mtx) ∧
        (∀ id r, c.req = some id → s.findReq id = some r → r.gone = false → r.kind = .read →
          t.findReq id = some { r with stage := .done, resp := .okay, rdata := bytesOf 4 c.data.toNat }))) ∧
    (n + c.hold ≤ s.now → t.lbp[p] = { s.lbp[p] with cyc := none, a := none, d := none, idle := some s.now } ∧ onlyLbp s t p [] ∧
      ∀ id r, c.req = some id → s.findReq id = some r → r.gone = false → r.kind = .write → c.write = true →
        t.findReq id = some { r with stage := .done, resp := .okay, rdata := [] })) ∧
  (∀ (p : PairId) (s : State) (c : LbpCycle), s.lbp[p].cyc = some c → s.lbp[p].a ≠ none → c.rel = none →
    (s.now < c.stb + max 1 (s.rfld (Reg.lbpMaxw p) 0 16) → exec (.lbpReadyTimeout p) s = .next s) ∧
    (c.stb + max 1 (s.rfld (Reg.lbpMaxw p) 0 16) ≤ s.now →
    ∃ t, exec (.lbpReadyTimeout p) s = .next t ∧ t.rbit (Reg.lbpStat p) 9 = true ∧ t.lbp[p].cyc = none ∧ t.lbp[p].a = none ∧
      (∀ id, c.req = some id → ∀ q ∈ t.mtx.reqs, q.id = id → q.gone = false → q.stage = .done ∧ q.resp = .refuse) ∧ onlyLbp s t p [Reg.lbpStat p])) ∧
  (∀ (p : PairId) (v : Word) (s : State),
    let m := if v.toNat % 4 = 3 then 0 else v.toNat % 4
    (s.lbpMode p = 0 → m ≠ 0 → s.lbpTwice p = true → ∃ t, exec (.lbpModeChange p v) s = .next t ∧ t.lbpMode p = 0 ∧
      t.rbit (Reg.lbpStat p) 15 = true ∧ s.onlyRegs t [Reg.lbpCfg p, Reg.lbpStat p]) ∧
    (s.lbpMode p = 0 → m ≠ 0 → s.lbpTwice p = false → s.lbp[p].evq = [] → ∃ t, exec (.lbpModeChange p v) s = .next t ∧
      t.reg (Reg.lbpCfg p) = (v &&& 0xFFF8) ||| BitVec.ofNat 32 m ∧ t.lbp[p].burst = none ∧ t.lbp[p].pos = 0 ∧ t.lbp[p].opens = none ∧
      onlyLbp s t p [Reg.lbpCfg p]) ∧
    (s.lbpMode p ≠ 0 → m ≠ 0 → ∃ t, exec (.lbpModeChange p v) s = .next t ∧ t.lbpMode p = s.lbpMode p ∧
      t.rfld (Reg.lbpCfg p) 8 8 = v.toNat / 2 ^ 8 % 2 ^ 8 ∧ t.rfld (Reg.lbpCfg p) 0 8 = s.rfld (Reg.lbpCfg p) 0 8 ∧
      s.onlyRegs t [Reg.lbpCfg p]) ∧
    (s.lbpMode p = 1 → m = 0 → (∀ c, s.lbp[p].cyc = some c → c.req = none) → ∃ t, exec (.lbpModeChange p v) s = .next t ∧ t.lbpMode p = 0 ∧
      (∀ q ∈ t.mtx.reqs, q.atWindow p = false) ∧ onlyLbp s t p [Reg.lbpCfg p]) ∧
    (s.lbpMode p = 2 → m = 0 → ∃ t, exec (.lbpModeChange p v) s = .next t ∧ t.lbpMode p = 0 ∧ (s.now, LbpEvent.stop) ∈ t.lbp[p].evq ∧
      (s.lbp[p].cyc = none → t.lbp[p].ready = false ∧ t.lbp[p].d = none) ∧ t.mtx = s.mtx ∧ onlyLbp s t p [Reg.lbpCfg p]))

/-- The descriptor of burst `b` has closed from `s` to `t` with these flags: an orphan that is not delivered is counted and its descriptor serves
again; another is written back by an ordered write with its flags, COUNT and timestamp (R365, R367). -/
def closedAt (s t : State) (p : PairId) (b : LbpBurst) (flags : Nat) : Prop :=
  (b.orphan = true ∧ s.rbit (Reg.lbpCfg p) 7 = false →
    t.reg (Reg.lbpOrphcnt p) = satSucc (s.reg (Reg.lbpOrphcnt p)) ∧ t.lbp[p].pos = s.lbp[p].pos ∧ t.lbp[p].backs = s.lbp[p].backs) ∧
  (¬(b.orphan = true ∧ s.rbit (Reg.lbpCfg p) 7 = false) →
    t.lbp[p].pos = (if b.wrap then 0 else s.lbp[p].pos + 16) ∧ ∃ r ∈ t.mtx.reqs, r.m = 18 + s.rfld (Reg.lbpCfg p) 4 3 ∧
      r.addr = BitVec.ofNat 32 (b.desc + 4) ∧ r.kind = .write ∧ r.ordered = true ∧
      r.data = bytesOf 4 (flags + b2n b.wrap * 2 ^ 30 + b2n b.orphan * 2 ^ 29 + b.count) ++ bytesOf 8 b.ts.toNat ∧
      t.lbp[p].backs = s.lbp[p].backs ++ [r.id])

/-- Port `p` reads its next descriptor from `s` to `t`, at the place `pos` of its ring, for an orphan or not (R365). -/
def opening (s t : State) (p : PairId) (pos : Nat) (orphan : Bool) : Prop :=
  ∃ r ∈ t.mtx.reqs, r.m = 18 + s.rfld (Reg.lbpCfg p) 4 3 ∧ r.kind = .read ∧ r.len = 8 ∧
    r.addr = BitVec.ofNat 32 ((s.reg (Reg.lbpRxring p)).toNat / 16 * 16 + pos) ∧ t.lbp[p].opens = some (r.id, orphan)

/-- The port receives bursts: it is a slave with BURST, in Run. -/
def burstsOn (s : State) (p : PairId) : Prop := s.power = .run ∧ s.lbpMode p = 2 ∧ s.rbit (Reg.lbpCfg p) 3 = true

/-- The event `ev` of the present fc waits for its end, in its place: behind the beats, END, START and gap timer that go before it (R368). -/
def posted (s t : State) (p : PairId) (ev : LbpEvent) : Prop :=
  (∃ l r, s.lbp[p].evq = l ++ r ∧ t.lbp[p] = { s.lbp[p] with evq := l ++ (s.now, ev) :: r } ∧
    (∀ x ∈ l, ¬(x.1 = s.now ∧ ev.rank < x.2.rank)) ∧ ∀ x, r.head? = some x → x.1 = s.now ∧ ev.rank < x.2.rank) ∧
  t = { s with lbp := t.lbp } ∧ ∀ i : PairId, i ≠ p → t.lbp[i] = s.lbp[i]

/-- Slave cycles: a cycle of the line with the RD or WR role, in range while the line with the CS role is asserted, reads or writes its word
through the port's channel, another one is not answered, a short strobe is a glitch; the word of a read, or 0xFFFF_FFFF with SERR, is driven with READY until the strobe ends (R361, R364). Bursts: an event waits for
the end of its fc; beats go before END, START and the gap timer. START closes an open descriptor with SHORT and reads the next; a beat writes
the low BW bits as the next word, and the one that reaches the capacity closes the descriptor with FULL; END closes it with END, a gap of
GAPT with SHORT; a beat that finds none open reads one, as an orphan where no burst goes on. One that is read with OWN = 1 opens; else the
beat is dropped and counted. A line makes an event only with its role. That beats wait for the descriptor's answer is the model's choice
(log 64) (R361, R364–R368). -/
def Obligations.BackplaneSlaveAndBursts : Prop :=
  (∀ (p : PairId) (x : LbpCall) (d : Word) (width : Stall) (s : State), s.power = .run → s.lbpMode p = 2 →
    let b := s.rfld (Reg.lbpSbase p) 0 24
    let served := x.cs = true ∧ s.lbpHasRole p 3 = true ∧ b ≤ x.addr.toNat ∧ x.addr.toNat < b + s.rfld (Reg.lbpSlen p) 0 25
    let at' := ((s.reg (Reg.lbpSmem p)).toNat + 4 * (x.addr.toNat - b)) % 2 ^ 32
    let short := width.toNat < max 1 (s.rfld (Reg.lbpTim p) 8 8)
    let glitch (t : State) : Prop := t.rbit (Reg.lbpStat p) 10 = true ∧ s.onlyRegs t [Reg.lbpStat p]
    let silent (t : State) : Prop := t.lbp[p].ready = false ∧ t.lbp[p].d = none ∧ t.mtx = s.mtx ∧ onlyLbp s t p []
    (s.lbpHasRole p 1 = false → exec (.lbpSlaveRead p x width) s = .next s) ∧
    (s.lbpHasRole p 2 = false → exec (.lbpSlaveWrite p x d width) s = .next s) ∧
    (s.lbpHasRole p 1 = true →
      (short → ∃ t, exec (.lbpSlaveRead p x width) s = .next t ∧ glitch t) ∧
      (¬short → ¬served → ∃ t, exec (.lbpSlaveRead p x width) s = .next t ∧ silent t) ∧
      (¬short → served → ∃ t r c, exec (.lbpSlaveRead p x width) s = .next t ∧
        lastIssued s t r (18 + s.rfld (Reg.lbpCfg p) 4 3) at' .read [] false ∧ t.lbp[p].ready = false ∧ t.lbp[p].d = none ∧
        t.lbp[p].cyc = some c ∧ c.req = some r.id ∧ c.rel = some (s.now + width.toNat) ∧ onlyLbp s t p [])) ∧
    (s.lbpHasRole p 2 = true →
      (short → ∃ t, exec (.lbpSlaveWrite p x d width) s = .next t ∧ glitch t) ∧
      (¬short → ¬served → ∃ t, exec (.lbpSlaveWrite p x d width) s = .next t ∧ silent t) ∧
      (¬short → served → ∃ t r, exec (.lbpSlaveWrite p x d width) s = .next t ∧
        lastIssued s t r (18 + s.rfld (Reg.lbpCfg p) 4 3) at' .write (bytesOf 4 (s.lbpData p d).toNat) false ∧
        t.lbp[p].ready = true ∧ onlyLbp s t p []))) ∧
  (∀ (p : PairId) (s : State) (r : Req) (c : LbpCycle) (n : Nat), s.lbp[p].opens = none → s.lbp[p].backs = [] → s.lbp[p].a = none →
    s.lbp[p].cyc = some c → c.req = some r.id → c.rel = some n →
    let t := s.lbpAnswer p r
    (s.now < n → t.lbp[p].ready = true ∧
      t.lbp[p].d = some (if r.resp = .okay then s.lbpData p (wordOf r.rdata) else 0xFFFF_FFFF) ∧
      (r.resp = .okay → s.sameRegs t []) ∧ (r.resp ≠ .okay → t.rbit (Reg.lbpStat p) 11 = true) ∧ onlyLbp s t p [Reg.lbpStat p] ∧
      ∀ u, u = { t with now := n } → (u.lbpCycleTick p).lbp[p].ready = false ∧ (u.lbpCycleTick p).lbp[p].d = none ∧
        (u.lbpCycleTick p).lbp[p].cyc = none)) ∧
  (∀ (p : PairId) (s : State), burstsOn s p →
    (∃ t, exec (.lbpStartStrobe p) s = .next t ∧ if s.lbpHasRole p 6 = true then posted s t p .start else t = s) ∧
    (∃ t, exec (.lbpEndStrobe p) s = .next t ∧ if s.lbpHasRole p 7 = true then posted s t p .done else t = s) ∧
    (∃ t, exec (.lbpGapTimeout p) s = .next t ∧ posted s t p .gap) ∧
    (∀ d ts, ∃ t, exec (.lbpBeat p d ts) s = .next t ∧ if s.lbpHasRole p 5 = true then posted s t p (.beat d ts) else t = s)) ∧
  (∀ (p : PairId) (s : State) (n : Nat) (ev : LbpEvent), s.lbp[p].opens = none → s.lbp[p].evq = [(n, ev)] → n ≤ s.now →
    let t := s.lbpEnd p
    let next := if s.lbp[p].burst = none then s.lbp[p].pos else t.lbp[p].pos
    onlyLbp s t p [Reg.lbpStat p, Reg.lbpOrphcnt p] ∧
    (ev = .start → t.lbp[p].burst = none ∧ t.lbp[p].cont = true ∧ t.lbp[p].evq = [] ∧ opening s t p next false ∧
      ∀ b, s.lbp[p].burst = some b → b.count < 2 ^ 16 → closedAt s t p b (2 ^ 28)) ∧
    (∀ d ts, ev = .beat d ts →
      (s.lbp[p].burst = none → t.lbp[p].evq = [(n, ev)] ∧ opening s t p s.lbp[p].pos (!s.lbp[p].cont)) ∧
      (∀ b, s.lbp[p].burst = some b → b.count + 1 < 2 ^ 16 →
        let b' := { b with count := b.count + 1, ts := if b.count = 0 then ts else b.ts, since := n }
        t.lbp[p].evq = [] ∧ (∃ r ∈ t.mtx.reqs, r.m = 18 + s.rfld (Reg.lbpCfg p) 4 3 ∧ r.kind = .write ∧ r.ordered = false ∧
          r.addr = BitVec.ofNat 32 (b.buf.toNat + 4 * b.count) ∧ r.data = bytesOf 4 (s.lbpData p d).toNat) ∧
        (b.count + 1 < b.cap → t.lbp[p].burst = some b') ∧
        (b.cap ≤ b.count + 1 → t.lbp[p].burst = none ∧ t.lbp[p].cont = true ∧ closedAt s t p b' (2 ^ 26)))) ∧
    (∀ b, s.lbp[p].burst = some b → b.count < 2 ^ 16 →
      (ev = .done → t.lbp[p].burst = none ∧ t.lbp[p].cont = false ∧ t.lbp[p].evq = [] ∧ closedAt s t p b (2 ^ 27)) ∧
      (ev = .stop → t.lbp[p].burst = none ∧ t.lbp[p].evq = [] ∧ t.rbit (Reg.lbpStat p) 12 = true ∧ closedAt s t p b (2 ^ 28)) ∧
      (ev = .gap → s.reg (Reg.lbpGapt p) ≠ 0 → b.count ≠ 0 → t.lbp[p].evq = [] ∧
        (b.since + (s.reg (Reg.lbpGapt p)).toNat ≤ n → t.lbp[p].burst = none ∧ t.lbp[p].cont = false ∧
          t.rbit (Reg.lbpStat p) 12 = true ∧ closedAt s t p b (2 ^ 28)) ∧
        (n < b.since + (s.reg (Reg.lbpGapt p)).toNat → t.lbp[p].burst = some b ∧ s.sameRegs t [])))) ∧
  (∀ (p : PairId) (s : State) (r : Req) (o : Bool), s.lbp[p].opens = some (r.id, o) → s.lbp[p].burst = none →
    let t := s.lbpAnswer p r
    let w := wordOf (r.rdata.drop 4)
    (r.resp = .okay → w.getLsbD 31 = true → s.lbp[p].evq = [] →
      t.lbp[p] = { s.lbp[p] with
        opens := none
        cont := false
        burst := some { desc := r.addr.toNat, buf := wordOf (r.rdata.take 4), cap := w.toNat % 2 ^ 16, wrap := w.getLsbD 30, count := 0
                        orphan := o, ts := 0, since := 0 } } ∧
      t.rbit (Reg.lbpStat p) 13 = (o || s.rbit (Reg.lbpStat p) 13) ∧ t.mtx = s.mtx ∧ onlyLbp s t p [Reg.lbpStat p]) ∧
    (r.resp ≠ .okay ∨ w.getLsbD 31 = false → ∀ n d ts, s.lbp[p].evq = [(n, .beat d ts)] →
      t.lbp[p] = { s.lbp[p] with opens := none, evq := [] } ∧ t.reg (Reg.lbpRxdrop p) = satSucc (s.reg (Reg.lbpRxdrop p)) ∧
      t.rbit (Reg.lbpStat p) 14 = true ∧ t.mtx = s.mtx ∧ onlyLbp s t p [Reg.lbpRxdrop p, Reg.lbpStat p])) ∧
  (∀ (p : PairId) (s : State) (r : Req), s.lbp[p].opens = none → r.id ∈ s.lbp[p].backs → ∃ t, t = s.lbpAnswer p r ∧
    t.rbit (Reg.lbpStat p) 8 = true ∧ t.lbp[p].backs = s.lbp[p].backs.filter (· != r.id) ∧ onlyLbp s t p [Reg.lbpStat p])

/-! Serial ports, flash, GPIO, test access and DMA (R371–R383, R454) -/

/-- UARTs: a received character enters the FIFO with its marks, or is lost with OVR at 64; a byte to send waits in its FIFO and starts unless
CTS stops it; a character sent leaves the FIFO; a read removes the oldest character. A character that began before Hold is received in it.
With flow control RTS is asserted while the FIFO has room, its level of the FIFO being the model's choice (log 132). SPI: a master
that has a word asserts its chip select and shifts it; as the word ends one has come in, writes of SPI_CTL and SPI_FMT that waited take effect,
and the next word starts, or the select is released where none waits; a slave gives a word for each, zero with UNDR from an empty FIFO; full
FIFOs lose the word with OVR; a select that ends mid-word sets PART. Characters and words as whole commands, their end in Hold and the fields that
wait for a word's end are the model's choice (log 56, 57, 119) (R371, R372, R377, R379, R380). -/
def Obligations.UartsAndSpiMoveWords : Prop :=
  (∀ (u : PortId) (s : State),
    let x := s.uart[u]
    let en := s.power = .run ∧ s.rbit (Reg.uartCtl u) 0 = true
    let free (cts : Bool) := s.rbit (Reg.uartCtl u) 1 = false ∨ cts = true
    let only (t : State) (rs : List Nat) : Prop :=
      t = { s with csr := t.csr, uart := t.uart } ∧ (∀ i, i ≠ u → t.uart[i] = s.uart[i]) ∧ s.sameRegs t rs
    (∀ ch : UartChar, (en ∨ s.power = .hold ∧ s.rbit (Reg.uartCtl u) 0 = true ∧ s.now ≤ s.holdAt + ch.lasted) →
      (64 ≤ x.rx.length → ∃ t, exec (.uartReceive u ch) s = .next t ∧ t.rbit (Reg.uartStat u) 10 = true ∧ s.onlyRegs t [Reg.uartStat u]) ∧
      (x.rx.length < 64 → ∃ t v, exec (.uartReceive u ch) s = .next t ∧ t.uart[u] = { x with rx := x.rx ++ [v] } ∧
        v.toNat % 2 ^ 8 = (if s.rbit (Reg.uartCtl u) 5 then ch.data.toNat % 2 ^ 7 else ch.data.toNat) ∧ v.getLsbD 8 = ch.frame ∧
        v.getLsbD 9 = (ch.parity && (s.rfld (Reg.uartCtl u) 3 2 == 1 || s.rfld (Reg.uartCtl u) 3 2 == 2)) ∧ v.getLsbD 10 = ch.brk ∧
        t.rbit (Reg.uartStat u) 8 = true ∧ only t [Reg.uartStat u])) ∧
    (∀ ch : UartChar, (s.rbit (Reg.uartCtl u) 0 = false ∨ s.power = .hold ∧ s.holdAt + ch.lasted < s.now) →
      exec (.uartReceive u ch) s = .next s) ∧
    (s.rbit (Reg.uartCtl u) 1 = true → en → (s.uartRts u = true ↔ x.rx.length < 64)) ∧
    (∀ v : Word,
      (64 ≤ x.tx.length → exec (.uartSend u v) s = .next s) ∧
      (x.tx.length < 64 → ∃ t, exec (.uartSend u v) s = .next t ∧ t.uart[u].tx = x.tx ++ [v.setWidth 8] ∧ t.uart[u].rx = x.rx ∧
        (en → free x.cts → t.uart[u].shift = true) ∧ (¬(en ∧ free x.cts) → t.uart[u].shift = x.shift) ∧ only t [])) ∧
    (∀ b bs, x.tx = b :: bs → x.shift = true → ∃ t, exec (.uartCharacterSent u) s = .next t ∧ t.uart[u].tx = bs ∧
      t.uart[u].out = some (if s.rbit (Reg.uartCtl u) 5 then b &&& 0x7F else b) ∧ t.rbit (Reg.uartStat u) 9 = true ∧
      (t.uart[u].shift = true ↔ en ∧ free x.cts ∧ bs ≠ []) ∧ only t [Reg.uartStat u]) ∧
    (∀ on, ∃ t, exec (.ctsChange u on) s = .next t ∧ t.uart[u].cts = on ∧ t.uart[u].tx = x.tx ∧
      (t.uart[u].shift = true ↔ x.shift = true ∨ en ∧ free on ∧ x.tx ≠ []) ∧ only t []) ∧
    (∀ v vs, x.rx = v :: vs → ∃ t, exec (.uartDataRead u) s = .next t ∧ t.rdata = [v.setWidth 32] ∧ t.uart[u] = { x with rx := vs } ∧
      t = { s with uart := t.uart, rdata := t.rdata } ∧ (∀ i, i ≠ u → t.uart[i] = s.uart[i])) ∧
    (x.rx = [] → ∃ t, exec (.uartDataRead u) s = .next t ∧ t.uart = s.uart ∧ t = { s with rdata := t.rdata, free := t.free })) ∧
  (∀ (k : SpiId) (s : State),
    let x := s.spi[k]
    let ctl := Reg.spiCtl (k.val + 1)
    let st := Reg.spiStat (k.val + 1)
    let cut (w : Word) : Word := BitVec.ofNat 32 (w.toNat % 2 ^ (max 7 (s.rfld (Reg.spiFmt (k.val + 1)) 0 5) + 1))
    let only (t : State) (rs : List Nat) : Prop :=
      t = { s with csr := t.csr, spi := t.spi } ∧ (∀ i, i ≠ k → t.spi[i] = s.spi[i]) ∧ s.sameRegs t rs
    (∀ v, (s.rbit ctl 0 = false → exec (.spiDataWrite k v) s = .next s) ∧
      (s.rbit ctl 0 = true → x.tx.length < 32 →
        (s.power = .run ∧ s.rbit ctl 2 = true ∧ x.sh = none → ∃ t, exec (.spiDataWrite k v) s = .next t ∧ t.rbit st 9 = true ∧
          t.spi[k] = { x with tx := (x.tx ++ [cut v]).tail, sh := some (x.tx.headD (cut v)), cs := true } ∧ only t [st]) ∧
        (¬(s.power = .run ∧ s.rbit ctl 2 = true ∧ x.sh = none) → ∃ t, exec (.spiDataWrite k v) s = .next t ∧
          t.spi[k] = { x with tx := x.tx ++ [cut v] } ∧ only t [])) ∧
      (s.rbit ctl 0 = true → 32 ≤ x.tx.length → ∃ t, exec (.spiDataWrite k v) s = .next t ∧ t.rbit st 11 = true ∧ s.onlyRegs t [st])) ∧
    (∀ w o, x.sh = some o → ∃ t, exec (.spiWord k ⟨false, w⟩) s = .next t ∧
      let c := match x.ctl with | some v => (s.reg ctl &&& 0xFF01) ||| (v &&& 0xFFFF_007C) | none => s.reg ctl
      let go := s.power = .run ∧ c.getLsbD 0 = true ∧ c.getLsbD 2 = true
      t.reg ctl = c ∧ t.reg (Reg.spiFmt (k.val + 1)) = (match x.fmt with | some v => v | none => s.reg (Reg.spiFmt (k.val + 1))) ∧
      (s.rbit ctl 0 = true → x.rx.length < 32 → t.spi[k].rx = x.rx ++ [cut w] ∧ t.rbit st 8 = true) ∧
      (s.rbit ctl 0 = true → 32 ≤ x.rx.length → t.spi[k].rx = x.rx ∧ t.rbit st 11 = true) ∧
      (s.rbit ctl 0 = false → t.spi[k].rx = x.rx) ∧
      (go → t.spi[k].sh = x.tx.head? ∧ t.spi[k].tx = x.tx.tail ∧ (x.tx ≠ [] → t.rbit st 9 = true)) ∧
      (¬go → t.spi[k].sh = none ∧ t.spi[k].tx = x.tx) ∧
      (t.spi[k].cs = true ↔ c.getLsbD 2 = true ∧ x.tx ≠ []) ∧ t.spi[k].out = some o ∧ t.spi[k].ctl = none ∧ t.spi[k].fmt = none ∧
      only t [ctl, Reg.spiFmt (k.val + 1), st]) ∧
    (∀ w, x.sh ≠ none → exec (.spiWord k ⟨true, w⟩) s = .next s) ∧
    (∀ w, x.sh = none → (s.power ≠ .run ∨ s.rbit ctl 0 = false ∨ s.rbit ctl 2 = true) → exec (.spiWord k w) s = .next s) ∧
    (∀ w, x.sh = none → s.power = .run → s.rbit ctl 0 = true → s.rbit ctl 2 = false →
      (∃ t, exec (.spiWord k ⟨true, w⟩) s = .next t ∧ t.spi[k] = { x with tx := x.tx.tail, sh := some (x.tx.headD 0) } ∧
        (x.tx ≠ [] → t.rbit st 9 = true) ∧ (x.tx = [] → t.rbit st 12 = true) ∧ only t [st]) ∧
      (x.ctl = none → x.fmt = none → ∃ t, exec (.spiWord k ⟨false, w⟩) s = .next t ∧
        t.spi[k].tx = x.tx.tail ∧ t.spi[k].out = some (x.tx.headD 0) ∧ (x.tx ≠ [] → t.rbit st 9 = true) ∧ (x.tx = [] → t.rbit st 12 = true) ∧
        (x.rx.length < 32 → t.spi[k].rx = x.rx ++ [cut w] ∧ t.rbit st 8 = true) ∧ (32 ≤ x.rx.length → t.spi[k].rx = x.rx ∧ t.rbit st 11 = true) ∧
        t.spi[k].sh = none ∧ only t [st])) ∧
    (∃ t, exec (.spiDataRead k) s = .next t ∧ t.rdata = [x.rx.headD 0] ∧ t.spi[k] = { x with rx := x.rx.tail } ∧
      t = { s with spi := t.spi, rdata := t.rdata } ∧ ∀ i, i ≠ k → t.spi[i] = s.spi[i]) ∧
    ((s.power = .run ∨ x.sh ≠ none) → s.rbit ctl 0 = true → s.rbit ctl 2 = false → ∃ t, exec (.spiSelectEnd k) s = .next t ∧
      t.rbit st 10 = true ∧ t.spi[k] = { x with sh := none, ctl := none, fmt := none } ∧
      only t [ctl, Reg.spiFmt (k.val + 1), st] ∧ (x.ctl = none → x.fmt = none → only t [st])))

/-- I²C: a START sends the address of TADDR with its RD bit; a controller command that finds SDA stuck, loses arbitration or gets no acknowledge of its address sets its flag and moves nothing; a
read moves its bytes into the receive FIFO; a write sends bytes from the transmit FIFO until its count, the end of the FIFO, where it
waits, or a NACK; data writes and reads act on the FIFOs; a target takes and gives bytes and is busy while it is addressed; a clock held too
long releases the bus. Transfers as whole commands with what the bus answers are the model's choice (log 57, 59) (R373, R381). -/
def Obligations.I2cTransfersMoveBytes : Prop :=
  ∀ (i : PairId) (s : State),
    let x := s.i2c[i]
    let en := s.power = .run ∧ s.rbit (Reg.i2cCtl i) 0 = true
    let only (t : State) (rs : List Nat) : Prop :=
      t = { s with csr := t.csr, i2c := t.i2c } ∧ (∀ j, j ≠ i → t.i2c[j] = s.i2c[j]) ∧ s.sameRegs t rs
    (∀ (v : Word) (bus : I2cBus), en → s.rbit (Reg.i2cCtl i) 1 = false → x.run = none →
      let start := v.getLsbD 31 = true
      let y := if v.getLsbD 31 then { x with addr := some ((v >>> 16).truncate 7, v.getLsbD 29) } else x
      let n := v.toNat % 2 ^ 8
      let stuck := start ∧ x.held = false ∧ bus.sdaStuck = true
      let silent := start ∧ bus.ackAddr = false
      (stuck → ∃ t, exec (.i2cCommand i v bus) s = .next t ∧ t.rbit (Reg.i2cStat i) 11 = true ∧ s.onlyRegs t [Reg.i2cStat i]) ∧
      (¬stuck → bus.arbLost = true → ∃ t, exec (.i2cCommand i v bus) s = .next t ∧ t.rbit (Reg.i2cStat i) 12 = true ∧
        t.i2c[i] = { y with held := false } ∧ only t [Reg.i2cStat i]) ∧
      (¬stuck → bus.arbLost = false → silent → ∃ t, exec (.i2cCommand i v bus) s = .next t ∧ t.rbit (Reg.i2cStat i) 13 = true ∧
        t.i2c[i] = { y with held := false } ∧ only t [Reg.i2cStat i]) ∧
      (¬stuck → bus.arbLost = false → ¬silent → v.getLsbD 29 = true → x.rx.length + n ≤ 16 → ∃ t, exec (.i2cCommand i v bus) s = .next t ∧
        t.i2c[i] = { y with rx := x.rx ++ (List.range n).map (fun k => bus.rdata.getD k 0xFF), held := !v.getLsbD 30 } ∧
        (0 < n → t.rbit (Reg.i2cStat i) 8 = true) ∧ only t [Reg.i2cStat i]) ∧
      (¬stuck → bus.arbLost = false → ¬silent → v.getLsbD 29 = false → ∃ t, exec (.i2cCommand i v bus) s = .next t ∧
        (n ≤ bus.acks → n ≤ x.tx.length → t.i2c[i].tx = x.tx.drop n ∧ t.i2c[i].run = none ∧ t.i2c[i].held = !v.getLsbD 30) ∧
        (x.tx.length < n → x.tx.length ≤ bus.acks → t.i2c[i].tx = [] ∧ t.i2c[i].held = true ∧
          t.i2c[i].run = some ⟨n - x.tx.length, bus.acks - x.tx.length, v.getLsbD 30⟩) ∧
        (bus.acks < n → bus.acks < x.tx.length → t.i2c[i].tx = x.tx.drop (bus.acks + 1) ∧ t.i2c[i].run = none ∧ t.i2c[i].held = false ∧
          t.rbit (Reg.i2cStat i) 13 = true) ∧
        t.i2c[i].rx = x.rx ∧ t.i2c[i].addr = y.addr ∧ only t [Reg.i2cStat i])) ∧
    (∀ v : Word, (s.rbit (Reg.i2cCtl i) 0 = false → exec (.i2cDataWrite i v) s = .next s) ∧
      (s.rbit (Reg.i2cCtl i) 0 = true → 16 ≤ x.tx.length → ∃ t, exec (.i2cDataWrite i v) s = .next t ∧ t.rbit (Reg.i2cStat i) 15 = true ∧
        s.onlyRegs t [Reg.i2cStat i]) ∧
      (s.rbit (Reg.i2cCtl i) 0 = true → x.tx.length < 16 → x.run = none → ∃ t, exec (.i2cDataWrite i v) s = .next t ∧
        t.i2c[i] = { x with tx := x.tx ++ [v.setWidth 8] } ∧ only t []) ∧
      (∀ r, en → x.tx = [] → x.run = some r → 1 < r.left → 0 < r.acks → ∃ t, exec (.i2cDataWrite i v) s = .next t ∧
        t.i2c[i] = { x with run := some { r with left := r.left - 1, acks := r.acks - 1 }, out := some (v.setWidth 8) } ∧
        t.rbit (Reg.i2cStat i) 9 = true ∧ only t [Reg.i2cStat i])) ∧
    (∃ t, exec (.i2cDataRead i) s = .next t ∧ t.rdata = [(x.rx.headD 0).setWidth 32] ∧ t.i2c[i] = { x with rx := x.rx.tail } ∧
      t = { s with i2c := t.i2c, rdata := t.rdata } ∧ ∀ j, j ≠ i → t.i2c[j] = s.i2c[j]) ∧
    (∀ bus : I2cTarget, en → s.rbit (Reg.i2cCtl i) 1 = true → s.rfld (Reg.i2cAddr i) 0 7 = bus.addr.toNat →
      x.rx.length + bus.wr.length ≤ 16 → ∃ t, exec (.i2cTargetAddressed i bus) s = .next t ∧ t.i2c[i].rx = x.rx ++ bus.wr ∧
        t.i2c[i].tx = x.tx.drop bus.reads ∧ t.i2c[i].tgt = s.now + bus.lasts ∧ (0 < bus.lasts → t.i2cBusy i = true) ∧ (bus.wr ≠ [] → t.rbit (Reg.i2cStat i) 8 = true) ∧
        (x.tx.length < bus.reads → t.i2c[i].out = some 0xFF ∧ t.rbit (Reg.i2cStat i) 14 = true) ∧ only t [Reg.i2cStat i]) ∧
    (en → ∃ t, exec (.i2cClockTimeout i) s = .next t ∧ t.rbit (Reg.i2cStat i) 10 = true ∧ t.i2c[i] = { x with run := none, held := false, tgt := 0 } ∧
      only t [Reg.i2cStat i])

/-- Pins and flash: a change of a GPIO input is sampled and flagged by the event mode of its pin; a QSPI command erases or programs the bytes
of the flash that it names and no others, and the flash is busy with it for some time; a TAP instruction takes effect: IDCODE gives its number
and BYPASS one zero, EXTEST loads the boundary-scan cells and drives every ball that is no input from its cell, and Test-Logic-Reset ends
it. How long the flash is busy is free (log 58). The level mode of GPIO (log 60), the order of the cells and the codes of EXTEST, BYPASS and the other instructions are the
model's choice (log 61, 136) (R372, R374, R454). -/
def Obligations.PinsFlashAndTestAccess : Prop :=
  (∀ (p : GpioId) (v : Bool) (s : State), (s.power = .run ∨ s.power = .hold) → s.rbit (Reg.gpioDir (p.val / 24)) (p.val % 24) = false →
    s.broken (.gpio p) = false →
    s.tap.ir ≠ some 0 →
    let g := p.val / 24
    let k := p.val % 24
    let mode := if k < 12 then s.rfld (Reg.gpioImode g) (2 * k) 2 else s.rfld (Reg.gpioImodeB g) (2 * (k - 12)) 2
    let was := s.rbit (Reg.gpioIn g) k
    ∃ t, exec (.gpioInputEvent p v) s = .next t ∧ t.rbit (Reg.gpioIn g) k = v ∧ (∀ j, j ≠ k → t.rbit (Reg.gpioIn g) j = s.rbit (Reg.gpioIn g) j) ∧
      (t.rbit (Reg.gpioIflg g) k = true ↔ s.rbit (Reg.gpioIflg g) k = true ∨ (mode = 1 ∧ was = false ∧ v = true) ∨
        (mode = 2 ∧ was = true ∧ v = false) ∨ (mode = 3 ∧ v = true)) ∧
      s.onlyRegs t [Reg.gpioIn g, Reg.gpioIflg g]) ∧
  (∀ (w : Word) (o n : Nat) (bs : List Byte) (s : State), s.power = .run →
    (∃ t, exec (.qspiCommand w (.erase o n)) s = .next t ∧
      (∀ a, t.flashAt a = if o ≤ a ∧ a < o + n then 0xFF else s.flashAt a) ∧ s.now < t.qspi ∧
      t = { s with flash := t.flash, qspi := t.qspi, free := t.free }) ∧
    (∃ t, exec (.qspiCommand w (.program o bs)) s = .next t ∧
      (∀ a, (a < o ∨ o + bs.length ≤ a) → t.flashAt a = s.flashAt a) ∧ (∀ i b, bs[i]? = some b → t.flashAt (o + i) = b) ∧
      s.now < t.qspi ∧ t = { s with flash := t.flash, qspi := t.qspi, free := t.free }) ∧
    (∃ t, exec (.qspiCommand w .other) s = .next t ∧ s.now < t.qspi ∧ t = { s with qspi := t.qspi, free := t.free })) ∧
  (∀ (ir : Byte) (b : Option Cells) (s : State),
    (∃ t, exec (.tapInstruction ir b) s = .next t ∧ t.tap.ir = some ir ∧
      (ir = 0 → t.tap.bsr = (match b with | some c => c | none => s.tap.bsr) ∧ t.rdata.length = 14 ∧
        (∀ p, t.evLevel p = t.tap.bsr.getLsbD p.val) ∧
        ((s.power = .run ∨ s.power = .hold ∨ s.power = .retain) → ∀ (x : Machine.Ball) (n : Nat), x.cell = some n → x.input = false →
          t.pad x = .drive (t.tap.bsr.getLsbD n))) ∧
      (ir = 0xFF → t.rdata = [0] ∧ t.tap.bsr = s.tap.bsr) ∧
      (ir ≠ 0 → ir ≠ 0xFF → ir = Config.tapIdcode → t.rdata = [0x1A96_0B85] ∧ t.tap.bsr = s.tap.bsr) ∧
      (ir ≠ 0 → ir ≠ 0xFF → ir ≠ Config.tapIdcode → ir = Config.tapSample →
        t.tap.bsr = (match b with | some c => c | none => s.tap.bsr) ∧ t.rdata.length = 14) ∧
      t = { s with tap := t.tap, rdata := t.rdata, free := t.free }) ∧
    (∃ t, exec .testLogicReset s = .next t ∧ t.tap.ir = none ∧ t = { s with tap := { s.tap with ir := none } } ∧
      ∀ p, (s.pin p).lvl ≠ .z → t.evLevel p = decide ((s.pin p).lvl = .high)))

/-- DMA: GO starts an aligned transfer with the first read, of at most 64 bytes within a 256-byte block or of one element, and refuses a wrong
one with CFGERR; a channel lent to a backplane port ignores it. A peripheral request moves one element; after the last byte the channel
is done or loads its next descriptor. A read that is answered is written, a write that is answered advances the channel, and another
code stops it with ERR; ABORT stops it with the addresses at what was not carried out. REQ names a receive FIFO that holds data or a transmit FIFO
with room, and its request stands as long as that is so, which is the model's choice, as are points of chaining and of the abort
(log 62, 133) (R313, R375, R376, R383). -/
def Obligations.DmaChannelsCopy : Prop :=
  (∀ (c : ChanId) (v : Word) (s : State),
    let z := if v.toNat % 4 = 0 then 1 else if v.toNat % 4 = 1 then 2 else 4
    let req := v.toNat / 2 ^ 16 % 2 ^ 8
    let src := s.reg (Reg.dmaSrc c)
    let dst := s.reg (Reg.dmaDst c)
    let cnt := s.reg (Reg.dmaCnt c)
    let odd := cnt.toNat % z ≠ 0 ∨ src.toNat % z ≠ 0 ∨ dst.toNat % z ≠ 0
    (s.dmaLent c = true → exec (.dmaGo c v) s = .next s) ∧
    (s.dmaLent c = false → s.rbit (Reg.dmaStat c) 0 = false →
      (0x14 < req ∨ odd → ∃ t, exec (.dmaGo c v) s = .next t ∧ t.rbit (Reg.dmaStat c) 11 = true ∧ t.rbit (Reg.dmaStat c) 0 = false ∧
        s.onlyRegs t [Reg.dmaCtl c, Reg.dmaStat c]) ∧
      (¬(0x14 < req ∨ odd) → s.power = .run → req = 0 → cnt ≠ 0 → ∃ t r, exec (.dmaGo c v) s = .next t ∧ t.rbit (Reg.dmaStat c) 0 = true ∧
        t.mtx.reqs = s.mtx.reqs ++ [r] ∧ r.m = 18 + c.val ∧ r.addr = src ∧ r.kind = .read ∧ r.ordered = v.getLsbD 4 ∧
        r.len = (if v.getLsbD 2 ∨ v.getLsbD 3 then z else
          min (min 64 cnt.toNat) (min (256 - src.toNat % 256) (256 - dst.toNat % 256))) ∧
        t.dma[c] = ⟨some (r.id, .read, r.len), []⟩ ∧ (∀ d, d ≠ c → t.dma[d] = s.dma[d]) ∧
        t = { s with csr := t.csr, mtx := t.mtx, dma := t.dma } ∧ s.sameRegs t [Reg.dmaCtl c, Reg.dmaStat c]))) ∧
  (∀ s : State,
    (∀ u : PortId, (s.dmaWant (1 + u.val) = true ↔ s.uart[u].rx ≠ []) ∧ (s.dmaWant (5 + u.val) = true ↔ s.uart[u].tx.length < 64)) ∧
    (∀ k : SpiId, (s.dmaWant (10 + k.val) = true ↔ s.spi[k].rx ≠ []) ∧
      (s.dmaWant (14 + k.val) = true ↔ s.rbit (Reg.spiCtl (k.val + 1)) 0 = true ∧ s.spi[k].tx.length < 32)) ∧
    (∀ i : PairId, (s.dmaWant (17 + i.val) = true ↔ s.i2c[i].rx ≠ []) ∧
      (s.dmaWant (19 + i.val) = true ↔ s.rbit (Reg.i2cCtl i) 0 = true ∧ s.i2c[i].tx.length < 16)) ∧
    s.dmaWant 9 = false ∧ s.dmaWant 13 = false) ∧
  (∀ (c : ChanId) (s : State), s.power = .run → s.dmaOn c = true → s.dma[c].op = none →
    (s.dmaReq c ≠ 0 → s.dmaWant (s.dmaReq c) = false → s.dma[c].buf = [] → exec (.dmaPeripheralRequest c) s = .next s) ∧
    (s.dmaReq c ≠ 0 → s.dmaWant (s.dmaReq c) = true → s.reg (Reg.dmaCnt c) ≠ 0 → s.dma[c].buf = [] → ∃ t r, exec (.dmaPeripheralRequest c) s = .next t ∧ t.mtx.reqs = s.mtx.reqs ++ [r] ∧
      r.m = 18 + c.val ∧ r.addr = s.reg (Reg.dmaSrc c) ∧ r.kind = .read ∧ r.len = s.dmaSize c ∧
      t.dma[c] = ⟨some (r.id, .read, r.len), []⟩ ∧ t = { s with mtx := t.mtx, dma := t.dma } ∧ (∀ d, d ≠ c → t.dma[d] = s.dma[d])) ∧
    (s.reg (Reg.dmaCnt c) = 0 → s.reg (Reg.dmaNext c) = 0 → ∃ t, exec (.dmaChain c) s = .next t ∧ t.dmaOn c = false ∧
      t.rbit (Reg.dmaStat c) 8 = true ∧ t = { s with csr := t.csr, dma := t.dma } ∧ s.sameRegs t [Reg.dmaStat c]) ∧
    (s.reg (Reg.dmaCnt c) = 0 → s.reg (Reg.dmaNext c) ≠ 0 → ∃ t r, exec (.dmaChain c) s = .next t ∧ t.mtx.reqs = s.mtx.reqs ++ [r] ∧
      r.m = 18 + c.val ∧ r.addr = s.reg (Reg.dmaNext c) &&& 0xFFFF_FFF0 ∧ r.kind = .read ∧ r.len = 16 ∧
      t.dma[c].op = some (r.id, .chain, 16) ∧ t = { s with mtx := t.mtx, dma := t.dma } ∧ (∀ d, d ≠ c → t.dma[d] = s.dma[d]))) ∧
  (∀ (c : ChanId) (m : MasterId) (s : State) (r : Req) (step : DmaStep) (n : Nat), m.val = 18 + c.val → s.power = .run → s.dmaLent c = false →
    s.mtx.reqs = [r] → r.m = m.val → r.stage = .done → (∀ p : PairId, s.lbp[p].asks r.id = false) → s.monAsks r.id = false →
    s.dma[c].op = some (r.id, step, n) →
    (r.resp = .okay → step = .read → s.dmaOn c = true → r.rdata ≠ [] → ∃ t w, exec (.response m) s = .next t ∧ t.mtx.reqs = [w] ∧ w.m = m.val ∧
      w.addr = s.reg (Reg.dmaDst c) ∧ w.kind = .write ∧ w.len = r.rdata.length ∧ w.data = r.rdata ∧ t.dma[c].op = some (w.id, .write, w.len) ∧
      t.dma[c].buf = [] ∧
      t = { s with mtx := t.mtx, dma := t.dma }) ∧
    (r.resp = .okay → step = .write → ∃ t, exec (.response m) s = .next t ∧ t.reg (Reg.dmaCnt c) = s.reg (Reg.dmaCnt c) - BitVec.ofNat 32 n ∧
      t.reg (Reg.dmaSrc c) = (if s.dmaSfix c then s.reg (Reg.dmaSrc c) else s.reg (Reg.dmaSrc c) + BitVec.ofNat 32 n) ∧
      t.reg (Reg.dmaDst c) = (if s.dmaDfix c then s.reg (Reg.dmaDst c) else s.reg (Reg.dmaDst c) + BitVec.ofNat 32 n) ∧
      s.sameRegs t [Reg.dmaCnt c, Reg.dmaSrc c, Reg.dmaDst c]) ∧
    (r.resp ≠ .okay → ∃ t, exec (.response m) s = .next t ∧ t.dmaOn c = false ∧ t.dma[c].op = none ∧ t.mtx.reqs = [] ∧
      t.rfld (Reg.dmaStat c) 1 3 = r.resp.code ∧ t.rbit (Reg.dmaStat c) 9 = true ∧ t.reg (Reg.dmaErraddr c) = r.addr ∧
      t.reg (Reg.dmaCnt c) = s.reg (Reg.dmaCnt c) ∧ t.reg (Reg.dmaSrc c) = s.reg (Reg.dmaSrc c))) ∧
  (∀ (c : ChanId) (s : State), s.dmaLent c = false → (∀ q ∈ s.mtx.reqs, q.m = 18 + c.val → q.kind = .read ∨ q.kind = .write) →
    ∃ t, exec (.dmaAbort c) s = .next t ∧ t.dmaOn c = false ∧ t.rbit (Reg.dmaStat c) 10 = true ∧ t.dma[c].op = none ∧
      (∀ q ∈ t.mtx.reqs, q.m = 18 + c.val → q.gone = true) ∧
      (s.dma[c].op = none → t.reg (Reg.dmaCnt c) = s.reg (Reg.dmaCnt c) ∧ t.reg (Reg.dmaSrc c) = s.reg (Reg.dmaSrc c)) ∧
      (∀ id n r, s.dma[c].op = some (id, .write, n) → s.findReq id = some r → r.stage = .accepted →
        let k := BitVec.ofNat 32 (min n (r.span r.beats).1)
        t.reg (Reg.dmaCnt c) = s.reg (Reg.dmaCnt c) - k ∧
        t.reg (Reg.dmaSrc c) = if s.dmaSfix c then s.reg (Reg.dmaSrc c) else s.reg (Reg.dmaSrc c) + k) ∧
      (∀ id n r, s.dma[c].op = some (id, .write, n) → s.findReq id = some r → r.stage = .done → r.resp = .okay →
        t.reg (Reg.dmaCnt c) = s.reg (Reg.dmaCnt c) - BitVec.ofNat 32 n) ∧
      (∀ d, d ≠ c → t.dma[d] = s.dma[d]) ∧ t.engines = s.engines ∧ s.sameBytes t)

/-! Power, start-up, the monitor, and register writes (R7, R15–R21, R384–R402, R430–R440, R452, R453) -/

/-- Power requests: in Run and Hold a request waits, a new one replaces it and a cancel removes it; Hold is entered once no frame runs and
every in-flight table is empty; Retain keeps the stores, the map, and the held registers, the frame descriptors among them, and puts every pin into its safe state, Off keeps
the always-on domain; WAKE_REQUEST, the WAKE ball and the alarm wake the device, from Retain with the Data class cleared and every mapped
engine released, and not while a thermal stop lasts above 115 °C; RESET# stops it once it has been low for 1 µs, a shorter pulse is ignored, and
a start follows 10 µs after it rises. What Retain keeps beside the rules, and what a wake does while a start is due, are the model's
choice (log 51, 87) (R15, R17–R22, R298, R299, R385, R418, R436, R452). -/
def Obligations.PowerStatesAreEnteredAndLeft : Prop :=
  (∀ s : State, (s.power = .run ∨ s.power = .hold) → s.supply.stopped = false →
    (∃ t, exec .cancelRequest s = .next t ∧ t.request = none ∧ t.rbit Reg.pwrStat 3 = false ∧
      t = { s with csr := t.csr, request := none, supply := { s.supply with wakeDue := none } } ∧ s.sameRegs t [Reg.pwrStat]) ∧
    (∀ c r, c = .requestHold ∧ r = .hold ∨ c = .requestRetain ∧ r = .retain ∨ c = .requestOff ∧ r = .off →
      ∃ t, exec c s = .next t ∧ t.request = some r ∧ t.rbit Reg.pwrStat 3 = true ∧
        t = { s with csr := t.csr, request := some r, supply := { s.supply with wakeDue := none } } ∧ s.sameRegs t [Reg.pwrStat])) ∧
  (∀ s : State,
    (s.power = .hold → ∃ t, exec .wakeRequest s = .next t ∧ t.power = .run ∧ t.rfld Reg.pwrStat 0 2 = 0 ∧ t.rfld Reg.pwrStat 4 2 = 1 ∧
      t.rfld Reg.pwrStat 8 4 = 6 ∧ t = { s with csr := t.csr, power := .run } ∧ s.sameRegs t [Reg.pwrStat]) ∧
    (s.power ≠ .hold → exec .wakeRequest s = .next s)) ∧
  (∀ s : State, (s.power = .run ∨ s.power = .hold) → s.request = some .hold →
    ((∀ e, (s.eng e).clocked = true → (s.frames e).run = none ∧ s.iftUsed e = 0 ∧ (s.frames e).q = [] ∧ (s.frames e).transit = []) →
      ∃ t, exec .holdEntry s = .next t ∧ t.power = .hold ∧ t.request = none ∧ t.rfld Reg.pwrStat 0 2 = 1 ∧ t.rbit Reg.pwrStat 3 = false ∧
        t = { s with csr := t.csr, power := .hold, request := none, holdAt := s.now } ∧ s.sameRegs t [Reg.pwrStat]) ∧
    ((∃ (e : EngId) (f : _), (s.eng e).clocked = true ∧ (s.frames e).run = some f) → exec .holdEntry s = .next s)) ∧
  (∀ s : State, (s.power = .run ∨ s.power = .hold) → (∀ e, s.iftUsed e = 0) → s.supply.wakeDue = none → s.cur.borrow = none →
    (s.request = some .retain → ∃ t, exec .retainOffEntry s = .next t ∧ t.power = .retain ∧ t.request = none ∧ t.mem = s.mem ∧ t.map = s.map ∧
      t.image = s.image ∧ t.volts = s.volts ∧ t.tb = s.tb ∧ (∀ e, t.live e = false) ∧
      (∀ p, (t.pin p).lvl = (s.pin p).safe ∧ (t.pin p).q = [] ∧ (t.pin p).owner = (s.pin p).owner) ∧
      (∀ d k, d < 1024 → k < 4 → heldReg (Reg.almFd d k) = true) ∧
      (∀ a, heldReg a = true → a ≠ Reg.pwrStat → a ≠ Reg.pwrBarstat → t.reg a = s.reg a) ∧
      (∀ a, heldReg a = false → clkReg a = false → a ≠ Reg.lbpStat 0 → a ≠ Reg.lbpStat 1 → t.reg a = Reg.resetValue a)) ∧
    (s.request = some .off → ∃ t, exec .retainOffEntry s = .next t ∧ t.power = .off ∧ t.request = none ∧ t.image = none ∧ t.released = false ∧
      (∀ p, (t.pin p).lvl = .z ∧ (t.pin p).q = []) ∧
      (∀ a, alwaysOnReg a = true → a ≠ Reg.pwrStat → a ≠ Reg.pwrBarstat → t.reg a = s.reg a))) ∧
  (∀ (o : BootOffer) (c : Instr) (k : Nat) (s : State), s.boot.due = none → s.boot.go = false → s.boot.seek = false →
    s.supply.stopped = false → s.leaving = false →
    (c = .wakePinEdge o ∧ k = 1 ∧ s.rbit Reg.pwrWakecfg 0 = true ∨ c = .pwrAlarm o ∧ k = 2 ∧ s.rbit Reg.pwrWakecfg 1 = true ∧
      (s.reg Reg.pwrAlarmHi ++ s.reg Reg.pwrAlarmLo : DWord) ≤ s.fc) →
    (s.power = .run → exec c s = .next s) ∧
    (s.power = .hold → ∃ t, exec c s = .next t ∧ t.power = .run ∧ t.rfld Reg.pwrStat 4 2 = 1 ∧ t.rfld Reg.pwrStat 8 4 = k ∧
      t = { s with csr := t.csr, power := .run } ∧ s.sameRegs t [Reg.pwrStat]) ∧
    (s.power = .retain → ∃ t, exec c s = .next t ∧ t.power = .run ∧ t.rfld Reg.pwrStat 4 2 = 2 ∧ t.rfld Reg.pwrStat 8 4 = k ∧
      (∀ a, t.memByte a = if s.dataKey (memKey a) then 0 else s.memByte a) ∧
      (∀ e : EngId, s.present e = true → (∃ l : EngId, s.map[l] = some e) → (t.eng e).clocked = true) ∧
      (∀ e : EngId, ¬(s.present e = true ∧ ∃ l : EngId, s.map[l] = some e) → (t.eng e).clocked = (s.eng e).clocked))) ∧
  (∀ (o : BootOffer) (c : Instr) (s : State), s.boot.due = none → s.boot.go = false → s.boot.seek = false → s.supply.stopped = true →
    460 ≤ ((s.reg Reg.pwrTemp).setWidth 16 : Half).toInt → c = .wakePinEdge o ∨ c = .pwrAlarm o → exec c s = .next s) ∧
  (∀ (o : BootOffer) (s : State),
    (s.boot.low = false → s.boot.fall = none →
      exec .resetAssert s = .next { s with boot := { s.boot with fall := some s.now } }) ∧
    (s.boot.low = false → exec (.resetRelease o) s = .next { s with boot := { s.boot with fall := none } }) ∧
    (s.boot.low = true → ∃ k, exec (.resetRelease o) s =
        .next { s with boot := { s.boot with low := false, due := none, later := some (s.now + 10000, k, o) } } ∧
      (s.boot.due = none → k = 1) ∧ ∀ d, s.boot.due = some d → k = d)) ∧
  (∀ (s : State) (k : Nat), s.boot.fall = some k →
    (s.now < k + 1000 → s.boot.later = none → s.resetTick = s) ∧
    (k + 1000 ≤ s.now → let t := s.resetTick
      t.power = .stopped ∧ t.boot.low = true ∧ t.boot.fall = none ∧ t.released = false ∧ (∀ e, t.live e = false) ∧
      (∀ p, t.pin p = Pin.zero) ∧ t.mtx.reqs = [] ∧ (∀ a, alwaysOnReg a = true → a ≠ Reg.pwrStat → t.reg a = s.reg a) ∧
      t.rfld Reg.sysBootst 0 2 = s.rfld Reg.sysBootst 0 2 ∧
      t.boot.due = (match (match s.boot.later with | some (_, d, _) => some d | none => s.boot.due) with
        | some d => if d = 0 ∨ d = 3 then some d else none
        | none => none)))

/-- The Barometer: a sample below the level while no warning stands warns, with its value, an Error Log entry and exception 13 where it is
enabled; later samples hold the lowest and start or end the recovery run; a run of 50 µs clears the warning. A reading of 125.0 °C warns,
one below 120.0 °C clears it, and the second of 135.0 °C in a row stops the device. Readings rounded down to 8 mV are the model's choice
(log 53) (R203, R433, R434, R436). The reference: a switch to the recovered clock is made only while its port is up; its loss returns to
XIN with REVERT; the loss of XIN while it is in use is flagged, and its return ends it (R439, R440). -/
def Obligations.SupplyTemperatureAndReference : Prop :=
  (
  (∀ (vin vcore : Half) (s : State), (s.power = .run ∨ s.power = .hold) →
    let mv := vin.toNat / 8 * 8
    let level := min 26000 (max 4200 (s.rfld Reg.pwrBarctl 16 16))
    let low := mv < level ∨ s.rbit Reg.pwrInj 0 = true
    ∃ t, exec (.barometerSample vin vcore) s = .next t ∧ t.rfld Reg.pwrVin 0 16 = mv ∧ t.rfld Reg.pwrVin 16 16 = vcore.toNat / 8 * 8 ∧
      (s.rbit Reg.pwrBarstat 0 = false → ¬low → s.sameRegs t [Reg.pwrVin] ∧ t = { s with csr := t.csr }) ∧
      (s.rbit Reg.pwrBarstat 0 = false → low → t.reg Reg.pwrBarstat = s.reg Reg.pwrBarstat ||| 0x101 ∧
        t.reg Reg.pwrVinmin = BitVec.ofNat 32 mv ∧ logged s t 0x30 0 mv 0 ∧ t.supply.warnAt = s.now ∧
        (∀ e, s.present e = true → (s.eng e).clocked = true → s.rbit (Reg.teExcctl e) 1 = true → t.rbit (Reg.teApend e) 13 = true ∧
          ∃ k, (13, k) ∈ (t.eng e).apend) ∧
        (∀ e : EngId, s.rbit (Reg.teExcctl e) 1 = false → t.eng e = s.eng e ∧ t.reg (Reg.teApend e) = s.reg (Reg.teApend e))) ∧
      (s.rbit Reg.pwrBarstat 0 = true → t.rfld Reg.pwrVinmin 0 16 = min mv (s.rfld Reg.pwrVinmin 0 16) ∧
        (low ∨ mv < level + 200 → t.supply.run = none) ∧
        (¬low → level + 200 ≤ mv → t.supply.run = some (match s.supply.run with | some k => k | none => s.now)) ∧
        s.sameRegs t [Reg.pwrVin, Reg.pwrVinmin] ∧ t = { s with csr := t.csr, supply := t.supply }) ∧
      t = { s with csr := t.csr, engines := t.engines, supply := t.supply, logn := t.logn }) ∧
  (∀ (s : State) (k : Nat), (s.power = .run ∨ s.power = .hold) → s.supply.run = some k → s.rbit Reg.pwrBarstat 0 = true →
    (k + 50000 ≤ s.now → ∃ t, exec .barometerRecover s = .next t ∧ t.rbit Reg.pwrBarstat 0 = false ∧ t.rbit Reg.pwrBarstat 9 = true ∧
      logged s t 0x31 0 (s.rfld Reg.pwrVinmin 0 16) (BitVec.ofNat 32 ((s.now - s.supply.warnAt) / 1000)) ∧ t.supply.run = none ∧
      t = { s with csr := t.csr, supply := t.supply, logn := t.logn } ∧ s.sameRegs t [Reg.pwrBarstat]) ∧
    (s.now < k + 50000 → exec .barometerRecover s = .next s)) ∧
  (∀ (x : Half) (s : State),
    let hot := 500 ≤ x.toInt ∨ s.rbit Reg.pwrInj 1 = true
    ∃ t, exec (.thermalSample x) s = .next t ∧ t.rfld Reg.pwrTemp 0 16 = x.toNat ∧
      (s.rbit Reg.pwrTstat 0 = false → hot → t.rbit Reg.pwrTstat 0 = true ∧ t.rbit Reg.pwrTstat 8 = true ∧
        (∀ e, s.present e = true → (s.eng e).clocked = true → s.power = .run → s.rbit (Reg.teExcctl e) 2 = true → t.rbit (Reg.teApend e) 15 = true)) ∧
      (s.rbit Reg.pwrTstat 0 = true → x.toInt < 480 → s.rbit Reg.pwrInj 1 = false → t.rbit Reg.pwrTstat 0 = false ∧ t.rbit Reg.pwrTstat 9 = true) ∧
      (s.rbit Reg.pwrTstat 0 = false → ¬hot → x.toInt < 540 → s.sameRegs t [Reg.pwrTemp]) ∧
      (540 ≤ x.toInt → s.supply.hot = 1 → s.supply.stopped = false → (s.power = .run ∨ s.power = .hold) →
        t.rbit Reg.pwrTstat 10 = true ∧ t.supply.stopped = true ∧ t.request = some .off) ∧
      (x.toInt < 540 → t.supply.hot = 0 ∧ t.request = s.request ∧ t.power = s.power))) ∧
  (
  (∀ (src : Bool) (s : State), (s.power = .run ∨ s.power = .hold) →
    (s.rbit Reg.clkStat 0 = src → exec (.referenceSwitch src) s = .next s) ∧
    (s.rbit Reg.clkStat 0 = !src → (src = true → ∃ p : PortId, p.val = s.rfld Reg.hlTsctl 0 2 ∧ s.hlState p = 2) →
      ∃ t, exec (.referenceSwitch src) s = .next t ∧ t.rbit Reg.clkStat 0 = src ∧ t.rbit Reg.clkStat 1 = false ∧ t.rbit Reg.clkCtl 0 = src ∧ t.rbit Reg.clkStat 8 = true ∧
        s.onlyRegs t [Reg.clkCtl, Reg.clkStat]) ∧
    (src = true → s.rbit Reg.clkStat 0 = false → (∀ p : PortId, p.val = s.rfld Reg.hlTsctl 0 2 → s.hlState p ≠ 2) →
      exec (.referenceSwitch src) s = .next s)) ∧
  (∀ s : State, s.rbit Reg.clkStat 0 = true → ∃ t, exec .recoveredClockLoss s = .next t ∧ t.rbit Reg.clkStat 0 = false ∧
    t.rbit Reg.clkCtl 0 = false ∧ t.rbit Reg.clkStat 9 = true ∧ t.rbit Reg.pwrBarstat 11 = true ∧
    s.onlyRegs t [Reg.clkCtl, Reg.clkStat, Reg.pwrBarstat]) ∧
  (∀ s : State, s.rbit Reg.clkStat 0 = false → s.supply.xinAt = none → ∃ t, exec .xinLoss s = .next t ∧ t.rbit Reg.clkStat 1 = true ∧
    t.rbit Reg.clkStat 10 = true ∧ t.rbit Reg.pwrBarstat 11 = true ∧ t.supply = { s.supply with xinAt := some s.now } ∧
    t = { s with csr := t.csr, supply := t.supply } ∧ s.sameRegs t [Reg.clkStat, Reg.pwrBarstat]) ∧
  (∀ (s : State) (k : Nat), s.supply.xinAt = some k → ∃ t, exec .xinReturn s = .next t ∧ t.rbit Reg.clkStat 1 = false ∧
    t.supply = { s.supply with xinAt := none } ∧ t = { s with csr := t.csr, supply := t.supply } ∧ s.sameRegs t [Reg.clkStat]))

/-- The command `c` begins a start-up sequence at `s` with ORIGIN `k`, where `f` failed starts stand: power-on and the loss of the always-on
domain, which clear the count, the monitor, which clears it too, and the other origins and sequences that are due (R384, R401, R402, R435,
R440, R452). -/
def beginsStart (c : Instr) (o : BootOffer) (s : State) (k f : Nat) : Prop :=
  let free := s.boot.low = false ∧ s.boot.later = none
  (f = 0 ∧ ((c = .powerOn o ∨ c = .barometerReset .vinLost o) ∧ free ∧ k = 0 ∨
    c = .monitorBoot o ∧ s.inFallback = true ∧ s.boot.mon = none ∧ k = 2)) ∨
  (f = s.rfld Reg.sysBootst 0 2 ∧
   (c = .deviceReset o ∧ s.boot.due = none ∧ s.boot.seek = false ∧ (s.power = .run ∨ s.power = .hold) ∧ k = 2 ∨
    (c = .deviceReset o ∨ c = .bootMailboxGo o ∨ c = .bootSourceTimeout o ∨ c = .confirmationWindowExpiry o ∨ c = .xinLossTimeout o) ∧
      s.boot.due = some k ∧ s.boot.low = false ∧ s.boot.wait = none ∧ s.boot.window = none ∧ s.supply.xinAt = none ∨
    c = .confirmationWindowExpiry o ∧ k = 5 ∧ (∃ w, s.boot.window = some w ∧ w ≤ s.now) ∨
    (c = .barometerReset .vin o ∨ c = .barometerReset .rail o ∨ c = .barometerReset .vcore o ∧ (s.power = .run ∨ s.power = .hold) ∨
      c = .xinLossTimeout o ∧ ∃ x, s.supply.xinAt = some x ∧ x + 100000 ≤ s.now) ∧ free ∧ k = 3 ∨
    (c = .wakePinEdge o ∧ s.rbit Reg.pwrWakecfg 0 = true ∨
      c = .pwrAlarm o ∧ s.rbit Reg.pwrWakecfg 1 = true ∧ (s.reg Reg.pwrAlarmHi ++ s.reg Reg.pwrAlarmLo : DWord) ≤ s.fc) ∧
      s.power = .off ∧ s.supply.stopped = false ∧ s.boot.low = false ∧ k = 4))

/-- The failed starts that stand once a sequence with ORIGIN `k` has begun, where `f` stood before (R395). -/
def failsAfter (s : State) (k f : Nat) : Nat := min 3 (if s.boot.unconf = true ∧ (k = 1 ∨ k = 2 ∨ k = 4 ∨ k = 5) then f + 1 else f)

/-- TE0 alone runs, the Boot ROM's programs, in segmented mode with SEGCHK and under its descriptors (R14, R392). -/
def romRuns (t : State) : Prop :=
  (∀ e, t.live e = decide (e = 0)) ∧ t.rbit (Reg.teCfg 0) 8 = true ∧ t.rbit (Reg.teMemctl 0) 0 = true ∧
  (∀ x ∈ [((0, 1), (0x0003_FFFF : Word)), ((0, 3), 0x1B), ((1, 0), 0x2000_0000), ((1, 1), 0x0007_FFFF), ((1, 3), 0x17), ((2, 1), 0x1FFF_FFFF),
    ((2, 3), 0x17)], t.port 0 (keySeg x.1.1 x.1.2) = x.2) ∧
  ∀ e : EngId, e ≠ 0 → t.eng e = State.reset.eng e

/-- The device has begun a sequence with ORIGIN `k`: stores cleared, every block in its reset state, and the Boot ROM on TE0 (R14, R385, R392,
R398). -/
def begunAt (t : State) (k n : Nat) : Prop :=
  t.power = .run ∧ t.released = false ∧ t.mem = [] ∧ t.mtx.reqs = [] ∧ (∀ p, t.pin p = Pin.zero) ∧ romRuns t ∧
  t.rfld Reg.sysBootcause 16 4 = k % 16 ∧ t.rbit Reg.sysBootcause 15 = false ∧ t.rfld Reg.sysBootst 0 2 = n ∧
  t.rfld Reg.sysBootst 4 4 = 1 ∧ t.boot.due = none

/-- The sequence waits for source `src` (R390). -/
def waitsAtStart (s t : State) (k n src : Nat) : Prop :=
  begunAt t k n ∧ t.rfld Reg.sysBootst 2 2 = src ∧ t.boot.wait = some (src, s.now) ∧ t.boot.seek = false

/-- From `s` to `t` a sequence with ORIGIN `k` has begun, with what its sources hold, where `f` failed starts stood. -/
def sequenceBegan (s t : State) (o : BootOffer) (k f : Nat) : Prop :=
  let n := failsAfter s k f
  let fell : Prop := t.inFallback = true ∧ romRuns t ∧ t.rfld Reg.sysBootcause 0 8 = 0x20 ∧ t.rfld Reg.sysBootcause 24 8 = 0 ∧
    t.rfld Reg.sysBootst 4 4 = 6 ∧ t.rfld Reg.sysBootst 0 2 = 3 ∧ t.rbit (Reg.uartCtl 0) 0 = true ∧ t.rbit Reg.pcieCtl 0 = true ∧ t.mem = []
  (n = 3 → fell) ∧
  (n < 3 → o.testen = true → begunAt t k n ∧ t.boot.seek = true ∧ t.boot.wait = none) ∧
  (o.testen = false →
    (n < 3 → o.straps = 1 → waitsAtStart s t k n 1 ∧ t.rbit Reg.pcieCtl 0 = true) ∧
    (n < 3 → o.straps = 2 → waitsAtStart s t k n 2 ∧ ∀ p, t.hlState p = 1) ∧
    (n < 3 → o.straps = 3 → o.flash = false → waitsAtStart s t k n 1 ∧ t.rfld Reg.sysBootcause 0 8 = 1) ∧
    (o.straps = 0 → o.flash = false → fell))

/-- The image `bs` with the content `body` has no error, no record of the memory images, and no contents but those of the emulation stores. -/
def plainImage (s : State) (bs : List Byte) (body : ImgBody) : Prop :=
  s.imageError bs body = none ∧ (imageOf bs body).records = [] ∧
  ∀ r ∈ body.contents, r.kind = 2 ∧ 0x6000 ≤ r.dest.toNat ∧ r.dest.toNat + r.bytes.length ≤ 0x1_0000

/-- A start-up sequence: with three failed starts the device enters Fallback; else it begins, with ORIGIN, every store cleared, the Boot
ROM running on TE0 alone and the count of failed starts one more where the last start was not confirmed, and waits for the host or the
neighbour as the straps say, or while TESTEN is high. Without a flash under straps 0b00 it ends in Fallback after three failed starts. One
that RESET# held back begins 10 µs after it rose. A sequence as one command with what its sources hold is the model's choice (log 79, 87)
(R14, R384, R385, R390, R392, R394, R395, R398, R400, R452, R453). A start: an image without error in slot A of the flash or from the host
is verified and stands in the holding registers; then its structure takes effect in one fc, with each logical engine mapped onto a present
one, the one it requires or a free one and no two to the same, TE0 stopped, and the Data class and the Boot ROM area cleared; then the
mapped engines are released, with REMAP and, as the image says, LOCK, and the confirmation window opens unless the start is confirmed
already. A slot that fails is logged, recorded and cleared. The lowest port that is up is asked for the neighbour's image in requests of
256 bytes. SYS_BOOTOK closes the window; it and FSCLR clear the count of failed starts. An image as bytes and content, the levels of pins
at release, and the tags of image requests are the model's choice (log 81, 84, 135) (R387, R390–R399, R402). -/
def Obligations.StartUpSequence : Prop :=
  (
  (∀ (c : Instr) (o : BootOffer) (s : State) (k f : Nat), beginsStart c o s k f → ∃ t, exec c s = .next t ∧ sequenceBegan s t o k f) ∧
  (∀ (o : BootOffer) (s : State) (w k : Nat), s.boot.fall = none → s.boot.later = some (w, k, o) →
    (s.now < w → s.resetTick = s) ∧ (w ≤ s.now → sequenceBegan s s.resetTick o k (s.rfld Reg.sysBootst 0 2)))) ∧
  (
  (∀ (c : Instr) (o : BootOffer) (s : State) (k f off len fin : Nat) (body : ImgBody), beginsStart c o s k f → failsAfter s k f < 3 →
    o.testen = false → o.straps = 0 → o.flash = true → s.flashDir = some ((off, len), (fin, 0)) → 0 < len → o.slotA = .image body →
    plainImage s (s.flashBytes off len) body →
    ∃ t, exec c s = .next t ∧ t.released = false ∧ t.power = .run ∧ t.rfld Reg.sysBootcause 16 4 = k % 16 ∧ t.rfld Reg.sysBootst 4 4 = 3 ∧
      t.boot.hold = some ⟨imageOf (s.flashBytes off len) body, 0, 0, false, s.now + 1⟩ ∧ ∀ e, t.live e = decide (e = 0)) ∧
  (∀ (s : State) (v : Verified), s.boot.hold = some v →
    let t := s.bootStep
    let g := v.img
    (s.now < v.till → t = s) ∧
    (v.till ≤ s.now → s.rfld Reg.sysBootst 4 4 = 3 →
      t.image = some g ∧ t.rfld Reg.sysBootst 4 4 = 4 ∧ (t.eng 0).clocked = false ∧ t.rbit (Reg.teMemctl 0) 0 = v.chk ∧
      t.boot.hold = some { v with till := s.now + if t.mainData then 16384 else 4096 } ∧
      (∀ a, t.memByte a = if t.dataKey (memKey a) = true ∨ bootArea (memKey a) = true then 0 else s.memByte a) ∧
      ((g.map.filterMap mapNeeds).Nodup → (∀ e ∈ g.map.filterMap mapNeeds, s.present e = true) → g.map.length ≤ 16 →
        g.map.length ≤ ((List.finRange 16).filter s.present).length →
        (∀ l : EngId, l.val < g.map.length → ∃ e, t.map[l] = some e ∧ s.present e = true ∧
          ∀ b, g.map[l.val]? = some b → b.getLsbD 7 = true → e.val = b.toNat % 16) ∧
        (∀ l : EngId, g.map.length ≤ l.val → t.map[l] = none) ∧ (∀ l m : EngId, l ≠ m → t.map[l] = t.map[m] → t.map[l] = none))) ∧
    (v.till ≤ s.now → s.rfld Reg.sysBootst 4 4 ≠ 3 →
      t.released = true ∧ t.power = .run ∧ t.rfld Reg.sysBootcause 0 8 = 0 ∧ t.rfld Reg.sysBootcause 8 2 = v.src % 4 ∧
      t.rfld Reg.sysBootcause 12 1 = v.slot % 2 ∧ t.rfld Reg.sysBootst 4 4 = 5 ∧ t.rbit Reg.sysCtl 0 = true ∧
      t.rbit Reg.sysCtl 1 = (s.rbit Reg.sysCtl 1 || g.lock) ∧ t.boot.hold = none ∧ t.boot.wait = none ∧
      t.boot.window = (if s.rbit Reg.sysBootst 9 then none
        else some (s.now + (if g.bootwin = 0 then 1000 else g.bootwin.toNat) * 1000000)) ∧
      (∀ e, (t.eng e).clocked = true ↔ (s.eng e).clocked = true ∨ ∃ l : EngId, s.map[l] = some e) ∧
      (g.almen = false → ∀ p, (t.pin p).lvl = if (s.pin p).owner = .none then (s.pin p).lvl else (s.pin p).safe))) ∧
  (∀ (m : Nat) (v : Verified) (s : State), m ≠ 0 ∨ s.rfld Reg.sysBootst 4 4 ≠ 2 → s.holdWrite m v = s) ∧
  (∀ (s : State) (x : SlotOffer) (src slot c sec : Nat), s.slotError x = some (c, sec) → ∃ t, s.loadSlot x src slot = .inl t ∧
    logged s t 0x38 (src + 16 * slot) c (BitVec.ofNat 32 sec) ∧ t.rfld Reg.sysBootcause 0 8 = c % 256 ∧
    t.rfld Reg.sysBootcause 8 2 = src % 4 ∧ t.rfld Reg.sysBootcause 12 1 = slot % 2 ∧ t.rfld Reg.sysBootcause 24 8 = sec % 256 ∧
    (∀ a, t.memByte a = if bootArea (memKey a) = true then s.memByte a else memDefault t.cat (memKey a)) ∧ t.map = s.map ∧ t.image = s.image) ∧
  (∀ (s : State) (k : Nat) (p : PortId), s.boot.wait = some (2, k) → s.boot.fetch = none → s.hlState p = 2 →
    (∀ q : PortId, q < p → s.hlState q ≠ 2) → ∃ h f, s.fetchTick.boot.fetch = some h ∧ s.fetchTick.boot.wait = none ∧
      s.fetchTick.rfld Reg.sysBootst 4 4 = 2 ∧ h.port = p ∧ h.out = [(0, 256, none)] ∧
      (s.fetchTick.hlPort p).txq = (s.hlPort p).txq ++ [⟨f, s.stamp, false, none⟩] ∧ f.typ = 7 ∧ f.rsp = false ∧ f.tag = 0 ∧
      f.w2 = 0x1_0001 ∧ f.w3 = 0 ∧ f.dst = (s.reg (Reg.hlPartner p)).setWidth 12 ∧ f.src = s.hlId) ∧
  (∀ (v : Word) (s : State),
    (v = 0xA5C3 → ∃ t, exec (.startConfirm v) s = .next t ∧
      t.rbit Reg.sysBootst 9 = true ∧ t.rfld Reg.sysBootst 0 2 = 0 ∧ t.boot = { s.boot with window := none, unconf := false } ∧
      t = { s with csr := t.csr, boot := t.boot } ∧ s.sameRegs t [Reg.sysBootst]) ∧
    (v ≠ 0xA5C3 → exec (.startConfirm v) s = .next s)) ∧
  (∀ s : State, ∃ t, exec .failedStartClear s = .next t ∧ t.rfld Reg.sysBootst 0 2 = 0 ∧ s.onlyRegs t [Reg.sysBootst]) ∧
  (∀ (o : BootOffer) (s : State) (k : Nat), s.boot.wait = some (1, k) → s.boot.go = false → s.boot.seek = false →
    (s.now < k + 10000000000 → exec (.bootSourceTimeout o) s = .next s) ∧
    (k + 10000000000 ≤ s.now → s.boot.straps = 3 → ∃ t, exec (.bootSourceTimeout o) s = .next t ∧ t.boot.wait = some (2, s.now) ∧
      t.rfld Reg.sysBootst 2 2 = 2 ∧
      t.rfld Reg.sysBootcause 0 8 = (if 3 ≤ s.rfld Reg.sysBootcause 0 8 then s.rfld Reg.sysBootcause 0 8 else 1) ∧
      ∀ p, s.hlState p = 0 → t.hlState p = 1) ∧
    (∀ bs body, o.pcie = some (.image bs body) → let n := (s.reg (Reg.sysBootmbx 2)).toNat
      plainImage s (bs.take n) body → ∃ t, exec (.bootMailboxGo o) s = .next t ∧ t.released = s.released ∧ t.boot.wait = none ∧
        t.rfld Reg.sysBootst 4 4 = 3 ∧ t.boot.hold = some ⟨imageOf (bs.take n) body, 1, 0, false, s.now + 1⟩)))

/-- From `s` to `t` the monitor, as master 0, asks the matrix for the word at `a`, in two requests where it crosses a multiple of 256. -/
def monAsked (s t : State) (write : Bool) (a : Word) (data : List Byte) : Prop :=
  ∃ rs : List Req, t.mtx.reqs = s.mtx.reqs ++ rs ∧ t.boot.mon = some ⟨rs.map fun r => (r.id, none), write⟩ ∧
    let n := 256 - a.toNat % 256
    let k : ReqKind := if write then .write else .read
    rs.map (fun r => (r.m, r.addr, r.kind, r.len, r.data)) =
      (if 4 ≤ n then [(0, a, k, 4, data)] else [(0, a, k, n, data.take n), (0, a + BitVec.ofNat 32 n, k, 4 - n, data.drop n)])

/-- The monitor answers `ws`, noted in what the block returns and as text for UART0 (R401). -/
def monAnswers (s t : State) (ws : List Word) : Prop :=
  t.rdata = 0 :: ws ∧ t.boot.out = s.boot.out ++ [0x4F, 0x4B] ++ (ws.flatMap fun w => 0x20 :: hexText 8 w.toNat) ++ [0x0D]

/-- The monitor answers ERR with code `c`. -/
def monRefuses (s t : State) (c : Nat) : Prop :=
  t.rdata = [BitVec.ofNat 32 (0x100 + c)] ∧ t.boot.out = s.boot.out ++ [0x45, 0x52, 0x52, 0x20] ++ hexText 2 c ++ [0x0D]

/-- From `s` to `t` the monitor changes nothing but what it answers. -/
def onlyAnswer (s t : State) : Prop :=
  t = { s with rdata := t.rdata, free := t.free, boot := { s.boot with out := t.boot.out, line := t.boot.line } }

/-- The monitor acts in Fallback only, while no access of it is on its way: I reports three registers, R and W ask the matrix for a word as
TE0, and the response answers, L stores a received image at the start of the Main Store and answers OK where its CRC agrees, C reports the
cause of the first error that the checks find in it, P erases and programs the slot of the directory, and an unknown command is answered with
code 0xFF. A line of UART0 does the same as its command. Codes that no rule gives, the text's layout, and the rows of the commands beside
UART0 are the model's choice (log 74, 86, 129) (R387, R391, R399, R401). -/
def Obligations.MonitorCommandsAnswer : Prop :=
  (∀ (s : State) (a v n crc : Word) (bs : List Byte) (b fl : Bool) (x : ImgBody) (o : BootOffer), s.inFallback = false ∨ s.boot.mon ≠ none →
    ∀ c ∈ [Instr.monitorInfo, .monitorRead a, .monitorWrite a v, .monitorLoad n bs crc, .monitorCheck x, .monitorProgram b fl,
      .monitorBoot o, .monitorUnknownCommand], exec c s = .next s) ∧
  (∀ s : State, s.inFallback = true → s.boot.mon = none →
    (∃ t, exec .monitorInfo s = .next t ∧
      monAnswers s t [(0x0001_0000 : Word) ||| s.engmask.setWidth 32, s.reg Reg.sysBootcause, s.reg Reg.sysBootst] ∧ onlyAnswer s t) ∧
    (∀ a : Word,
      (bootArea (memKey a.toNat) = true → ∃ t w, exec (.monitorRead a) s = .next t ∧ monAnswers s t [w] ∧ onlyAnswer s t) ∧
      (bootArea (memKey a.toNat) = false → ∃ t, exec (.monitorRead a) s = .next t ∧ monAsked s t false a [] ∧
        t = { s with mtx := t.mtx, boot := { s.boot with mon := t.boot.mon } }) ∧
      (∀ v, ∃ t, exec (.monitorWrite a v) s = .next t ∧ monAsked s t true a (bytesOf 4 v.toNat) ∧
        t = { s with mtx := t.mtx, boot := { s.boot with mon := t.boot.mon } })) ∧
    (∀ (n crc : Word) (bs : List Byte),
      (0x0100_0000 < n.toNat ∨ bs.length ≠ n.toNat → ∃ t, ∃ c ∈ bootCauses, exec (.monitorLoad n bs crc) s = .next t ∧ monRefuses s t c.toNat ∧
        onlyAnswer s t) ∧
      (n.toNat ≤ 0x0100_0000 → bs.length = n.toNat → ∃ t, exec (.monitorLoad n bs crc) s = .next t ∧
        (crc = crc32 bs → monAnswers s t [] ∧ t.boot.recv = some n.toNat) ∧
        (crc ≠ crc32 bs → (∃ c ∈ bootCauses, monRefuses s t c.toNat) ∧ t.boot.recv = none) ∧
        (∀ i b, bs[i]? = some b → t.memByte (0x1000_0000 + i) = b) ∧
        (∀ a, (memKey a < 0x1000_0000 ∨ 0x1000_0000 + n.toNat ≤ memKey a) → t.memByte a = s.memByte a) ∧ s.sameRegs t [] ∧
        (∀ e k, t.port e k = s.port e k))) ∧
    (∀ (body : ImgBody) (n : Nat), s.boot.recv = some n → ∃ t, exec (.monitorCheck body) s = .next t ∧ onlyAnswer s t ∧
      match s.imageError (s.readBytes 0x1000_0000 n) body with
      | some (c, _) => c < 256 → monRefuses s t c
      | none => monAnswers s t []) ∧
    (∀ body : ImgBody, s.boot.recv = none → ∃ t, ∃ c ∈ bootCauses, exec (.monitorCheck body) s = .next t ∧ monRefuses s t c.toNat ∧ onlyAnswer s t) ∧
    (∀ (b : Bool) (x y : Nat × Nat), s.flashDir = some (x, y) → ∀ n, n = (match s.boot.recv with | some k => k | none => 0) →
      let second := match s.boot.line with | some (.program l) => l | _ => b
      let d := if second then y else x
      ∃ t, exec (.monitorProgram b true) s = .next t ∧ monAnswers s t [] ∧
        (∀ i, i < min n d.2 → t.flashAt (d.1 + i) = s.readByte (0x1000_0000 + i)) ∧
        (∀ i, n ≤ i → i < d.2 → t.flashAt (d.1 + i) = 0xFF) ∧
        (∀ a, (a < d.1 ∨ d.1 + d.2 ≤ a) → t.flashAt a = s.flashAt a) ∧
        t = { s with flash := t.flash, rdata := t.rdata, boot := { s.boot with out := t.boot.out, line := none } }) ∧
    (∀ b fl : Bool, fl = false ∨ s.flashDir = none → ∃ t, exec (.monitorProgram b fl) s = .next t ∧ monRefuses s t 2 ∧ onlyAnswer s t) ∧
    (∃ t, exec .monitorUnknownCommand s = .next t ∧ monRefuses s t 0xFF ∧ onlyAnswer s t) ∧
    (∀ (v : Half) (vs : List Half), s.uart[(0 : PortId)].rx = v :: vs → s.boot.line = none → s.boot.raw = none →
      let took (inp : List Byte) : State :=
        { s with uart := s.uart.set 0 { s.uart[(0 : PortId)] with rx := vs }, boot := { s.boot with inp := inp } }
      (v.setWidth 8 ≠ (0x0D : Byte) → s.monListen = took (s.boot.inp ++ [v.setWidth 8])) ∧
      (v.setWidth 8 = (0x0D : Byte) →
        (s.boot.inp = [0x49] → s.monListen = (took []).monitorInfo) ∧
        (∀ a : Word, s.boot.inp = [0x52, 0x20] ++ hexText 8 a.toNat → s.monListen = (took []).monitorRead a) ∧
        (∀ a w : Word, s.boot.inp = [0x57, 0x20] ++ hexText 8 a.toNat ++ [0x20] ++ hexText 8 w.toNat →
          s.monListen = (took []).monitorWrite a w) ∧
        (∀ c, s.boot.inp.head? = some c → c ∉ [(0x49 : Byte), 0x52, 0x57, 0x4C, 0x43, 0x50, 0x42] → monRefuses s s.monListen 0xFF)))) ∧
  (∀ (s : State) (r : Req) (j : MonJob) (c : Resp) (bs : List Byte), s.boot.mon = some j → answered j.parts r c bs →
    let t := s.monTake r
    t.boot.mon = none ∧ (c = .okay → monAnswers s t (if j.write then [] else [wordOf bs])) ∧
    (c ≠ .okay → ∃ x ∈ bootCauses, monRefuses s t x.toNat) ∧
    t = { s with rdata := t.rdata, free := t.free, boot := { s.boot with mon := none, out := t.boot.out } })

/-- REMAP takes the value written unless LOCK stands, and then selects what the first MiB reads; LOCK is set and no write clears it (R288,
R402). Register writes by access code: RW stores the value, a 1 clears a W1C bit, RO and unaligned writes are ignored; a word of the Main
Store takes the value; nothing is written where no master runs, which is the model's choice (log 66) (R7, R8, R285, R286). -/
def Obligations.RegisterWrites : Prop :=
  (
  (∀ (v : Bool) (s : State),
    (s.rbit Reg.sysCtl 1 = true → exec (.remapWrite v) s = .next s) ∧
    (s.rbit Reg.sysCtl 1 = false → ∃ t, exec (.remapWrite v) s = .next t ∧ t.rbit Reg.sysCtl 0 = v ∧ t.rbit Reg.sysCtl 1 = false ∧
      (∀ a, a < 0x4_0000 → t.region a = if v then .main else .rom) ∧ s.onlyRegs t [Reg.sysCtl])) ∧
  (∀ s : State, ∃ t, exec .lockSet s = .next t ∧ t.reg Reg.sysCtl = s.reg Reg.sysCtl ||| 2 ∧ s.onlyRegs t [Reg.sysCtl] ∧
    ∀ v, ∃ u, exec (.registerWrite 0x5000_0004 v) t = .next u ∧ u.rbit Reg.sysCtl 1 = true)) ∧
  (
  (∀ (a : Nat) (v : Word) (s : State), (s.power = .run ∨ s.power = .hold) →
    a ∈ [Reg.curBint, Reg.curScrubdiv, Reg.pwrAlarmLo, Reg.pwrAlarmHi, Reg.hlTsper, Reg.hlTxto, Reg.hlImgbase, Reg.hlImglen, Reg.errLost,
      Reg.mtxErrcnt, Reg.almMisscnt, Reg.pcieCplto, Reg.encBrkt, Reg.hlStale] →
    ∃ t, exec (.registerWrite (BitVec.ofNat 32 a) v) s = .next t ∧ t.reg a = v ∧ s.onlyRegs t [a]) ∧
  (∀ (a : Nat) (m v : Word) (s : State), (s.power = .run ∨ s.power = .hold) →
    (a, m) ∈ [(Reg.curStat, (0xF00 : Word)), (Reg.mtxStat, 0x1F00), (Reg.pcieStat, 0x1F00), (Reg.errStat, 0x500), (Reg.curVit, 0), (Reg.curFaddr, 0)] →
    ∃ t, exec (.registerWrite (BitVec.ofNat 32 a) v) s = .next t ∧ t.reg a = s.reg a &&& ~~~(v &&& m) ∧ s.onlyRegs t [a]) ∧
  (∀ (a v : Word) (s : State), (s.power ≠ .run ∧ s.power ≠ .hold) ∨ a.toNat % 4 ≠ 0 ∧ (0x5000_0000 ≤ a.toNat ∧ a.toNat < 0x5010_0000) →
    exec (.registerWrite a v) s = .next s) ∧
  (∀ (a v : Word) (s : State), (s.power = .run ∨ s.power = .hold) → a.toNat % 4 = 0 → s.region a.toNat = .main → storesSound s →
    ∃ t, exec (.registerWrite a v) s = .next t ∧ t.memWord a.toNat = v ∧
      (∀ b, (∀ i, i < 4 → memKey b ≠ memKey (a.toNat + i)) → t.readByte b = s.readByte b) ∧ s.sameRegs t [] ∧
      (∀ e k, t.port e k = s.port e k)))

/-! The whole block -/

/-- Every step keeps the canonical form: of the memory, whose entries rise strictly and differ from what an unlisted byte reads as; of
the registers; and the Error Log's input buffer holds at most 16 entries (R415). -/
def Obligations.EveryStepKeepsCanonicalForm : Prop :=
  ∀ s t : State, s.canon → step s = .next t → t.canon

/-- The state after reset is canonical. -/
def Obligations.ResetStateIsCanonical : Prop := State.reset.canon

/-- Reset: every register holds the reset value of its row, nothing is stored, no engine runs, no request is in flight, no command waits,
the Time Base stands at 0, and every pin is Z without an owner (R7, R14, R385, R450). That no engine is clocked, that an engine's words
are 0 and what an unlisted byte reads as are the model's choices (log entries 5 to 7). -/
def Obligations.ResetLeavesResetValues : Prop :=
  (∀ a, State.reset.reg a = Reg.resetValue a) ∧ (∀ a, State.reset.memByte a = memDefault 0 (memKey a)) ∧
  (∀ e, State.reset.live e = false) ∧ (∀ e k, State.reset.port e k = 0) ∧ (∀ p, (State.reset.pin p).lvl = .z ∧ (State.reset.pin p).owner = .none) ∧
  State.reset.tb = 0 ∧ State.reset.mtx.reqs = [] ∧ State.reset.logq = [] ∧ State.reset.pending = [] ∧
  State.reset.reg Reg.pwrStat = 0x30 ∧ State.reset.reg Reg.pwrWakecfg = 1 ∧ State.reset.reg Reg.pwrBarctl = 0x10CC_0000 ∧
  State.reset.reg Reg.tmrTbsync = 0x0040_0408 ∧ State.reset.reg Reg.tmrTbsyncto = 0x000F_4240 ∧ State.reset.reg Reg.curBint = 0x1_0000 ∧
  State.reset.reg Reg.curScrubdiv = 0x100 ∧ State.reset.reg Reg.hlTxto = 0x4E20 ∧ State.reset.reg Reg.pcieCplto = 0x32 ∧
  (∀ e : EngId, State.reset.reg (Reg.teMemctl e) = 1)

/-- A step takes the command at the front of the queue and carries it out with the rest of the queue; on an empty queue one fc passes,
which is the model's choice (log entry 2). -/
def Obligations.StepCarriesOutTheFrontCommand : Prop :=
  (∀ (c : Instr) (q : List Instr) (s : State), s.pending = c :: q → step s = exec c { s with pending := q }) ∧
  (∀ s : State, s.pending = [] → step s = .next s.tick)

/-- Every command completes with a next state, and no command and no fc that passes changes the queue of waiting commands or which engines
are present. That a command whose condition does not hold leaves the state rests on log 3. (R3). -/
def Obligations.EveryCommandCompletesAndLeavesTheQueue : Prop :=
  (∀ (c : Instr) (s : State), s.canon → ∃ t, exec c s = .next t ∧ t.canon ∧ t.pending = s.pending ∧ t.engmask = s.engmask) ∧
  (∀ s : State, s.canon → s.tick.canon ∧ s.tick.pending = s.pending ∧ s.tick.engmask = s.engmask)
end

