-- ==== Sys2Proof/Laws/Fields.lean ====
section
/-! SUPPORT. The fields of a word: a field reads as it was last written, and a write of one field leaves the others. -/

namespace Sys2Proof.Laws

open Sys2Proof.Machine

theorem fldOf_eq (w : Word) (lo n : Nat) : fldOf w lo n = (w >>> lo).toNat % 2 ^ n := by
  simp [fldOf, Nat.shiftRight_eq_div_pow]

theorem fldOf_lt (w : Word) (lo n : Nat) : fldOf w lo n < 2 ^ n := Nat.mod_lt _ (by positivity)

/-- Bit `i` of a field is bit `lo + i` of the word. -/
theorem testBit_fldOf (w : Word) (lo n i : Nat) : (fldOf w lo n).testBit i = (decide (i < n) && w.getLsbD (lo + i)) := by
  simp [fldOf_eq, Nat.testBit_mod_two_pow, BitVec.testBit_toNat]

/-- Bit `i` of a word with one field replaced. -/
theorem getLsbD_putFld (w : Word) (lo n v i : Nat) :
    (putFld w lo n v).getLsbD i =
      if i < 32 ∧ lo ≤ i ∧ i < lo + n then v.testBit (i - lo) else w.getLsbD i := by
  by_cases h32 : i < 32
  · simp only [putFld, BitVec.getLsbD_or, BitVec.getLsbD_and, BitVec.getLsbD_not, BitVec.getLsbD_ofNat, h32, decide_true,
      Bool.true_and, true_and]
    rw [Nat.testBit_mul_two_pow, Nat.testBit_mul_two_pow]
    simp only [Nat.testBit_two_pow_sub_one, Nat.testBit_mod_two_pow]
    by_cases h1 : lo ≤ i
    · by_cases h2 : i < lo + n
      · have h3 : i - lo < n := by omega
        simp [h1, h2, h3]
      · have h3 : ¬ i - lo < n := by omega
        simp [h1, h2, h3]
    · simp [h1]
  · simp [BitVec.getLsbD_of_ge _ _ (by omega : 32 ≤ i), h32]

/-- A field reads as it was last written. -/
theorem fldOf_putFld_same (w : Word) (lo n v : Nat) (h : lo + n ≤ 32) : fldOf (putFld w lo n v) lo n = v % 2 ^ n := by
  apply Nat.eq_of_testBit_eq
  intro i
  rw [testBit_fldOf, getLsbD_putFld, Nat.testBit_mod_two_pow]
  by_cases hi : i < n
  · simp [hi, show lo + i < 32 by omega]
  · simp [hi]

/-- A write of a field leaves a field that shares no bit with it. -/
theorem fldOf_putFld_other (w : Word) (lo n v lo' n' : Nat) (h : lo' + n' ≤ lo ∨ lo + n ≤ lo') :
    fldOf (putFld w lo n v) lo' n' = fldOf w lo' n' := by
  apply Nat.eq_of_testBit_eq
  intro i
  rw [testBit_fldOf, testBit_fldOf, getLsbD_putFld]
  by_cases hi : i < n'
  · rw [if_neg (by omega)]
  · simp [hi]

/-- A write of a field leaves the bits outside it. -/
theorem bitOf_putFld_other (w : Word) (lo n v i : Nat) (h : i < lo ∨ lo + n ≤ i) :
    bitOf (putFld w lo n v) i = bitOf w i := by
  unfold bitOf
  rw [getLsbD_putFld, if_neg (by omega)]

/-- A bit that is set reads 1, and the other bits as before. -/
theorem bitOf_or_bitW (w : Word) (i j : Nat) (hi : i < 32) : bitOf (w ||| bitW i) j = (decide (j = i) || bitOf w j) := by
  unfold bitOf bitW
  simp only [BitVec.getLsbD_or, BitVec.getLsbD_ofNat, Nat.testBit_two_pow]
  by_cases h : j = i
  · subst h; simp [hi]
  · simp [h, Ne.symm h]

/-- A bit that is cleared reads 0, and the other bits as before. -/
theorem bitOf_andNot_bitW (w : Word) (i j : Nat) (hi : i < 32) :
    bitOf (w &&& ~~~bitW i) j = (!decide (j = i) && bitOf w j) := by
  unfold bitOf bitW
  simp only [BitVec.getLsbD_and, BitVec.getLsbD_not, BitVec.getLsbD_ofNat, Nat.testBit_two_pow]
  by_cases h : j = i
  · subst h; simp [hi]
  · by_cases h2 : j < 32
    · simp [h, Ne.symm h, h2]
    · simp [h, h2, BitVec.getLsbD_of_ge w j (by omega)]

end Sys2Proof.Laws
end

