-- ==== Sys2Proof/Laws/Map.lean ====
section
/-! SUPPORT. Laws of the sparse maps: a read after a write, other keys, and the canonical form. -/

namespace Sys2Proof.Laws

open Sys2Proof.Machine

variable {α : Type}

theorem mapGet_erase (d : Nat → α) (m : List (Nat × α)) (k j : Nat) :
    mapGet d (mapErase m k) j = if j = k then d j else mapGet d m j := by
  induction m with
  | nil => simp [mapErase, mapGet]
  | cons p m ih =>
    obtain ⟨i, w⟩ := p
    by_cases h : i = k
    · subst h
      simp only [mapErase, if_true, ih, mapGet]
      by_cases hj : j = i
      · simp [hj]
      · simp [hj, Ne.symm hj]
    · simp only [mapErase, if_neg h, mapGet, ih]
      by_cases hi : i = j
      · subst hi; simp [h]
      · simp [hi]

theorem mapGet_insert (d : Nat → α) (m : List (Nat × α)) (k : Nat) (v : α) (j : Nat)
    (hm : ∀ p ∈ m, p.1 ≠ k) : mapGet d (mapInsert m k v) j = if j = k then v else mapGet d m j := by
  induction m with
  | nil => simp only [mapInsert, mapGet]; by_cases h : k = j <;> simp [h, eq_comm]
  | cons p m ih =>
    obtain ⟨i, w⟩ := p
    have hi : i ≠ k := hm (i, w) (List.mem_cons_self ..)
    have ih' := ih (fun q hq => hm q (List.mem_cons_of_mem _ hq))
    simp only [mapInsert]
    split
    · simp only [mapGet]
      by_cases h : k = j
      · simp [h]
      · simp [h, Ne.symm h]
    · simp only [mapGet, ih']
      by_cases h : i = j
      · subst h; simp [hi]
      · simp [h]

theorem not_mem_erase (m : List (Nat × α)) (k : Nat) : ∀ p ∈ mapErase m k, p.1 ≠ k := by
  induction m with
  | nil => simp [mapErase]
  | cons p m ih =>
    obtain ⟨i, w⟩ := p
    by_cases h : i = k
    · simpa [mapErase, h] using ih
    · simpa [mapErase, h] using ih

/-- A read of the key just written gives what was written, and every other key reads as before. -/
theorem mapGet_set [DecidableEq α] (d : Nat → α) (m : List (Nat × α)) (k : Nat) (v : α) (j : Nat) :
    mapGet d (mapSet d m k v) j = if j = k then v else mapGet d m j := by
  unfold mapSet
  split
  · next h => rw [mapGet_erase, h]; by_cases hj : j = k <;> simp [hj]
  · rw [mapGet_insert _ _ _ _ _ (not_mem_erase m k), mapGet_erase]
    by_cases hj : j = k <;> simp [hj]

theorem mapErase_sub (m : List (Nat × α)) (k : Nat) : ∀ p ∈ mapErase m k, p ∈ m := by
  induction m with
  | nil => simp [mapErase]
  | cons p m ih =>
    obtain ⟨i, w⟩ := p
    by_cases h : i = k
    · intro q hq
      simp only [mapErase, h, if_true] at hq
      exact List.mem_cons_of_mem _ (ih q hq)
    · intro q hq
      simp only [mapErase, if_neg h, List.mem_cons] at hq
      rcases hq with rfl | hq
      · exact List.mem_cons_self ..
      · exact List.mem_cons_of_mem _ (ih q hq)

theorem mapWf_cons [DecidableEq α] (d : Nat → α) (p : Nat × α) (m : List (Nat × α)) :
    mapWf d (p :: m) = true ↔ p.2 ≠ d p.1 ∧ (∀ q ∈ m, p.1 < q.1) ∧ mapWf d m = true := by
  obtain ⟨i, w⟩ := p
  simp [mapWf, and_assoc]

theorem mapWf_erase [DecidableEq α] (d : Nat → α) (m : List (Nat × α)) (k : Nat) (h : mapWf d m = true) :
    mapWf d (mapErase m k) = true := by
  induction m with
  | nil => simp [mapErase, mapWf]
  | cons p m ih =>
    obtain ⟨i, w⟩ := p
    rw [mapWf_cons] at h
    by_cases hi : i = k
    · simpa [mapErase, hi] using ih h.2.2
    · simp only [mapErase, if_neg hi]
      rw [mapWf_cons]
      exact ⟨h.1, fun q hq => h.2.1 q (mapErase_sub m k q hq), ih h.2.2⟩

theorem mem_insert (m : List (Nat × α)) (k : Nat) (v : α) : ∀ p ∈ mapInsert m k v, p = (k, v) ∨ p ∈ m := by
  induction m with
  | nil => simp [mapInsert]
  | cons p m ih =>
    obtain ⟨i, w⟩ := p
    intro q hq
    simp only [mapInsert] at hq
    split at hq
    · simpa using hq
    · rcases List.mem_cons.mp hq with rfl | hq
      · exact .inr (List.mem_cons_self ..)
      · rcases ih q hq with h | h
        · exact .inl h
        · exact .inr (List.mem_cons_of_mem _ h)

theorem mapWf_insert [DecidableEq α] (d : Nat → α) (m : List (Nat × α)) (k : Nat) (v : α) (h : mapWf d m = true)
    (hv : v ≠ d k) (hm : ∀ p ∈ m, p.1 ≠ k) : mapWf d (mapInsert m k v) = true := by
  induction m with
  | nil => simp [mapInsert, mapWf, hv]
  | cons p m ih =>
    obtain ⟨i, w⟩ := p
    have hw := (mapWf_cons d (i, w) m).mp h
    have hi : i ≠ k := hm (i, w) (List.mem_cons_self ..)
    simp only [mapInsert]
    split
    · next hlt =>
      rw [mapWf_cons]
      refine ⟨hv, ?_, h⟩
      intro q hq
      rcases List.mem_cons.mp hq with rfl | hq
      · exact hlt
      · exact lt_trans hlt (hw.2.1 q hq)
    · next hge =>
      rw [mapWf_cons]
      refine ⟨hw.1, ?_, ih hw.2.2 (fun q hq => hm q (List.mem_cons_of_mem _ hq))⟩
      intro q hq
      rcases mem_insert m k v q hq with rfl | hq
      · show i < k; omega
      · exact hw.2.1 q hq

/-- A write keeps the canonical form. -/
theorem mapWf_set [DecidableEq α] (d : Nat → α) (m : List (Nat × α)) (k : Nat) (v : α) (h : mapWf d m = true) :
    mapWf d (mapSet d m k v) = true := by
  unfold mapSet
  split
  · exact mapWf_erase d m k h
  · next hv => exact mapWf_insert d _ k v (mapWf_erase d m k h) hv (not_mem_erase m k)

/-- Dropping keys keeps the canonical form. -/
theorem mapWf_drop [DecidableEq α] (d : Nat → α) (p : Nat → Bool) (m : List (Nat × α)) (h : mapWf d m = true) :
    mapWf d (mapDrop p m) = true := by
  induction m with
  | nil => simp [mapDrop, mapWf]
  | cons q m ih =>
    have hw := (mapWf_cons d q m).mp h
    have hm : mapDrop p (q :: m) = if p q.1 then mapDrop p m else q :: mapDrop p m := by
      unfold mapDrop
      rw [List.filter_cons]
      cases p q.1 <;> simp
    rw [hm]
    split
    · exact ih hw.2.2
    · rw [mapWf_cons]
      refine ⟨hw.1, fun r hr => hw.2.1 r ?_, ih hw.2.2⟩
      unfold mapDrop at hr
      exact (List.mem_filter.mp hr).1

end Sys2Proof.Laws
end

