-- ==== Sys2Proof/Laws/State.lean ====
section
/-! SUPPORT. One lemma per field of the state per update: what an update leaves as it was. -/

namespace Sys2Proof.Laws

open Sys2Proof.Machine

variable (s : State)

/-! setReg -/

@[simp] theorem setReg_now (a : Nat) (v : Word) : (s.setReg a v).now = s.now := rfl
@[simp] theorem setReg_tb (a : Nat) (v : Word) : (s.setReg a v).tb = s.tb := rfl
@[simp] theorem setReg_mem (a : Nat) (v : Word) : (s.setReg a v).mem = s.mem := rfl
@[simp] theorem setReg_cat (a : Nat) (v : Word) : (s.setReg a v).cat = s.cat := rfl
@[simp] theorem setReg_ecc (a : Nat) (v : Word) : (s.setReg a v).ecc = s.ecc := rfl
@[simp] theorem setReg_power (a : Nat) (v : Word) : (s.setReg a v).power = s.power := rfl
@[simp] theorem setReg_holdAt (a : Nat) (v : Word) : (s.setReg a v).holdAt = s.holdAt := rfl
@[simp] theorem setReg_request (a : Nat) (v : Word) : (s.setReg a v).request = s.request := rfl
@[simp] theorem setReg_bases (a : Nat) (v : Word) : (s.setReg a v).bases = s.bases := rfl
@[simp] theorem setReg_alm (a : Nat) (v : Word) : (s.setReg a v).alm = s.alm := rfl
@[simp] theorem setReg_pins (a : Nat) (v : Word) : (s.setReg a v).pins = s.pins := rfl
@[simp] theorem setReg_wcs (a : Nat) (v : Word) : (s.setReg a v).wcs = s.wcs := rfl
@[simp] theorem setReg_caps (a : Nat) (v : Word) : (s.setReg a v).caps = s.caps := rfl
@[simp] theorem setReg_time (a : Nat) (v : Word) : (s.setReg a v).time = s.time := rfl
@[simp] theorem setReg_engines (a : Nat) (v : Word) : (s.setReg a v).engines = s.engines := rfl
@[simp] theorem setReg_mtx (a : Nat) (v : Word) : (s.setReg a v).mtx = s.mtx := rfl
@[simp] theorem setReg_logq (a : Nat) (v : Word) : (s.setReg a v).logq = s.logq := rfl
@[simp] theorem setReg_logn (a : Nat) (v : Word) : (s.setReg a v).logn = s.logn := rfl
@[simp] theorem setReg_logAt (a : Nat) (v : Word) : (s.setReg a v).logAt = s.logAt := rfl
@[simp] theorem setReg_cur (a : Nat) (v : Word) : (s.setReg a v).cur = s.cur := rfl
@[simp] theorem setReg_hl (a : Nat) (v : Word) : (s.setReg a v).hl = s.hl := rfl
@[simp] theorem setReg_pcie (a : Nat) (v : Word) : (s.setReg a v).pcie = s.pcie := rfl
@[simp] theorem setReg_eth (a : Nat) (v : Word) : (s.setReg a v).eth = s.eth := rfl
@[simp] theorem setReg_lbp (a : Nat) (v : Word) : (s.setReg a v).lbp = s.lbp := rfl
@[simp] theorem setReg_uart (a : Nat) (v : Word) : (s.setReg a v).uart = s.uart := rfl
@[simp] theorem setReg_spi (a : Nat) (v : Word) : (s.setReg a v).spi = s.spi := rfl
@[simp] theorem setReg_i2c (a : Nat) (v : Word) : (s.setReg a v).i2c = s.i2c := rfl
@[simp] theorem setReg_brk (a : Nat) (v : Word) : (s.setReg a v).brk = s.brk := rfl
@[simp] theorem setReg_dma (a : Nat) (v : Word) : (s.setReg a v).dma = s.dma := rfl
@[simp] theorem setReg_boot (a : Nat) (v : Word) : (s.setReg a v).boot = s.boot := rfl
@[simp] theorem setReg_supply (a : Nat) (v : Word) : (s.setReg a v).supply = s.supply := rfl
@[simp] theorem setReg_tap (a : Nat) (v : Word) : (s.setReg a v).tap = s.tap := rfl
@[simp] theorem setReg_volts (a : Nat) (v : Word) : (s.setReg a v).volts = s.volts := rfl
@[simp] theorem setReg_swiAt (a : Nat) (v : Word) : (s.setReg a v).swiAt = s.swiAt := rfl
@[simp] theorem setReg_flash (a : Nat) (v : Word) : (s.setReg a v).flash = s.flash := rfl
@[simp] theorem setReg_qspi (a : Nat) (v : Word) : (s.setReg a v).qspi = s.qspi := rfl
@[simp] theorem setReg_engmask (a : Nat) (v : Word) : (s.setReg a v).engmask = s.engmask := rfl
@[simp] theorem setReg_map (a : Nat) (v : Word) : (s.setReg a v).map = s.map := rfl
@[simp] theorem setReg_image (a : Nat) (v : Word) : (s.setReg a v).image = s.image := rfl
@[simp] theorem setReg_released (a : Nat) (v : Word) : (s.setReg a v).released = s.released := rfl
@[simp] theorem setReg_rdata (a : Nat) (v : Word) : (s.setReg a v).rdata = s.rdata := rfl
@[simp] theorem setReg_free (a : Nat) (v : Word) : (s.setReg a v).free = s.free := rfl
@[simp] theorem setReg_pending (a : Nat) (v : Word) : (s.setReg a v).pending = s.pending := rfl

/-! resetRegs -/

@[simp] theorem resetRegs_now (p : Nat → Bool) : (s.resetRegs p).now = s.now := rfl
@[simp] theorem resetRegs_tb (p : Nat → Bool) : (s.resetRegs p).tb = s.tb := rfl
@[simp] theorem resetRegs_mem (p : Nat → Bool) : (s.resetRegs p).mem = s.mem := rfl
@[simp] theorem resetRegs_cat (p : Nat → Bool) : (s.resetRegs p).cat = s.cat := rfl
@[simp] theorem resetRegs_ecc (p : Nat → Bool) : (s.resetRegs p).ecc = s.ecc := rfl
@[simp] theorem resetRegs_power (p : Nat → Bool) : (s.resetRegs p).power = s.power := rfl
@[simp] theorem resetRegs_holdAt (p : Nat → Bool) : (s.resetRegs p).holdAt = s.holdAt := rfl
@[simp] theorem resetRegs_request (p : Nat → Bool) : (s.resetRegs p).request = s.request := rfl
@[simp] theorem resetRegs_bases (p : Nat → Bool) : (s.resetRegs p).bases = s.bases := rfl
@[simp] theorem resetRegs_alm (p : Nat → Bool) : (s.resetRegs p).alm = s.alm := rfl
@[simp] theorem resetRegs_pins (p : Nat → Bool) : (s.resetRegs p).pins = s.pins := rfl
@[simp] theorem resetRegs_wcs (p : Nat → Bool) : (s.resetRegs p).wcs = s.wcs := rfl
@[simp] theorem resetRegs_caps (p : Nat → Bool) : (s.resetRegs p).caps = s.caps := rfl
@[simp] theorem resetRegs_time (p : Nat → Bool) : (s.resetRegs p).time = s.time := rfl
@[simp] theorem resetRegs_engines (p : Nat → Bool) : (s.resetRegs p).engines = s.engines := rfl
@[simp] theorem resetRegs_mtx (p : Nat → Bool) : (s.resetRegs p).mtx = s.mtx := rfl
@[simp] theorem resetRegs_logq (p : Nat → Bool) : (s.resetRegs p).logq = s.logq := rfl
@[simp] theorem resetRegs_logn (p : Nat → Bool) : (s.resetRegs p).logn = s.logn := rfl
@[simp] theorem resetRegs_logAt (p : Nat → Bool) : (s.resetRegs p).logAt = s.logAt := rfl
@[simp] theorem resetRegs_cur (p : Nat → Bool) : (s.resetRegs p).cur = s.cur := rfl
@[simp] theorem resetRegs_hl (p : Nat → Bool) : (s.resetRegs p).hl = s.hl := rfl
@[simp] theorem resetRegs_pcie (p : Nat → Bool) : (s.resetRegs p).pcie = s.pcie := rfl
@[simp] theorem resetRegs_eth (p : Nat → Bool) : (s.resetRegs p).eth = s.eth := rfl
@[simp] theorem resetRegs_lbp (p : Nat → Bool) : (s.resetRegs p).lbp = s.lbp := rfl
@[simp] theorem resetRegs_uart (p : Nat → Bool) : (s.resetRegs p).uart = s.uart := rfl
@[simp] theorem resetRegs_spi (p : Nat → Bool) : (s.resetRegs p).spi = s.spi := rfl
@[simp] theorem resetRegs_i2c (p : Nat → Bool) : (s.resetRegs p).i2c = s.i2c := rfl
@[simp] theorem resetRegs_brk (p : Nat → Bool) : (s.resetRegs p).brk = s.brk := rfl
@[simp] theorem resetRegs_dma (p : Nat → Bool) : (s.resetRegs p).dma = s.dma := rfl
@[simp] theorem resetRegs_boot (p : Nat → Bool) : (s.resetRegs p).boot = s.boot := rfl
@[simp] theorem resetRegs_supply (p : Nat → Bool) : (s.resetRegs p).supply = s.supply := rfl
@[simp] theorem resetRegs_tap (p : Nat → Bool) : (s.resetRegs p).tap = s.tap := rfl
@[simp] theorem resetRegs_volts (p : Nat → Bool) : (s.resetRegs p).volts = s.volts := rfl
@[simp] theorem resetRegs_swiAt (p : Nat → Bool) : (s.resetRegs p).swiAt = s.swiAt := rfl
@[simp] theorem resetRegs_flash (p : Nat → Bool) : (s.resetRegs p).flash = s.flash := rfl
@[simp] theorem resetRegs_qspi (p : Nat → Bool) : (s.resetRegs p).qspi = s.qspi := rfl
@[simp] theorem resetRegs_engmask (p : Nat → Bool) : (s.resetRegs p).engmask = s.engmask := rfl
@[simp] theorem resetRegs_map (p : Nat → Bool) : (s.resetRegs p).map = s.map := rfl
@[simp] theorem resetRegs_image (p : Nat → Bool) : (s.resetRegs p).image = s.image := rfl
@[simp] theorem resetRegs_released (p : Nat → Bool) : (s.resetRegs p).released = s.released := rfl
@[simp] theorem resetRegs_rdata (p : Nat → Bool) : (s.resetRegs p).rdata = s.rdata := rfl
@[simp] theorem resetRegs_free (p : Nat → Bool) : (s.resetRegs p).free = s.free := rfl
@[simp] theorem resetRegs_pending (p : Nat → Bool) : (s.resetRegs p).pending = s.pending := rfl

/-! setMemByte -/

@[simp] theorem setMemByte_now (a : Nat) (b : Byte) : (s.setMemByte a b).now = s.now := rfl
@[simp] theorem setMemByte_tb (a : Nat) (b : Byte) : (s.setMemByte a b).tb = s.tb := rfl
@[simp] theorem setMemByte_cat (a : Nat) (b : Byte) : (s.setMemByte a b).cat = s.cat := rfl
@[simp] theorem setMemByte_csr (a : Nat) (b : Byte) : (s.setMemByte a b).csr = s.csr := rfl
@[simp] theorem setMemByte_ecc (a : Nat) (b : Byte) : (s.setMemByte a b).ecc = s.ecc := rfl
@[simp] theorem setMemByte_power (a : Nat) (b : Byte) : (s.setMemByte a b).power = s.power := rfl
@[simp] theorem setMemByte_holdAt (a : Nat) (b : Byte) : (s.setMemByte a b).holdAt = s.holdAt := rfl
@[simp] theorem setMemByte_request (a : Nat) (b : Byte) : (s.setMemByte a b).request = s.request := rfl
@[simp] theorem setMemByte_bases (a : Nat) (b : Byte) : (s.setMemByte a b).bases = s.bases := rfl
@[simp] theorem setMemByte_alm (a : Nat) (b : Byte) : (s.setMemByte a b).alm = s.alm := rfl
@[simp] theorem setMemByte_pins (a : Nat) (b : Byte) : (s.setMemByte a b).pins = s.pins := rfl
@[simp] theorem setMemByte_wcs (a : Nat) (b : Byte) : (s.setMemByte a b).wcs = s.wcs := rfl
@[simp] theorem setMemByte_caps (a : Nat) (b : Byte) : (s.setMemByte a b).caps = s.caps := rfl
@[simp] theorem setMemByte_time (a : Nat) (b : Byte) : (s.setMemByte a b).time = s.time := rfl
@[simp] theorem setMemByte_engines (a : Nat) (b : Byte) : (s.setMemByte a b).engines = s.engines := rfl
@[simp] theorem setMemByte_mtx (a : Nat) (b : Byte) : (s.setMemByte a b).mtx = s.mtx := rfl
@[simp] theorem setMemByte_logq (a : Nat) (b : Byte) : (s.setMemByte a b).logq = s.logq := rfl
@[simp] theorem setMemByte_logn (a : Nat) (b : Byte) : (s.setMemByte a b).logn = s.logn := rfl
@[simp] theorem setMemByte_logAt (a : Nat) (b : Byte) : (s.setMemByte a b).logAt = s.logAt := rfl
@[simp] theorem setMemByte_cur (a : Nat) (b : Byte) : (s.setMemByte a b).cur = s.cur := rfl
@[simp] theorem setMemByte_hl (a : Nat) (b : Byte) : (s.setMemByte a b).hl = s.hl := rfl
@[simp] theorem setMemByte_pcie (a : Nat) (b : Byte) : (s.setMemByte a b).pcie = s.pcie := rfl
@[simp] theorem setMemByte_eth (a : Nat) (b : Byte) : (s.setMemByte a b).eth = s.eth := rfl
@[simp] theorem setMemByte_lbp (a : Nat) (b : Byte) : (s.setMemByte a b).lbp = s.lbp := rfl
@[simp] theorem setMemByte_uart (a : Nat) (b : Byte) : (s.setMemByte a b).uart = s.uart := rfl
@[simp] theorem setMemByte_spi (a : Nat) (b : Byte) : (s.setMemByte a b).spi = s.spi := rfl
@[simp] theorem setMemByte_i2c (a : Nat) (b : Byte) : (s.setMemByte a b).i2c = s.i2c := rfl
@[simp] theorem setMemByte_brk (a : Nat) (b : Byte) : (s.setMemByte a b).brk = s.brk := rfl
@[simp] theorem setMemByte_dma (a : Nat) (b : Byte) : (s.setMemByte a b).dma = s.dma := rfl
@[simp] theorem setMemByte_boot (a : Nat) (b : Byte) : (s.setMemByte a b).boot = s.boot := rfl
@[simp] theorem setMemByte_supply (a : Nat) (b : Byte) : (s.setMemByte a b).supply = s.supply := rfl
@[simp] theorem setMemByte_tap (a : Nat) (b : Byte) : (s.setMemByte a b).tap = s.tap := rfl
@[simp] theorem setMemByte_volts (a : Nat) (b : Byte) : (s.setMemByte a b).volts = s.volts := rfl
@[simp] theorem setMemByte_swiAt (a : Nat) (b : Byte) : (s.setMemByte a b).swiAt = s.swiAt := rfl
@[simp] theorem setMemByte_flash (a : Nat) (b : Byte) : (s.setMemByte a b).flash = s.flash := rfl
@[simp] theorem setMemByte_qspi (a : Nat) (b : Byte) : (s.setMemByte a b).qspi = s.qspi := rfl
@[simp] theorem setMemByte_engmask (a : Nat) (b : Byte) : (s.setMemByte a b).engmask = s.engmask := rfl
@[simp] theorem setMemByte_map (a : Nat) (b : Byte) : (s.setMemByte a b).map = s.map := rfl
@[simp] theorem setMemByte_image (a : Nat) (b : Byte) : (s.setMemByte a b).image = s.image := rfl
@[simp] theorem setMemByte_released (a : Nat) (b : Byte) : (s.setMemByte a b).released = s.released := rfl
@[simp] theorem setMemByte_rdata (a : Nat) (b : Byte) : (s.setMemByte a b).rdata = s.rdata := rfl
@[simp] theorem setMemByte_free (a : Nat) (b : Byte) : (s.setMemByte a b).free = s.free := rfl
@[simp] theorem setMemByte_pending (a : Nat) (b : Byte) : (s.setMemByte a b).pending = s.pending := rfl

/-! clearMem -/

@[simp] theorem clearMem_now (p : Nat → Bool) : (s.clearMem p).now = s.now := rfl
@[simp] theorem clearMem_tb (p : Nat → Bool) : (s.clearMem p).tb = s.tb := rfl
@[simp] theorem clearMem_cat (p : Nat → Bool) : (s.clearMem p).cat = s.cat := rfl
@[simp] theorem clearMem_csr (p : Nat → Bool) : (s.clearMem p).csr = s.csr := rfl
@[simp] theorem clearMem_ecc (p : Nat → Bool) : (s.clearMem p).ecc = s.ecc := rfl
@[simp] theorem clearMem_power (p : Nat → Bool) : (s.clearMem p).power = s.power := rfl
@[simp] theorem clearMem_holdAt (p : Nat → Bool) : (s.clearMem p).holdAt = s.holdAt := rfl
@[simp] theorem clearMem_request (p : Nat → Bool) : (s.clearMem p).request = s.request := rfl
@[simp] theorem clearMem_bases (p : Nat → Bool) : (s.clearMem p).bases = s.bases := rfl
@[simp] theorem clearMem_alm (p : Nat → Bool) : (s.clearMem p).alm = s.alm := rfl
@[simp] theorem clearMem_pins (p : Nat → Bool) : (s.clearMem p).pins = s.pins := rfl
@[simp] theorem clearMem_wcs (p : Nat → Bool) : (s.clearMem p).wcs = s.wcs := rfl
@[simp] theorem clearMem_caps (p : Nat → Bool) : (s.clearMem p).caps = s.caps := rfl
@[simp] theorem clearMem_time (p : Nat → Bool) : (s.clearMem p).time = s.time := rfl
@[simp] theorem clearMem_engines (p : Nat → Bool) : (s.clearMem p).engines = s.engines := rfl
@[simp] theorem clearMem_mtx (p : Nat → Bool) : (s.clearMem p).mtx = s.mtx := rfl
@[simp] theorem clearMem_logq (p : Nat → Bool) : (s.clearMem p).logq = s.logq := rfl
@[simp] theorem clearMem_logn (p : Nat → Bool) : (s.clearMem p).logn = s.logn := rfl
@[simp] theorem clearMem_logAt (p : Nat → Bool) : (s.clearMem p).logAt = s.logAt := rfl
@[simp] theorem clearMem_cur (p : Nat → Bool) : (s.clearMem p).cur = s.cur := rfl
@[simp] theorem clearMem_hl (p : Nat → Bool) : (s.clearMem p).hl = s.hl := rfl
@[simp] theorem clearMem_pcie (p : Nat → Bool) : (s.clearMem p).pcie = s.pcie := rfl
@[simp] theorem clearMem_eth (p : Nat → Bool) : (s.clearMem p).eth = s.eth := rfl
@[simp] theorem clearMem_lbp (p : Nat → Bool) : (s.clearMem p).lbp = s.lbp := rfl
@[simp] theorem clearMem_uart (p : Nat → Bool) : (s.clearMem p).uart = s.uart := rfl
@[simp] theorem clearMem_spi (p : Nat → Bool) : (s.clearMem p).spi = s.spi := rfl
@[simp] theorem clearMem_i2c (p : Nat → Bool) : (s.clearMem p).i2c = s.i2c := rfl
@[simp] theorem clearMem_brk (p : Nat → Bool) : (s.clearMem p).brk = s.brk := rfl
@[simp] theorem clearMem_dma (p : Nat → Bool) : (s.clearMem p).dma = s.dma := rfl
@[simp] theorem clearMem_boot (p : Nat → Bool) : (s.clearMem p).boot = s.boot := rfl
@[simp] theorem clearMem_supply (p : Nat → Bool) : (s.clearMem p).supply = s.supply := rfl
@[simp] theorem clearMem_tap (p : Nat → Bool) : (s.clearMem p).tap = s.tap := rfl
@[simp] theorem clearMem_volts (p : Nat → Bool) : (s.clearMem p).volts = s.volts := rfl
@[simp] theorem clearMem_swiAt (p : Nat → Bool) : (s.clearMem p).swiAt = s.swiAt := rfl
@[simp] theorem clearMem_flash (p : Nat → Bool) : (s.clearMem p).flash = s.flash := rfl
@[simp] theorem clearMem_qspi (p : Nat → Bool) : (s.clearMem p).qspi = s.qspi := rfl
@[simp] theorem clearMem_engmask (p : Nat → Bool) : (s.clearMem p).engmask = s.engmask := rfl
@[simp] theorem clearMem_map (p : Nat → Bool) : (s.clearMem p).map = s.map := rfl
@[simp] theorem clearMem_image (p : Nat → Bool) : (s.clearMem p).image = s.image := rfl
@[simp] theorem clearMem_released (p : Nat → Bool) : (s.clearMem p).released = s.released := rfl
@[simp] theorem clearMem_rdata (p : Nat → Bool) : (s.clearMem p).rdata = s.rdata := rfl
@[simp] theorem clearMem_free (p : Nat → Bool) : (s.clearMem p).free = s.free := rfl
@[simp] theorem clearMem_pending (p : Nat → Bool) : (s.clearMem p).pending = s.pending := rfl

/-! setEng -/

@[simp] theorem setEng_now (e : EngId) (x : Engine) : (s.setEng e x).now = s.now := rfl
@[simp] theorem setEng_tb (e : EngId) (x : Engine) : (s.setEng e x).tb = s.tb := rfl
@[simp] theorem setEng_mem (e : EngId) (x : Engine) : (s.setEng e x).mem = s.mem := rfl
@[simp] theorem setEng_cat (e : EngId) (x : Engine) : (s.setEng e x).cat = s.cat := rfl
@[simp] theorem setEng_csr (e : EngId) (x : Engine) : (s.setEng e x).csr = s.csr := rfl
@[simp] theorem setEng_ecc (e : EngId) (x : Engine) : (s.setEng e x).ecc = s.ecc := rfl
@[simp] theorem setEng_power (e : EngId) (x : Engine) : (s.setEng e x).power = s.power := rfl
@[simp] theorem setEng_holdAt (e : EngId) (x : Engine) : (s.setEng e x).holdAt = s.holdAt := rfl
@[simp] theorem setEng_request (e : EngId) (x : Engine) : (s.setEng e x).request = s.request := rfl
@[simp] theorem setEng_bases (e : EngId) (x : Engine) : (s.setEng e x).bases = s.bases := rfl
@[simp] theorem setEng_alm (e : EngId) (x : Engine) : (s.setEng e x).alm = s.alm := rfl
@[simp] theorem setEng_pins (e : EngId) (x : Engine) : (s.setEng e x).pins = s.pins := rfl
@[simp] theorem setEng_wcs (e : EngId) (x : Engine) : (s.setEng e x).wcs = s.wcs := rfl
@[simp] theorem setEng_caps (e : EngId) (x : Engine) : (s.setEng e x).caps = s.caps := rfl
@[simp] theorem setEng_time (e : EngId) (x : Engine) : (s.setEng e x).time = s.time := rfl
@[simp] theorem setEng_mtx (e : EngId) (x : Engine) : (s.setEng e x).mtx = s.mtx := rfl
@[simp] theorem setEng_logq (e : EngId) (x : Engine) : (s.setEng e x).logq = s.logq := rfl
@[simp] theorem setEng_logn (e : EngId) (x : Engine) : (s.setEng e x).logn = s.logn := rfl
@[simp] theorem setEng_logAt (e : EngId) (x : Engine) : (s.setEng e x).logAt = s.logAt := rfl
@[simp] theorem setEng_cur (e : EngId) (x : Engine) : (s.setEng e x).cur = s.cur := rfl
@[simp] theorem setEng_hl (e : EngId) (x : Engine) : (s.setEng e x).hl = s.hl := rfl
@[simp] theorem setEng_pcie (e : EngId) (x : Engine) : (s.setEng e x).pcie = s.pcie := rfl
@[simp] theorem setEng_eth (e : EngId) (x : Engine) : (s.setEng e x).eth = s.eth := rfl
@[simp] theorem setEng_lbp (e : EngId) (x : Engine) : (s.setEng e x).lbp = s.lbp := rfl
@[simp] theorem setEng_uart (e : EngId) (x : Engine) : (s.setEng e x).uart = s.uart := rfl
@[simp] theorem setEng_spi (e : EngId) (x : Engine) : (s.setEng e x).spi = s.spi := rfl
@[simp] theorem setEng_i2c (e : EngId) (x : Engine) : (s.setEng e x).i2c = s.i2c := rfl
@[simp] theorem setEng_brk (e : EngId) (x : Engine) : (s.setEng e x).brk = s.brk := rfl
@[simp] theorem setEng_dma (e : EngId) (x : Engine) : (s.setEng e x).dma = s.dma := rfl
@[simp] theorem setEng_boot (e : EngId) (x : Engine) : (s.setEng e x).boot = s.boot := rfl
@[simp] theorem setEng_supply (e : EngId) (x : Engine) : (s.setEng e x).supply = s.supply := rfl
@[simp] theorem setEng_tap (e : EngId) (x : Engine) : (s.setEng e x).tap = s.tap := rfl
@[simp] theorem setEng_volts (e : EngId) (x : Engine) : (s.setEng e x).volts = s.volts := rfl
@[simp] theorem setEng_swiAt (e : EngId) (x : Engine) : (s.setEng e x).swiAt = s.swiAt := rfl
@[simp] theorem setEng_flash (e : EngId) (x : Engine) : (s.setEng e x).flash = s.flash := rfl
@[simp] theorem setEng_qspi (e : EngId) (x : Engine) : (s.setEng e x).qspi = s.qspi := rfl
@[simp] theorem setEng_engmask (e : EngId) (x : Engine) : (s.setEng e x).engmask = s.engmask := rfl
@[simp] theorem setEng_map (e : EngId) (x : Engine) : (s.setEng e x).map = s.map := rfl
@[simp] theorem setEng_image (e : EngId) (x : Engine) : (s.setEng e x).image = s.image := rfl
@[simp] theorem setEng_released (e : EngId) (x : Engine) : (s.setEng e x).released = s.released := rfl
@[simp] theorem setEng_rdata (e : EngId) (x : Engine) : (s.setEng e x).rdata = s.rdata := rfl
@[simp] theorem setEng_free (e : EngId) (x : Engine) : (s.setEng e x).free = s.free := rfl
@[simp] theorem setEng_pending (e : EngId) (x : Engine) : (s.setEng e x).pending = s.pending := rfl

/-! setBase -/

@[simp] theorem setBase_now (b : BaseId) (x : Base) : (s.setBase b x).now = s.now := rfl
@[simp] theorem setBase_tb (b : BaseId) (x : Base) : (s.setBase b x).tb = s.tb := rfl
@[simp] theorem setBase_mem (b : BaseId) (x : Base) : (s.setBase b x).mem = s.mem := rfl
@[simp] theorem setBase_cat (b : BaseId) (x : Base) : (s.setBase b x).cat = s.cat := rfl
@[simp] theorem setBase_csr (b : BaseId) (x : Base) : (s.setBase b x).csr = s.csr := rfl
@[simp] theorem setBase_ecc (b : BaseId) (x : Base) : (s.setBase b x).ecc = s.ecc := rfl
@[simp] theorem setBase_power (b : BaseId) (x : Base) : (s.setBase b x).power = s.power := rfl
@[simp] theorem setBase_holdAt (b : BaseId) (x : Base) : (s.setBase b x).holdAt = s.holdAt := rfl
@[simp] theorem setBase_request (b : BaseId) (x : Base) : (s.setBase b x).request = s.request := rfl
@[simp] theorem setBase_alm (b : BaseId) (x : Base) : (s.setBase b x).alm = s.alm := rfl
@[simp] theorem setBase_pins (b : BaseId) (x : Base) : (s.setBase b x).pins = s.pins := rfl
@[simp] theorem setBase_wcs (b : BaseId) (x : Base) : (s.setBase b x).wcs = s.wcs := rfl
@[simp] theorem setBase_caps (b : BaseId) (x : Base) : (s.setBase b x).caps = s.caps := rfl
@[simp] theorem setBase_time (b : BaseId) (x : Base) : (s.setBase b x).time = s.time := rfl
@[simp] theorem setBase_engines (b : BaseId) (x : Base) : (s.setBase b x).engines = s.engines := rfl
@[simp] theorem setBase_mtx (b : BaseId) (x : Base) : (s.setBase b x).mtx = s.mtx := rfl
@[simp] theorem setBase_logq (b : BaseId) (x : Base) : (s.setBase b x).logq = s.logq := rfl
@[simp] theorem setBase_logn (b : BaseId) (x : Base) : (s.setBase b x).logn = s.logn := rfl
@[simp] theorem setBase_logAt (b : BaseId) (x : Base) : (s.setBase b x).logAt = s.logAt := rfl
@[simp] theorem setBase_cur (b : BaseId) (x : Base) : (s.setBase b x).cur = s.cur := rfl
@[simp] theorem setBase_hl (b : BaseId) (x : Base) : (s.setBase b x).hl = s.hl := rfl
@[simp] theorem setBase_pcie (b : BaseId) (x : Base) : (s.setBase b x).pcie = s.pcie := rfl
@[simp] theorem setBase_eth (b : BaseId) (x : Base) : (s.setBase b x).eth = s.eth := rfl
@[simp] theorem setBase_lbp (b : BaseId) (x : Base) : (s.setBase b x).lbp = s.lbp := rfl
@[simp] theorem setBase_uart (b : BaseId) (x : Base) : (s.setBase b x).uart = s.uart := rfl
@[simp] theorem setBase_spi (b : BaseId) (x : Base) : (s.setBase b x).spi = s.spi := rfl
@[simp] theorem setBase_i2c (b : BaseId) (x : Base) : (s.setBase b x).i2c = s.i2c := rfl
@[simp] theorem setBase_brk (b : BaseId) (x : Base) : (s.setBase b x).brk = s.brk := rfl
@[simp] theorem setBase_dma (b : BaseId) (x : Base) : (s.setBase b x).dma = s.dma := rfl
@[simp] theorem setBase_boot (b : BaseId) (x : Base) : (s.setBase b x).boot = s.boot := rfl
@[simp] theorem setBase_supply (b : BaseId) (x : Base) : (s.setBase b x).supply = s.supply := rfl
@[simp] theorem setBase_tap (b : BaseId) (x : Base) : (s.setBase b x).tap = s.tap := rfl
@[simp] theorem setBase_volts (b : BaseId) (x : Base) : (s.setBase b x).volts = s.volts := rfl
@[simp] theorem setBase_swiAt (b : BaseId) (x : Base) : (s.setBase b x).swiAt = s.swiAt := rfl
@[simp] theorem setBase_flash (b : BaseId) (x : Base) : (s.setBase b x).flash = s.flash := rfl
@[simp] theorem setBase_qspi (b : BaseId) (x : Base) : (s.setBase b x).qspi = s.qspi := rfl
@[simp] theorem setBase_engmask (b : BaseId) (x : Base) : (s.setBase b x).engmask = s.engmask := rfl
@[simp] theorem setBase_map (b : BaseId) (x : Base) : (s.setBase b x).map = s.map := rfl
@[simp] theorem setBase_image (b : BaseId) (x : Base) : (s.setBase b x).image = s.image := rfl
@[simp] theorem setBase_released (b : BaseId) (x : Base) : (s.setBase b x).released = s.released := rfl
@[simp] theorem setBase_rdata (b : BaseId) (x : Base) : (s.setBase b x).rdata = s.rdata := rfl
@[simp] theorem setBase_free (b : BaseId) (x : Base) : (s.setBase b x).free = s.free := rfl
@[simp] theorem setBase_pending (b : BaseId) (x : Base) : (s.setBase b x).pending = s.pending := rfl

/-! setPin -/

@[simp] theorem setPin_now (p : PinId) (x : Pin) : (s.setPin p x).now = s.now := rfl
@[simp] theorem setPin_tb (p : PinId) (x : Pin) : (s.setPin p x).tb = s.tb := rfl
@[simp] theorem setPin_mem (p : PinId) (x : Pin) : (s.setPin p x).mem = s.mem := rfl
@[simp] theorem setPin_cat (p : PinId) (x : Pin) : (s.setPin p x).cat = s.cat := rfl
@[simp] theorem setPin_csr (p : PinId) (x : Pin) : (s.setPin p x).csr = s.csr := rfl
@[simp] theorem setPin_ecc (p : PinId) (x : Pin) : (s.setPin p x).ecc = s.ecc := rfl
@[simp] theorem setPin_power (p : PinId) (x : Pin) : (s.setPin p x).power = s.power := rfl
@[simp] theorem setPin_holdAt (p : PinId) (x : Pin) : (s.setPin p x).holdAt = s.holdAt := rfl
@[simp] theorem setPin_request (p : PinId) (x : Pin) : (s.setPin p x).request = s.request := rfl
@[simp] theorem setPin_bases (p : PinId) (x : Pin) : (s.setPin p x).bases = s.bases := rfl
@[simp] theorem setPin_alm (p : PinId) (x : Pin) : (s.setPin p x).alm = s.alm := rfl
@[simp] theorem setPin_wcs (p : PinId) (x : Pin) : (s.setPin p x).wcs = s.wcs := rfl
@[simp] theorem setPin_caps (p : PinId) (x : Pin) : (s.setPin p x).caps = s.caps := rfl
@[simp] theorem setPin_time (p : PinId) (x : Pin) : (s.setPin p x).time = s.time := rfl
@[simp] theorem setPin_engines (p : PinId) (x : Pin) : (s.setPin p x).engines = s.engines := rfl
@[simp] theorem setPin_mtx (p : PinId) (x : Pin) : (s.setPin p x).mtx = s.mtx := rfl
@[simp] theorem setPin_logq (p : PinId) (x : Pin) : (s.setPin p x).logq = s.logq := rfl
@[simp] theorem setPin_logn (p : PinId) (x : Pin) : (s.setPin p x).logn = s.logn := rfl
@[simp] theorem setPin_logAt (p : PinId) (x : Pin) : (s.setPin p x).logAt = s.logAt := rfl
@[simp] theorem setPin_cur (p : PinId) (x : Pin) : (s.setPin p x).cur = s.cur := rfl
@[simp] theorem setPin_hl (p : PinId) (x : Pin) : (s.setPin p x).hl = s.hl := rfl
@[simp] theorem setPin_pcie (p : PinId) (x : Pin) : (s.setPin p x).pcie = s.pcie := rfl
@[simp] theorem setPin_eth (p : PinId) (x : Pin) : (s.setPin p x).eth = s.eth := rfl
@[simp] theorem setPin_lbp (p : PinId) (x : Pin) : (s.setPin p x).lbp = s.lbp := rfl
@[simp] theorem setPin_uart (p : PinId) (x : Pin) : (s.setPin p x).uart = s.uart := rfl
@[simp] theorem setPin_spi (p : PinId) (x : Pin) : (s.setPin p x).spi = s.spi := rfl
@[simp] theorem setPin_i2c (p : PinId) (x : Pin) : (s.setPin p x).i2c = s.i2c := rfl
@[simp] theorem setPin_brk (p : PinId) (x : Pin) : (s.setPin p x).brk = s.brk := rfl
@[simp] theorem setPin_dma (p : PinId) (x : Pin) : (s.setPin p x).dma = s.dma := rfl
@[simp] theorem setPin_boot (p : PinId) (x : Pin) : (s.setPin p x).boot = s.boot := rfl
@[simp] theorem setPin_supply (p : PinId) (x : Pin) : (s.setPin p x).supply = s.supply := rfl
@[simp] theorem setPin_tap (p : PinId) (x : Pin) : (s.setPin p x).tap = s.tap := rfl
@[simp] theorem setPin_volts (p : PinId) (x : Pin) : (s.setPin p x).volts = s.volts := rfl
@[simp] theorem setPin_swiAt (p : PinId) (x : Pin) : (s.setPin p x).swiAt = s.swiAt := rfl
@[simp] theorem setPin_flash (p : PinId) (x : Pin) : (s.setPin p x).flash = s.flash := rfl
@[simp] theorem setPin_qspi (p : PinId) (x : Pin) : (s.setPin p x).qspi = s.qspi := rfl
@[simp] theorem setPin_engmask (p : PinId) (x : Pin) : (s.setPin p x).engmask = s.engmask := rfl
@[simp] theorem setPin_map (p : PinId) (x : Pin) : (s.setPin p x).map = s.map := rfl
@[simp] theorem setPin_image (p : PinId) (x : Pin) : (s.setPin p x).image = s.image := rfl
@[simp] theorem setPin_released (p : PinId) (x : Pin) : (s.setPin p x).released = s.released := rfl
@[simp] theorem setPin_rdata (p : PinId) (x : Pin) : (s.setPin p x).rdata = s.rdata := rfl
@[simp] theorem setPin_free (p : PinId) (x : Pin) : (s.setPin p x).free = s.free := rfl
@[simp] theorem setPin_pending (p : PinId) (x : Pin) : (s.setPin p x).pending = s.pending := rfl

/-! setWc -/

@[simp] theorem setWc_now (m : WcId) (x : Counter) : (s.setWc m x).now = s.now := rfl
@[simp] theorem setWc_tb (m : WcId) (x : Counter) : (s.setWc m x).tb = s.tb := rfl
@[simp] theorem setWc_mem (m : WcId) (x : Counter) : (s.setWc m x).mem = s.mem := rfl
@[simp] theorem setWc_cat (m : WcId) (x : Counter) : (s.setWc m x).cat = s.cat := rfl
@[simp] theorem setWc_csr (m : WcId) (x : Counter) : (s.setWc m x).csr = s.csr := rfl
@[simp] theorem setWc_ecc (m : WcId) (x : Counter) : (s.setWc m x).ecc = s.ecc := rfl
@[simp] theorem setWc_power (m : WcId) (x : Counter) : (s.setWc m x).power = s.power := rfl
@[simp] theorem setWc_holdAt (m : WcId) (x : Counter) : (s.setWc m x).holdAt = s.holdAt := rfl
@[simp] theorem setWc_request (m : WcId) (x : Counter) : (s.setWc m x).request = s.request := rfl
@[simp] theorem setWc_bases (m : WcId) (x : Counter) : (s.setWc m x).bases = s.bases := rfl
@[simp] theorem setWc_alm (m : WcId) (x : Counter) : (s.setWc m x).alm = s.alm := rfl
@[simp] theorem setWc_pins (m : WcId) (x : Counter) : (s.setWc m x).pins = s.pins := rfl
@[simp] theorem setWc_caps (m : WcId) (x : Counter) : (s.setWc m x).caps = s.caps := rfl
@[simp] theorem setWc_time (m : WcId) (x : Counter) : (s.setWc m x).time = s.time := rfl
@[simp] theorem setWc_engines (m : WcId) (x : Counter) : (s.setWc m x).engines = s.engines := rfl
@[simp] theorem setWc_mtx (m : WcId) (x : Counter) : (s.setWc m x).mtx = s.mtx := rfl
@[simp] theorem setWc_logq (m : WcId) (x : Counter) : (s.setWc m x).logq = s.logq := rfl
@[simp] theorem setWc_logn (m : WcId) (x : Counter) : (s.setWc m x).logn = s.logn := rfl
@[simp] theorem setWc_logAt (m : WcId) (x : Counter) : (s.setWc m x).logAt = s.logAt := rfl
@[simp] theorem setWc_cur (m : WcId) (x : Counter) : (s.setWc m x).cur = s.cur := rfl
@[simp] theorem setWc_hl (m : WcId) (x : Counter) : (s.setWc m x).hl = s.hl := rfl
@[simp] theorem setWc_pcie (m : WcId) (x : Counter) : (s.setWc m x).pcie = s.pcie := rfl
@[simp] theorem setWc_eth (m : WcId) (x : Counter) : (s.setWc m x).eth = s.eth := rfl
@[simp] theorem setWc_lbp (m : WcId) (x : Counter) : (s.setWc m x).lbp = s.lbp := rfl
@[simp] theorem setWc_uart (m : WcId) (x : Counter) : (s.setWc m x).uart = s.uart := rfl
@[simp] theorem setWc_spi (m : WcId) (x : Counter) : (s.setWc m x).spi = s.spi := rfl
@[simp] theorem setWc_i2c (m : WcId) (x : Counter) : (s.setWc m x).i2c = s.i2c := rfl
@[simp] theorem setWc_brk (m : WcId) (x : Counter) : (s.setWc m x).brk = s.brk := rfl
@[simp] theorem setWc_dma (m : WcId) (x : Counter) : (s.setWc m x).dma = s.dma := rfl
@[simp] theorem setWc_boot (m : WcId) (x : Counter) : (s.setWc m x).boot = s.boot := rfl
@[simp] theorem setWc_supply (m : WcId) (x : Counter) : (s.setWc m x).supply = s.supply := rfl
@[simp] theorem setWc_tap (m : WcId) (x : Counter) : (s.setWc m x).tap = s.tap := rfl
@[simp] theorem setWc_volts (m : WcId) (x : Counter) : (s.setWc m x).volts = s.volts := rfl
@[simp] theorem setWc_swiAt (m : WcId) (x : Counter) : (s.setWc m x).swiAt = s.swiAt := rfl
@[simp] theorem setWc_flash (m : WcId) (x : Counter) : (s.setWc m x).flash = s.flash := rfl
@[simp] theorem setWc_qspi (m : WcId) (x : Counter) : (s.setWc m x).qspi = s.qspi := rfl
@[simp] theorem setWc_engmask (m : WcId) (x : Counter) : (s.setWc m x).engmask = s.engmask := rfl
@[simp] theorem setWc_map (m : WcId) (x : Counter) : (s.setWc m x).map = s.map := rfl
@[simp] theorem setWc_image (m : WcId) (x : Counter) : (s.setWc m x).image = s.image := rfl
@[simp] theorem setWc_released (m : WcId) (x : Counter) : (s.setWc m x).released = s.released := rfl
@[simp] theorem setWc_rdata (m : WcId) (x : Counter) : (s.setWc m x).rdata = s.rdata := rfl
@[simp] theorem setWc_free (m : WcId) (x : Counter) : (s.setWc m x).free = s.free := rfl
@[simp] theorem setWc_pending (m : WcId) (x : Counter) : (s.setWc m x).pending = s.pending := rfl

/-! setRing -/

@[simp] theorem setRing_now (r : BaseId) (x : Ring) : (s.setRing r x).now = s.now := rfl
@[simp] theorem setRing_tb (r : BaseId) (x : Ring) : (s.setRing r x).tb = s.tb := rfl
@[simp] theorem setRing_mem (r : BaseId) (x : Ring) : (s.setRing r x).mem = s.mem := rfl
@[simp] theorem setRing_cat (r : BaseId) (x : Ring) : (s.setRing r x).cat = s.cat := rfl
@[simp] theorem setRing_csr (r : BaseId) (x : Ring) : (s.setRing r x).csr = s.csr := rfl
@[simp] theorem setRing_ecc (r : BaseId) (x : Ring) : (s.setRing r x).ecc = s.ecc := rfl
@[simp] theorem setRing_power (r : BaseId) (x : Ring) : (s.setRing r x).power = s.power := rfl
@[simp] theorem setRing_holdAt (r : BaseId) (x : Ring) : (s.setRing r x).holdAt = s.holdAt := rfl
@[simp] theorem setRing_request (r : BaseId) (x : Ring) : (s.setRing r x).request = s.request := rfl
@[simp] theorem setRing_bases (r : BaseId) (x : Ring) : (s.setRing r x).bases = s.bases := rfl
@[simp] theorem setRing_pins (r : BaseId) (x : Ring) : (s.setRing r x).pins = s.pins := rfl
@[simp] theorem setRing_wcs (r : BaseId) (x : Ring) : (s.setRing r x).wcs = s.wcs := rfl
@[simp] theorem setRing_caps (r : BaseId) (x : Ring) : (s.setRing r x).caps = s.caps := rfl
@[simp] theorem setRing_time (r : BaseId) (x : Ring) : (s.setRing r x).time = s.time := rfl
@[simp] theorem setRing_engines (r : BaseId) (x : Ring) : (s.setRing r x).engines = s.engines := rfl
@[simp] theorem setRing_mtx (r : BaseId) (x : Ring) : (s.setRing r x).mtx = s.mtx := rfl
@[simp] theorem setRing_logq (r : BaseId) (x : Ring) : (s.setRing r x).logq = s.logq := rfl
@[simp] theorem setRing_logn (r : BaseId) (x : Ring) : (s.setRing r x).logn = s.logn := rfl
@[simp] theorem setRing_logAt (r : BaseId) (x : Ring) : (s.setRing r x).logAt = s.logAt := rfl
@[simp] theorem setRing_cur (r : BaseId) (x : Ring) : (s.setRing r x).cur = s.cur := rfl
@[simp] theorem setRing_hl (r : BaseId) (x : Ring) : (s.setRing r x).hl = s.hl := rfl
@[simp] theorem setRing_pcie (r : BaseId) (x : Ring) : (s.setRing r x).pcie = s.pcie := rfl
@[simp] theorem setRing_eth (r : BaseId) (x : Ring) : (s.setRing r x).eth = s.eth := rfl
@[simp] theorem setRing_lbp (r : BaseId) (x : Ring) : (s.setRing r x).lbp = s.lbp := rfl
@[simp] theorem setRing_uart (r : BaseId) (x : Ring) : (s.setRing r x).uart = s.uart := rfl
@[simp] theorem setRing_spi (r : BaseId) (x : Ring) : (s.setRing r x).spi = s.spi := rfl
@[simp] theorem setRing_i2c (r : BaseId) (x : Ring) : (s.setRing r x).i2c = s.i2c := rfl
@[simp] theorem setRing_brk (r : BaseId) (x : Ring) : (s.setRing r x).brk = s.brk := rfl
@[simp] theorem setRing_dma (r : BaseId) (x : Ring) : (s.setRing r x).dma = s.dma := rfl
@[simp] theorem setRing_boot (r : BaseId) (x : Ring) : (s.setRing r x).boot = s.boot := rfl
@[simp] theorem setRing_supply (r : BaseId) (x : Ring) : (s.setRing r x).supply = s.supply := rfl
@[simp] theorem setRing_tap (r : BaseId) (x : Ring) : (s.setRing r x).tap = s.tap := rfl
@[simp] theorem setRing_volts (r : BaseId) (x : Ring) : (s.setRing r x).volts = s.volts := rfl
@[simp] theorem setRing_swiAt (r : BaseId) (x : Ring) : (s.setRing r x).swiAt = s.swiAt := rfl
@[simp] theorem setRing_flash (r : BaseId) (x : Ring) : (s.setRing r x).flash = s.flash := rfl
@[simp] theorem setRing_qspi (r : BaseId) (x : Ring) : (s.setRing r x).qspi = s.qspi := rfl
@[simp] theorem setRing_engmask (r : BaseId) (x : Ring) : (s.setRing r x).engmask = s.engmask := rfl
@[simp] theorem setRing_map (r : BaseId) (x : Ring) : (s.setRing r x).map = s.map := rfl
@[simp] theorem setRing_image (r : BaseId) (x : Ring) : (s.setRing r x).image = s.image := rfl
@[simp] theorem setRing_released (r : BaseId) (x : Ring) : (s.setRing r x).released = s.released := rfl
@[simp] theorem setRing_rdata (r : BaseId) (x : Ring) : (s.setRing r x).rdata = s.rdata := rfl
@[simp] theorem setRing_free (r : BaseId) (x : Ring) : (s.setRing r x).free = s.free := rfl
@[simp] theorem setRing_pending (r : BaseId) (x : Ring) : (s.setRing r x).pending = s.pending := rfl

/-! setFrames -/

@[simp] theorem setFrames_now (e : EngId) (x : Frames) : (s.setFrames e x).now = s.now := rfl
@[simp] theorem setFrames_tb (e : EngId) (x : Frames) : (s.setFrames e x).tb = s.tb := rfl
@[simp] theorem setFrames_mem (e : EngId) (x : Frames) : (s.setFrames e x).mem = s.mem := rfl
@[simp] theorem setFrames_cat (e : EngId) (x : Frames) : (s.setFrames e x).cat = s.cat := rfl
@[simp] theorem setFrames_csr (e : EngId) (x : Frames) : (s.setFrames e x).csr = s.csr := rfl
@[simp] theorem setFrames_ecc (e : EngId) (x : Frames) : (s.setFrames e x).ecc = s.ecc := rfl
@[simp] theorem setFrames_power (e : EngId) (x : Frames) : (s.setFrames e x).power = s.power := rfl
@[simp] theorem setFrames_holdAt (e : EngId) (x : Frames) : (s.setFrames e x).holdAt = s.holdAt := rfl
@[simp] theorem setFrames_request (e : EngId) (x : Frames) : (s.setFrames e x).request = s.request := rfl
@[simp] theorem setFrames_bases (e : EngId) (x : Frames) : (s.setFrames e x).bases = s.bases := rfl
@[simp] theorem setFrames_pins (e : EngId) (x : Frames) : (s.setFrames e x).pins = s.pins := rfl
@[simp] theorem setFrames_wcs (e : EngId) (x : Frames) : (s.setFrames e x).wcs = s.wcs := rfl
@[simp] theorem setFrames_caps (e : EngId) (x : Frames) : (s.setFrames e x).caps = s.caps := rfl
@[simp] theorem setFrames_time (e : EngId) (x : Frames) : (s.setFrames e x).time = s.time := rfl
@[simp] theorem setFrames_engines (e : EngId) (x : Frames) : (s.setFrames e x).engines = s.engines := rfl
@[simp] theorem setFrames_mtx (e : EngId) (x : Frames) : (s.setFrames e x).mtx = s.mtx := rfl
@[simp] theorem setFrames_logq (e : EngId) (x : Frames) : (s.setFrames e x).logq = s.logq := rfl
@[simp] theorem setFrames_logn (e : EngId) (x : Frames) : (s.setFrames e x).logn = s.logn := rfl
@[simp] theorem setFrames_logAt (e : EngId) (x : Frames) : (s.setFrames e x).logAt = s.logAt := rfl
@[simp] theorem setFrames_cur (e : EngId) (x : Frames) : (s.setFrames e x).cur = s.cur := rfl
@[simp] theorem setFrames_hl (e : EngId) (x : Frames) : (s.setFrames e x).hl = s.hl := rfl
@[simp] theorem setFrames_pcie (e : EngId) (x : Frames) : (s.setFrames e x).pcie = s.pcie := rfl
@[simp] theorem setFrames_eth (e : EngId) (x : Frames) : (s.setFrames e x).eth = s.eth := rfl
@[simp] theorem setFrames_lbp (e : EngId) (x : Frames) : (s.setFrames e x).lbp = s.lbp := rfl
@[simp] theorem setFrames_uart (e : EngId) (x : Frames) : (s.setFrames e x).uart = s.uart := rfl
@[simp] theorem setFrames_spi (e : EngId) (x : Frames) : (s.setFrames e x).spi = s.spi := rfl
@[simp] theorem setFrames_i2c (e : EngId) (x : Frames) : (s.setFrames e x).i2c = s.i2c := rfl
@[simp] theorem setFrames_brk (e : EngId) (x : Frames) : (s.setFrames e x).brk = s.brk := rfl
@[simp] theorem setFrames_dma (e : EngId) (x : Frames) : (s.setFrames e x).dma = s.dma := rfl
@[simp] theorem setFrames_boot (e : EngId) (x : Frames) : (s.setFrames e x).boot = s.boot := rfl
@[simp] theorem setFrames_supply (e : EngId) (x : Frames) : (s.setFrames e x).supply = s.supply := rfl
@[simp] theorem setFrames_tap (e : EngId) (x : Frames) : (s.setFrames e x).tap = s.tap := rfl
@[simp] theorem setFrames_volts (e : EngId) (x : Frames) : (s.setFrames e x).volts = s.volts := rfl
@[simp] theorem setFrames_swiAt (e : EngId) (x : Frames) : (s.setFrames e x).swiAt = s.swiAt := rfl
@[simp] theorem setFrames_flash (e : EngId) (x : Frames) : (s.setFrames e x).flash = s.flash := rfl
@[simp] theorem setFrames_qspi (e : EngId) (x : Frames) : (s.setFrames e x).qspi = s.qspi := rfl
@[simp] theorem setFrames_engmask (e : EngId) (x : Frames) : (s.setFrames e x).engmask = s.engmask := rfl
@[simp] theorem setFrames_map (e : EngId) (x : Frames) : (s.setFrames e x).map = s.map := rfl
@[simp] theorem setFrames_image (e : EngId) (x : Frames) : (s.setFrames e x).image = s.image := rfl
@[simp] theorem setFrames_released (e : EngId) (x : Frames) : (s.setFrames e x).released = s.released := rfl
@[simp] theorem setFrames_rdata (e : EngId) (x : Frames) : (s.setFrames e x).rdata = s.rdata := rfl
@[simp] theorem setFrames_free (e : EngId) (x : Frames) : (s.setFrames e x).free = s.free := rfl
@[simp] theorem setFrames_pending (e : EngId) (x : Frames) : (s.setFrames e x).pending = s.pending := rfl

end Sys2Proof.Laws
end

