-- ==== Sys2Proof/Laws/Ops.lean ====
section
/-! SUPPORT. Reads after writes of registers, engines, engine words and stores, and what the named operations leave alone. -/

namespace Sys2Proof.Laws

open Sys2Proof.Machine

variable (s : State)

/-! Registers -/

/-- A register reads as it was last written, and every other one as before. -/
theorem reg_setReg (a : Nat) (v : Word) (b : Nat) : (s.setReg a v).reg b = if b = a then v else s.reg b :=
  mapGet_set Reg.resetValue s.csr a v b

@[simp] theorem reg_setReg_same (a : Nat) (v : Word) : (s.setReg a v).reg a = v := by simp [reg_setReg]

theorem reg_setReg_other {a b : Nat} (v : Word) (h : b ≠ a) : (s.setReg a v).reg b = s.reg b := by simp [reg_setReg, h]

@[simp] theorem reg_setMemByte (a : Nat) (b : Byte) (r : Nat) : (s.setMemByte a b).reg r = s.reg r := rfl
@[simp] theorem reg_clearMem (p : Nat → Bool) (r : Nat) : (s.clearMem p).reg r = s.reg r := rfl
@[simp] theorem reg_setEng (e : EngId) (x : Engine) (r : Nat) : (s.setEng e x).reg r = s.reg r := rfl
@[simp] theorem reg_setBase (b : BaseId) (x : Base) (r : Nat) : (s.setBase b x).reg r = s.reg r := rfl
@[simp] theorem reg_setPin (p : PinId) (x : Pin) (r : Nat) : (s.setPin p x).reg r = s.reg r := rfl
@[simp] theorem reg_setWc (m : WcId) (x : Counter) (r : Nat) : (s.setWc m x).reg r = s.reg r := rfl
@[simp] theorem reg_setRing (b : BaseId) (x : Ring) (r : Nat) : (s.setRing b x).reg r = s.reg r := rfl
@[simp] theorem reg_setFrames (e : EngId) (x : Frames) (r : Nat) : (s.setFrames e x).reg r = s.reg r := rfl

/-! The derived register writes, as writes -/

theorem orReg_eq (a : Nat) (m : Word) : s.orReg a m = s.setReg a (s.reg a ||| m) := rfl
theorem clrReg_eq (a : Nat) (m : Word) : s.clrReg a m = s.setReg a (s.reg a &&& ~~~m) := rfl
theorem setFld_eq (a lo n v : Nat) : s.setFld a lo n v = s.setReg a (putFld (s.reg a) lo n v) := rfl
theorem incReg_eq (a : Nat) : s.incReg a = s.setReg a (satSucc (s.reg a)) := rfl
theorem putBit_eq (a i : Nat) (v : Bool) :
    s.putBit a i v = s.setReg a (if v then s.reg a ||| bitW i else s.reg a &&& ~~~bitW i) := by
  cases v <;> rfl

/-- A register that is reset reads its reset value, and every other one as before. -/
theorem reg_resetRegs (p : Nat → Bool) (b : Nat) :
    (s.resetRegs p).reg b = if p b then Reg.resetValue b else s.reg b := by
  unfold State.resetRegs State.reg mapDrop
  induction s.csr with
  | nil => simp [mapGet]
  | cons q m ih =>
    obtain ⟨i, w⟩ := q
    simp only [List.filter_cons]
    by_cases hi : i = b
    · subst hi
      cases hp : p i
      · simp [mapGet]
      · simpa [mapGet, hp] using ih
    · cases hp : p i <;> simp [mapGet, hi, ih]

/-! Engines, bases, pins and counters -/

@[simp] theorem eng_setEng_same (e : EngId) (x : Engine) : (s.setEng e x).eng e = x := by
  simp [State.eng, State.setEng]

theorem eng_setEng_other {e f : EngId} (x : Engine) (h : f ≠ e) : (s.setEng e x).eng f = s.eng f := by
  have h' : e.val ≠ f.val := fun q => h (Fin.ext q.symm)
  simp [State.eng, State.setEng, h']

theorem modEng_eq (e : EngId) (f : Engine → Engine) : s.modEng e f = s.setEng e (f (s.eng e)) := rfl

@[simp] theorem eng_setReg (a : Nat) (v : Word) (e : EngId) : (s.setReg a v).eng e = s.eng e := rfl
@[simp] theorem eng_setMemByte (a : Nat) (b : Byte) (e : EngId) : (s.setMemByte a b).eng e = s.eng e := rfl

@[simp] theorem base_setBase_same (b : BaseId) (x : Base) : (s.setBase b x).base b = x := by
  simp [State.base, State.setBase]

theorem base_setBase_other {b c : BaseId} (x : Base) (h : c ≠ b) : (s.setBase b x).base c = s.base c := by
  have h' : b.val ≠ c.val := fun q => h (Fin.ext q.symm)
  simp [State.base, State.setBase, h']

@[simp] theorem pin_setPin_same (p : PinId) (x : Pin) : (s.setPin p x).pin p = x := by
  simp [State.pin, State.setPin]

theorem pin_setPin_other {p c : PinId} (x : Pin) (h : c ≠ p) : (s.setPin p x).pin c = s.pin c := by
  have h' : p.val ≠ c.val := fun q => h (Fin.ext q.symm)
  simp [State.pin, State.setPin, h']

@[simp] theorem wc_setWc_same (m : WcId) (x : Counter) : (s.setWc m x).wc m = x := by
  simp [State.wc, State.setWc]

theorem wc_setWc_other {m c : WcId} (x : Counter) (h : c ≠ m) : (s.setWc m x).wc c = s.wc c := by
  have h' : m.val ≠ c.val := fun q => h (Fin.ext q.symm)
  simp [State.wc, State.setWc, h']

/-! Engine words -/

/-- An engine word reads as it was last written, and every other one as before. -/
theorem get_put (x : Engine) (k : Nat) (v : Word) (j : Nat) : (x.put k v).get j = if j = k then v else x.get j :=
  mapGet_set (fun _ => 0) x.ports k v j

/-- A write of one engine word leaves every other word, and every other engine, as before. -/
theorem port_setPort (e f : EngId) (k j : Nat) (v : Word) :
    (s.setPort e k v).port f j = if f = e ∧ j = k then v else s.port f j := by
  unfold State.setPort State.port
  rw [modEng_eq]
  by_cases h : f = e
  · subst h; simp [get_put]
  · simp [eng_setEng_other s _ h, h]

@[simp] theorem reg_setPort (e : EngId) (k : Nat) (v : Word) (r : Nat) : (s.setPort e k v).reg r = s.reg r := rfl

/-- V0 discards writes (R109). -/
theorem setVreg_zero (e : EngId) (w : Word) : s.setVreg e 0 w = s := rfl
/-- V0 reads zero (R109). -/
theorem vreg_zero (e : EngId) : s.vreg e 0 = 0 := rfl

/-! Stores -/

/-- A stored byte reads as it was last written, under each of its addresses; every other byte as before. -/
theorem memByte_setMemByte (a : Nat) (b : Byte) (c : Nat) :
    (s.setMemByte a b).memByte c = if memKey c = memKey a then b else s.memByte c :=
  mapGet_set (memDefault s.cat) s.mem (memKey a) b (memKey c)

@[simp] theorem region_setMemByte (a : Nat) (b : Byte) (c : Nat) : (s.setMemByte a b).region c = s.region c := rfl
@[simp] theorem flashAt_setMemByte (a : Nat) (b : Byte) (o : Nat) : (s.setMemByte a b).flashAt o = s.flashAt o := rfl

/-- A read of a byte after a store of one: the window of the Boot ROM and of the flash does not see the stores. -/
theorem readByte_setMemByte (a : Nat) (b : Byte) (c : Nat) :
    (s.setMemByte a b).readByte c =
      if memKey c = memKey a ∧ s.region c ≠ .rom ∧ s.region c ≠ .qspi then b else s.readByte c := by
  unfold State.readByte
  rw [region_setMemByte]
  cases h : s.region c <;> simp [memByte_setMemByte]

theorem readByte_setMemByte_other {a c : Nat} (b : Byte) (h : memKey c ≠ memKey a) :
    (s.setMemByte a b).readByte c = s.readByte c := by
  simp [readByte_setMemByte, h]

/-- Bytes stored elsewhere leave a byte as it was. -/
theorem readByte_writeBytes_other (bs : List Byte) (s : State) (a c : Nat)
    (h : ∀ i < bs.length, memKey c ≠ memKey (a + i)) : (s.writeBytes a bs).readByte c = s.readByte c := by
  induction bs generalizing s a with
  | nil => rfl
  | cons b bs ih =>
    show ((s.setMemByte a b).writeBytes (a + 1) bs).readByte c = _
    rw [ih]
    · exact readByte_setMemByte_other s b (by simpa using h 0 (by simp))
    · intro i hi
      have := h (i + 1) (by simpa using hi)
      rwa [Nat.add_comm i 1, ← Nat.add_assoc] at this

/-- A store of bytes touches the stores alone. -/
theorem writeBytes_eq (bs : List Byte) (s : State) (a : Nat) :
    s.writeBytes a bs = { s with mem := (s.writeBytes a bs).mem } := by
  induction bs generalizing s a with
  | nil => rfl
  | cons b bs ih => exact ih (s.setMemByte a b) (a + 1)

theorem reg_writeBytes (bs : List Byte) (a r : Nat) : (s.writeBytes a bs).reg r = s.reg r := by
  rw [writeBytes_eq]; rfl

/-! The canonical form of the stores and of the registers -/

theorem memory_wf_setMemByte (a : Nat) (b : Byte) (h : Memory.wf s.cat s.mem = true) : Memory.wf s.cat (s.setMemByte a b).mem = true :=
  mapWf_set (memDefault s.cat) s.mem (memKey a) b h

theorem memory_wf_writeBytes (bs : List Byte) (s : State) (a : Nat) (h : Memory.wf s.cat s.mem = true) :
    Memory.wf s.cat (s.writeBytes a bs).mem = true := by
  induction bs generalizing s a with
  | nil => exact h
  | cons b bs ih => exact ih (s.setMemByte a b) _ (memory_wf_setMemByte s a b h)

theorem memory_wf_setMemWord (a : Nat) (v : Word) (h : Memory.wf s.cat s.mem = true) : Memory.wf s.cat (s.setMemWord a v).mem = true :=
  memory_wf_writeBytes _ s a h

theorem memory_wf_clearMem (p : Nat → Bool) (h : Memory.wf s.cat s.mem = true) : Memory.wf s.cat (s.clearMem p).mem = true :=
  mapWf_drop (memDefault s.cat) p s.mem h

theorem csr_wf_setReg (a : Nat) (v : Word) (h : Csr.wf s.csr = true) : Csr.wf (s.setReg a v).csr = true :=
  mapWf_set Reg.resetValue s.csr a v h

theorem csr_wf_resetRegs (p : Nat → Bool) (h : Csr.wf s.csr = true) : Csr.wf (s.resetRegs p).csr = true :=
  mapWf_drop Reg.resetValue p s.csr h

/-- A map without the keys on which two defaults differ is in canonical form under both. -/
theorem mapWf_default {α : Type} [DecidableEq α] {d d' : Nat → α} (m : List (Nat × α)) (hd : ∀ q ∈ m, d q.1 = d' q.1)
    (h : mapWf d m = true) : mapWf d' m = true := by
  induction m with
  | nil => rfl
  | cons q m ih =>
    rw [mapWf_cons] at h ⊢
    exact ⟨hd q List.mem_cons_self ▸ h.1, h.2.1, ih (fun x hx => hd x (List.mem_cons_of_mem _ hx)) h.2.2⟩

/-- Outside the Catalogues no store reads what an image leaves in them. -/
theorem memDefault_outside (c d : Half) {a : Nat} (h : inCatalogue a = false) : memDefault c a = memDefault d a := by
  unfold memDefault
  unfold inCatalogue at h
  simp only [Bool.and_eq_false_iff, decide_eq_false_iff_not] at h
  rw [if_neg (by omega), if_neg (by omega)]

theorem memory_wf_setCatalogues (c : Half) (h : Memory.wf s.cat s.mem = true) :
    Memory.wf c (s.setCatalogues c).mem = true := by
  refine mapWf_default (d := memDefault s.cat) _ (fun q hq => memDefault_outside _ _ ?_) (mapWf_drop _ inCatalogue s.mem h)
  simpa [mapDrop] using (List.mem_filter.mp hq).2

/-- The reset state lists no store and no register. -/
theorem reset_mem_wf : Memory.wf State.reset.cat State.reset.mem = true := rfl

end Sys2Proof.Laws
end

