-- ==== Sys2Proof/Laws/KeepsStore.lean ====
section
/-! SUPPORT. What the operations of registers, stores, compute units, LSUs and BMU keep: canonical maps, the queue, and the engines that are present. -/

namespace Sys2Proof.Laws

open Sys2Proof.Machine

variable {kq : List Instr} {km : Half} {s : State}

/-- An update of other fields keeps what `keeps` says. -/
theorem keeps_mk {f_now : Nat} {f_tb : BitVec 67} {f_ecc : Ecc} {f_power : PowerState} {f_holdAt : Nat} {f_request : Option PowerRequest} {f_bases : Vector Base 8} {f_alm : Almanac} {f_pins : Vector Pin 64} {f_wcs : Vector Counter 32} {f_caps : Vector Capture 32} {f_time : TimeCtl} {f_engines : Vector Engine 16} {f_mtx : Matrix} {f_logn : List LogEntry} {f_logAt : Option Nat} {f_cur : Curator} {f_hl : Hl} {f_pcie : Pcie} {f_eth : Vector Eth 2} {f_lbp : Vector Lbp 2} {f_uart : Vector Uart 4} {f_spi : Vector Spi 3} {f_i2c : Vector I2c 2} {f_brk : Vector Nat 24} {f_dma : Vector Dma 8} {f_boot : Boot} {f_supply : Supply} {f_tap : Tap} {f_volts : Byte} {f_swiAt : Option (Nat × Word)} {f_flash : List (Nat × Option Byte)} {f_qspi : Nat} {f_map : Vector (Option EngId) 16} {f_image : Option Image} {f_released : Bool} {f_rdata : List Word} {f_free : Nat}
    (h : State.keeps kq km s) :
    State.keeps kq km ⟨f_now, f_tb, s.mem, s.cat, s.csr, f_ecc, f_power, f_holdAt, f_request, f_bases, f_alm, f_pins, f_wcs, f_caps, f_time, f_engines, f_mtx, s.logq, f_logn, f_logAt, f_cur, f_hl, f_pcie, f_eth, f_lbp, f_uart, f_spi, f_i2c, f_brk, f_dma, f_boot, f_supply, f_tap, f_volts, f_swiAt, f_flash, f_qspi, s.engmask, f_map, f_image, f_released, f_rdata, f_free, s.pending⟩ := h

theorem keeps_ite {c : Prop} [Decidable c] {x y : State} (hx : c → x.keeps kq km) (hy : ¬c → y.keeps kq km) :
    (if c then x else y).keeps kq km := by
  split
  · exact hx ‹_›
  · exact hy ‹_›

theorem foldl_keeps {β : Type} {f : State → β → State} (hf : ∀ s i, State.keeps kq km s → (f s i).keeps kq km) (l : List β) :
    ∀ s, State.keeps kq km s → (l.foldl f s).keeps kq km := by
  induction l with
  | nil => exact fun _ h => h
  | cons i l ih => exact fun s h => ih _ (hf s i h)

theorem forAll_keeps {n : Nat} {f : Fin n → State → State} (hf : ∀ i s, State.keeps kq km s → (f i s).keeps kq km)
    (h : s.keeps kq km) : (forAll f s).keeps kq km :=
  foldl_keeps (fun s i hs => hf i s hs) _ s h

theorem setReg_keeps (a : Nat) (v : Word) (h : s.keeps kq km) : (s.setReg a v).keeps kq km :=
  ⟨⟨h.1.1, csr_wf_setReg s a v h.1.2.1, h.1.2.2⟩, h.2⟩

theorem resetRegs_keeps (p : Nat → Bool) (h : s.keeps kq km) : (s.resetRegs p).keeps kq km :=
  ⟨⟨h.1.1, csr_wf_resetRegs s p h.1.2.1, h.1.2.2⟩, h.2⟩

theorem setMemByte_keeps (a : Nat) (b : Byte) (h : s.keeps kq km) : (s.setMemByte a b).keeps kq km :=
  ⟨⟨memory_wf_setMemByte s a b h.1.1, h.1.2⟩, h.2⟩

theorem clearMem_keeps (p : Nat → Bool) (h : s.keeps kq km) : (s.clearMem p).keeps kq km :=
  ⟨⟨memory_wf_clearMem s p h.1.1, h.1.2⟩, h.2⟩

/-- The state of a pair that equals `(a, t)`. -/
theorem snd_keeps {α : Type} {p : α × State} {a : α} {t : State} (he : p = (a, t)) (hk : p.2.keeps kq km) : t.keeps kq km := by
  subst he; exact hk

theorem thd_keeps {α β : Type} {p : α × β × State} {a : α} {b : β} {t : State} (he : p = (a, b, t))
    (hk : p.2.2.keeps kq km) : t.keeps kq km := by
  subst he; exact hk

theorem foldl_fst_keeps {α β : Type} {f : State × α → β → State × α}
    (hf : ∀ x i, x.1.keeps kq km → (f x i).1.keeps kq km) (l : List β) :
    ∀ x, x.1.keeps kq km → (l.foldl f x).1.keeps kq km := by
  induction l with
  | nil => exact fun _ h => h
  | cons i l ih => exact fun x h => ih _ (hf x i h)

theorem foldl_snd_keeps {α β : Type} {f : α × State → β → α × State}
    (hf : ∀ x i, x.2.keeps kq km → (f x i).2.keeps kq km) (l : List β) :
    ∀ x, x.2.keeps kq km → (l.foldl f x).2.keeps kq km := by
  induction l with
  | nil => exact fun _ h => h
  | cons i l ih => exact fun x h => ih _ (hf x i h)

theorem foldl_thd_keeps {α β γ : Type} {f : α × β × State → γ → α × β × State}
    (hf : ∀ x i, x.2.2.keeps kq km → (f x i).2.2.keeps kq km) (l : List γ) :
    ∀ x, x.2.2.keeps kq km → (l.foldl f x).2.2.keeps kq km := by
  induction l with
  | nil => exact fun _ h => h
  | cons i l ih => exact fun x h => ih _ (hf x i h)

/-- The state in the left or right of a sum. -/
theorem inl_keeps {α β : Type} {x : α ⊕ β} {P : α → Prop} {Q : β → Prop} {t : α} (he : x = .inl t) (h : x.elim P Q) : P t := by
  subst he; exact h

theorem inr_keeps {α β : Type} {x : α ⊕ β} {P : α → Prop} {Q : β → Prop} {t : β} (he : x = .inr t) (h : x.elim P Q) : Q t := by
  subst he; exact h

theorem pair_keeps {α : Type} (a : α) {t : State} (hk : t.keeps kq km) : (a, t).2.keeps kq km := hk

theorem pair_ite_keeps {α : Type} {c : Prop} [Decidable c] {x y : α × State} (hx : c → x.2.keeps kq km)
    (hy : ¬c → y.2.keeps kq km) : (if c then x else y).2.keeps kq km := by
  split
  · exact hx ‹_›
  · exact hy ‹_›

theorem drawWord_keeps (hk : s.keeps kq km) : s.drawWord.2.keeps kq km := hk

theorem drawn_keeps (n : Nat) (hk : s.keeps kq km) :
    (State.drawn s n).keeps kq km := by
  unfold State.drawn
  repeat' first | with_reducible assumption | with_reducible apply keeps_ite | intro _ | split | with_reducible apply keeps_mk

theorem orReg_keeps (a : Nat) (m : Word) (hk : s.keeps kq km) :
    (State.orReg s a m).keeps kq km := by
  unfold State.orReg
  repeat' first | with_reducible assumption | with_reducible apply setReg_keeps

theorem clrReg_keeps (a : Nat) (m : Word) (hk : s.keeps kq km) :
    (State.clrReg s a m).keeps kq km := by
  unfold State.clrReg
  repeat' first | with_reducible assumption | with_reducible apply setReg_keeps

theorem putBit_keeps (a i : Nat) (v : Bool) (hk : s.keeps kq km) :
    (State.putBit s a i v).keeps kq km := by
  unfold State.putBit
  repeat' first
    | with_reducible assumption
    | with_reducible apply orReg_keeps
    | with_reducible apply clrReg_keeps
    | with_reducible apply keeps_ite
    | intro _

theorem setFld_keeps (a lo n v : Nat) (hk : s.keeps kq km) :
    (State.setFld s a lo n v).keeps kq km := by
  unfold State.setFld
  repeat' first | with_reducible assumption | with_reducible apply setReg_keeps

theorem incReg_keeps (a : Nat) (hk : s.keeps kq km) :
    (State.incReg s a).keeps kq km := by
  unfold State.incReg
  repeat' first | with_reducible assumption | with_reducible apply setReg_keeps

theorem setEng_keeps (e : EngId) (x : Engine) (hk : s.keeps kq km) :
    (State.setEng s e x).keeps kq km := by
  unfold State.setEng
  repeat' first | with_reducible assumption | with_reducible apply keeps_ite | intro _ | split | with_reducible apply keeps_mk

theorem modEng_keeps (e : EngId) (f : Engine → Engine) (hk : s.keeps kq km) :
    (State.modEng s e f).keeps kq km := by
  unfold State.modEng
  repeat' first | with_reducible assumption | with_reducible apply setEng_keeps

theorem setBase_keeps (b : BaseId) (x : Base) (hk : s.keeps kq km) :
    (State.setBase s b x).keeps kq km := by
  unfold State.setBase
  repeat' first | with_reducible assumption | with_reducible apply keeps_ite | intro _ | split | with_reducible apply keeps_mk

theorem modBase_keeps (b : BaseId) (f : Base → Base) (hk : s.keeps kq km) :
    (State.modBase s b f).keeps kq km := by
  unfold State.modBase
  repeat' first | with_reducible assumption | with_reducible apply setBase_keeps

theorem setPin_keeps (p : PinId) (x : Pin) (hk : s.keeps kq km) :
    (State.setPin s p x).keeps kq km := by
  unfold State.setPin
  repeat' first | with_reducible assumption | with_reducible apply keeps_ite | intro _ | split | with_reducible apply keeps_mk

theorem modPin_keeps (p : PinId) (f : Pin → Pin) (hk : s.keeps kq km) :
    (State.modPin s p f).keeps kq km := by
  unfold State.modPin
  repeat' first | with_reducible assumption | with_reducible apply setPin_keeps

theorem setWc_keeps (m : WcId) (x : Counter) (hk : s.keeps kq km) :
    (State.setWc s m x).keeps kq km := by
  unfold State.setWc
  repeat' first | with_reducible assumption | with_reducible apply keeps_ite | intro _ | split | with_reducible apply keeps_mk

theorem modWc_keeps (m : WcId) (f : Counter → Counter) (hk : s.keeps kq km) :
    (State.modWc s m f).keeps kq km := by
  unfold State.modWc
  repeat' first | with_reducible assumption | with_reducible apply setWc_keeps

theorem setRing_keeps (r : BaseId) (x : Ring) (hk : s.keeps kq km) :
    (State.setRing s r x).keeps kq km := by
  unfold State.setRing
  repeat' first | with_reducible assumption | with_reducible apply keeps_ite | intro _ | split | with_reducible apply keeps_mk

theorem setFrames_keeps (e : EngId) (x : Frames) (hk : s.keeps kq km) :
    (State.setFrames s e x).keeps kq km := by
  unfold State.setFrames
  repeat' first | with_reducible assumption | with_reducible apply keeps_ite | intro _ | split | with_reducible apply keeps_mk

theorem setPort_keeps (e : EngId) (k : Nat) (v : Word) (hk : s.keeps kq km) :
    (State.setPort s e k v).keeps kq km := by
  unfold State.setPort
  repeat' first | with_reducible assumption | with_reducible apply modEng_keeps

theorem setVreg_keeps (e : EngId) (v : Nat) (w : Word) (hk : s.keeps kq km) :
    (State.setVreg s e v w).keeps kq km := by
  unfold State.setVreg
  repeat' first | with_reducible assumption | with_reducible apply setPort_keeps | with_reducible apply keeps_ite | intro _

theorem logLost_keeps  (hk : s.keeps kq km) :
    (State.logLost s).keeps kq km := by
  unfold State.logLost
  repeat' first | with_reducible assumption | with_reducible apply orReg_keeps | with_reducible apply incReg_keeps

theorem log_keeps (code unit detail : Nat) (w3 : Word) (hk : s.keeps kq km) :
    (State.log s code unit detail w3).keeps kq km := by
  unfold State.log
  repeat' first
    | with_reducible assumption
    | with_reducible apply keeps_ite
    | intro _
    | split
    | dsimp only
    | with_reducible apply keeps_mk

theorem logEnter_keeps (hk : s.keeps kq km) : s.logEnter.keeps kq km := by
  refine foldl_keeps (fun s _ h => logLost_keeps h) _ _ ⟨⟨hk.1.1, hk.1.2.1, ?_⟩, hk.2⟩
  have := hk.1.2.2
  simp only [List.length_append, List.length_take]
  omega

theorem raiseAt_keeps (e : EngId) (n t : Nat) (hk : s.keeps kq km) :
    (State.raiseAt s e n t).keeps kq km := by
  unfold State.raiseAt
  repeat' first
    | with_reducible assumption
    | with_reducible apply orReg_keeps
    | with_reducible apply modEng_keeps
    | with_reducible apply keeps_ite
    | intro _

theorem raise_keeps (e : EngId) (n : Nat) (hk : s.keeps kq km) :
    (State.raise s e n).keeps kq km := by
  unfold State.raise
  repeat' first | with_reducible assumption | with_reducible apply raiseAt_keeps

theorem raiseAll_keeps (mask : Word) (n : Nat) (hk : s.keeps kq km) :
    (State.raiseAll s mask n).keeps kq km := by
  unfold State.raiseAll
  repeat' first
    | with_reducible assumption
    | with_reducible apply forAll_keeps
    | with_reducible apply raise_keeps
    | with_reducible apply keeps_ite
    | with_reducible apply forAll_keeps
    | intro _

theorem halt_keeps (e : EngId) (hk : s.keeps kq km) :
    (State.halt s e).keeps kq km := by
  unfold State.halt
  repeat' first
    | with_reducible assumption
    | with_reducible apply orReg_keeps
    | with_reducible apply log_keeps
    | with_reducible apply keeps_ite
    | intro _

theorem writeBytes_keeps (bs : List Byte) (a : Nat) (hk : s.keeps kq km) : (s.writeBytes a bs).keeps kq km := by
  induction bs generalizing s a with
  | nil => exact hk
  | cons b bs ih => exact ih _ (setMemByte_keeps a b hk)

theorem setMemWord_keeps (a : Nat) (v : Word) (hk : s.keeps kq km) : (s.setMemWord a v).keeps kq km :=
  writeBytes_keeps _ a hk

theorem setCatalogues_keeps (c : Half) (hk : s.keeps kq km) : (s.setCatalogues c).keeps kq km :=
  ⟨⟨memory_wf_setCatalogues s c hk.1.1, hk.1.2⟩, hk.2⟩

theorem perf_keeps (e : EngId) (ev n : Nat) (hk : s.keeps kq km) :
    (State.perf s e ev n).keeps kq km := by
  unfold State.perf
  repeat' first
    | with_reducible assumption
    | with_reducible apply modEng_keeps
    | with_reducible apply forAll_keeps
    | with_reducible apply keeps_ite
    | with_reducible apply forAll_keeps
    | intro _

theorem perfOverflow_keeps (e : EngId) (k : Fin 8) (hk : s.keeps kq km) :
    (State.perfOverflow s e k).keeps kq km := by
  unfold State.perfOverflow
  repeat' first
    | with_reducible assumption
    | with_reducible apply setReg_keeps
    | with_reducible apply orReg_keeps
    | with_reducible apply clrReg_keeps
    | with_reducible apply modEng_keeps
    | with_reducible apply keeps_ite
    | intro _

theorem perfRead_keeps (e : EngId) (k : Fin 8) (hk : s.keeps kq km) :
    (State.perfRead s e k).2.keeps kq km := by
  unfold State.perfRead
  repeat' first | with_reducible assumption | with_reducible apply setReg_keeps

theorem perfHold_keeps (e : EngId) (k : Fin 8) (v : Word) (hk : s.keeps kq km) :
    (State.perfHold s e k v).keeps kq km := by
  unfold State.perfHold
  repeat' first | with_reducible assumption | with_reducible apply modEng_keeps

theorem perfWrite_keeps (e : EngId) (k : Fin 8) (v : Word) (hk : s.keeps kq km) :
    (State.perfWrite s e k v).keeps kq km := by
  unfold State.perfWrite
  repeat' first | with_reducible assumption | with_reducible apply modEng_keeps

theorem perfSettle_keeps (e : EngId) (hk : s.keeps kq km) :
    (State.perfSettle s e).keeps kq km := by
  unfold State.perfSettle
  repeat' first
    | with_reducible assumption
    | with_reducible apply modEng_keeps
    | with_reducible apply forAll_keeps
    | with_reducible apply perf_keeps
    | with_reducible apply perfOverflow_keeps
    | with_reducible apply keeps_ite
    | with_reducible apply forAll_keeps
    | with_reducible apply foldl_keeps
    | with_reducible apply foldl_fst_keeps
    | with_reducible apply foldl_snd_keeps
    | intro _

theorem wakeHold_keeps (cause : Nat) (hk : s.keeps kq km) :
    (State.wakeHold s cause).keeps kq km := by
  unfold State.wakeHold
  repeat' first
    | with_reducible assumption
    | with_reducible apply setFld_keeps
    | with_reducible apply keeps_ite
    | intro _
    | split
    | with_reducible apply keeps_mk

theorem wakeSource_keeps (bit cause : Nat) (hk : s.keeps kq km) :
    (State.wakeSource s bit cause).keeps kq km := by
  unfold State.wakeSource
  repeat' first | with_reducible assumption | with_reducible apply wakeHold_keeps | with_reducible apply keeps_ite | intro _

theorem swiSet_keeps (mask : Word) (hk : s.keeps kq km) :
    (State.swiSet s mask).keeps kq km := by
  unfold State.swiSet
  repeat' first
    | with_reducible assumption
    | with_reducible apply orReg_keeps
    | with_reducible apply keeps_ite
    | intro _
    | split
    | dsimp only
    | with_reducible apply keeps_mk

theorem assertInput_keeps (e : EngId) (i : Nat) (hk : s.keeps kq km) :
    (State.assertInput s e i).keeps kq km := by
  unfold State.assertInput
  repeat' first
    | with_reducible assumption
    | with_reducible apply modEng_keeps
    | with_reducible apply wakeSource_keeps
    | with_reducible apply keeps_ite
    | intro _

theorem hsSample_keeps  (hk : s.keeps kq km) :
    (State.hsSample s).keeps kq km := by
  unfold State.hsSample
  repeat' first
    | with_reducible assumption
    | with_reducible apply forAll_keeps
    | with_reducible apply keeps_ite
    | with_reducible apply forAll_keeps
    | intro _
    | split
    | with_reducible apply keeps_mk

theorem setUnit_keeps (e : EngId) (u : Fin 16) (x : UnitRes) (hk : s.keeps kq km) :
    (State.setUnit s e u x).keeps kq km := by
  unfold State.setUnit
  repeat' first | with_reducible assumption | with_reducible apply modEng_keeps

theorem iftTake_keeps (e : EngId) (n : Nat) (hk : s.keeps kq km) :
    (State.iftTake s e n).keeps kq km := by
  unfold State.iftTake
  repeat' first | with_reducible assumption | with_reducible apply setFld_keeps | with_reducible apply keeps_ite | intro _

theorem iftFree_keeps (e : EngId) (n : Nat) (hk : s.keeps kq km) :
    (State.iftFree s e n).keeps kq km := by
  unfold State.iftFree
  repeat' first | with_reducible assumption | with_reducible apply setFld_keeps

theorem parity_keeps (e : EngId) (socketErr : Bool) (bus socket : Nat) (pc : Word) (hk : s.keeps kq km) :
    (State.parity s e socketErr bus socket pc).keeps kq km := by
  unfold State.parity
  repeat' first
    | with_reducible assumption
    | with_reducible apply setReg_keeps
    | with_reducible apply orReg_keeps
    | with_reducible apply log_keeps
    | with_reducible apply raise_keeps
    | with_reducible apply keeps_ite
    | intro _

theorem meetSpar_keeps (e : EngId) (socket : Nat) (hk : s.keeps kq km) :
    (State.meetSpar s e socket).keeps kq km := by
  unfold State.meetSpar
  repeat' first
    | with_reducible assumption
    | with_reducible apply modEng_keeps
    | with_reducible apply parity_keeps
    | with_reducible apply keeps_ite
    | intro _

theorem trigger_keeps (e : EngId) (u : Fin 16) (t lat occ : Nat) (q q1 : Word) (two : Bool) (flag : Word) (hk : s.keeps kq km) :
    (State.trigger s e u t lat occ q q1 two flag).keeps kq km := by
  unfold State.trigger
  repeat' first
    | with_reducible assumption
    | with_reducible apply setUnit_keeps
    | with_reducible apply iftTake_keeps
    | with_reducible apply keeps_ite
    | intro _

theorem complete_keeps (e : EngId) (u : Fin 16) (hk : s.keeps kq km) :
    (State.complete s e u).keeps kq km := by
  unfold State.complete
  repeat' first
    | with_reducible assumption
    | with_reducible apply orReg_keeps
    | with_reducible apply modEng_keeps
    | with_reducible apply setUnit_keeps
    | with_reducible apply iftFree_keeps
    | with_reducible apply keeps_ite
    | intro _
    | split

theorem deliver_keeps (e : EngId) (u : Fin 16) (q q1 : Word) (hk : s.keeps kq km) :
    (State.deliver s e u q q1).keeps kq km := by
  unfold State.deliver
  repeat' first
    | with_reducible assumption
    | with_reducible apply setUnit_keeps
    | with_reducible apply iftFree_keeps
    | with_reducible apply keeps_ite
    | intro _
    | split

theorem aluOp_keeps (e : EngId) (u : AluId) (code d : Nat) (t : Word) (hk : s.keeps kq km) :
    (State.aluOp s e u code d t).keeps kq km := by
  unfold State.aluOp
  repeat' first
    | with_reducible assumption
    | with_reducible apply meetSpar_keeps
    | with_reducible apply trigger_keeps
    | with_reducible apply keeps_ite
    | intro _

theorem mulOp_keeps (e : EngId) (u : PairId) (code d : Nat) (t : Word) (hk : s.keeps kq km) :
    (State.mulOp s e u code d t).keeps kq km := by
  unfold State.mulOp
  repeat' first
    | with_reducible assumption
    | with_reducible apply meetSpar_keeps
    | with_reducible apply trigger_keeps
    | with_reducible apply keeps_ite
    | intro _

theorem macOp_keeps (e : EngId) (u : PairId) (code d : Nat) (t : Word) (hk : s.keeps kq km) :
    (State.macOp s e u code d t).keeps kq km := by
  unfold State.macOp
  repeat' first
    | with_reducible assumption
    | with_reducible apply setPort_keeps
    | with_reducible apply meetSpar_keeps
    | with_reducible apply trigger_keeps
    | with_reducible apply keeps_ite
    | intro _

theorem divOp_keeps (e : EngId) (code d : Nat) (t : Word) (hk : s.keeps kq km) :
    (State.divOp s e code d t).keeps kq km := by
  unfold State.divOp
  repeat' first
    | with_reducible assumption
    | with_reducible apply meetSpar_keeps
    | with_reducible apply trigger_keeps
    | with_reducible apply keeps_ite
    | intro _

theorem bitOp_keeps (e : EngId) (code d : Nat) (t : Word) (hk : s.keeps kq km) :
    (State.bitOp s e code d t).keeps kq km := by
  unfold State.bitOp
  repeat' first
    | with_reducible assumption
    | with_reducible apply meetSpar_keeps
    | with_reducible apply trigger_keeps
    | with_reducible apply keeps_ite
    | intro _

theorem startReq_keeps (r : Req) (hk : s.keeps kq km) :
    (State.startReq s r).1.keeps kq km := by
  unfold State.startReq
  repeat' first
    | with_reducible assumption
    | with_reducible apply keeps_ite
    | intro _
    | split
    | dsimp only
    | with_reducible apply keeps_mk

theorem issueReq_keeps (m : Nat) (q : ReqSpec) (hk : s.keeps kq km) :
    (State.issueReq s m q).1.keeps kq km := by
  unfold State.issueReq
  repeat' first
    | with_reducible assumption
    | with_reducible apply startReq_keeps
    | with_reducible apply keeps_ite
    | intro _
    | split
    | with_reducible refine snd_keeps (by assumption) ?_
    | with_reducible refine thd_keeps (by assumption) ?_
    | dsimp only
    | with_reducible apply keeps_mk

theorem modReq_keeps (id : Nat) (f : Req → Req) (hk : s.keeps kq km) :
    (State.modReq s id f).keeps kq km := by
  unfold State.modReq
  repeat' first | with_reducible assumption | with_reducible apply keeps_ite | intro _ | split | with_reducible apply keeps_mk

theorem dropReq_keeps (id : Nat) (hk : s.keeps kq km) :
    (State.dropReq s id).keeps kq km := by
  unfold State.dropReq
  repeat' first | with_reducible assumption | with_reducible apply keeps_ite | intro _ | split | with_reducible apply keeps_mk

theorem pumpReq_keeps (m : Nat) (hk : s.keeps kq km) :
    (State.pumpReq s m).keeps kq km := by
  unfold State.pumpReq
  repeat' first
    | with_reducible assumption
    | with_reducible apply startReq_keeps
    | with_reducible apply modReq_keeps
    | with_reducible apply keeps_ite
    | intro _
    | split

theorem issueParts_keeps (m : Nat) (write : Bool) (a : Nat) (ps : List (Nat × Nat)) (data : List Byte) (hk : s.keeps kq km) :
    (s.issueParts m write a ps data).2.keeps kq km := by
  unfold State.issueParts
  refine foldl_snd_keeps (fun x p h => ?_) ps (([] : List (Nat × Option (Resp × List Byte))), s) hk
  exact issueReq_keeps m _ h

theorem errResp_keeps (r : Req) (hk : s.keeps kq km) :
    (State.errResp s r).keeps kq km := by
  unfold State.errResp
  repeat' first
    | with_reducible assumption
    | with_reducible apply setReg_keeps
    | with_reducible apply orReg_keeps
    | with_reducible apply incReg_keeps
    | with_reducible apply log_keeps
    | with_reducible apply keeps_ite
    | intro _

theorem answer_keeps (err : Option Word) (ws : List Word) (hk : s.keeps kq km) :
    (State.answer s err ws).keeps kq km := by
  unfold State.answer
  repeat' first | with_reducible assumption | with_reducible apply keeps_ite | intro _ | split | with_reducible apply keeps_mk

theorem answerErr_keeps  (hk : s.keeps kq km) :
    (State.answerErr s).keeps kq km := by
  unfold State.answerErr
  repeat' first | with_reducible assumption | with_reducible apply drawWord_keeps | with_reducible apply answer_keeps

theorem monTake_keeps (r : Req) (hk : s.keeps kq km) :
    (State.monTake s r).keeps kq km := by
  unfold State.monTake
  repeat' first
    | with_reducible assumption
    | with_reducible apply answer_keeps
    | with_reducible apply answerErr_keeps
    | with_reducible apply keeps_ite
    | intro _
    | split
    | dsimp only
    | with_reducible apply keeps_mk

theorem monAccess_keeps (write : Bool) (a : Word) (bs : List Byte) (hk : s.keeps kq km) :
    (State.monAccess s write a bs).keeps kq km := by
  unfold State.monAccess
  repeat' first
    | with_reducible assumption
    | with_reducible apply issueParts_keeps
    | with_reducible apply keeps_ite
    | intro _
    | split
    | with_reducible refine snd_keeps (by assumption) ?_
    | with_reducible refine thd_keeps (by assumption) ?_
    | dsimp only
    | with_reducible apply keeps_mk

theorem eccUe_keeps (store unit master : Nat) (hk : s.keeps kq km) :
    (State.eccUe s store unit master).keeps kq km := by
  unfold State.eccUe
  repeat' first
    | with_reducible assumption
    | with_reducible apply setReg_keeps
    | with_reducible apply incReg_keeps
    | with_reducible apply log_keeps

theorem eccUes_keeps (store master : Nat) (kl : List Nat) (hk : s.keeps kq km) :
    (State.eccUes s store master kl).keeps kq km := by
  induction kl generalizing s with
  | nil => exact hk
  | cons _ _ ih =>
    unfold State.eccUes
    repeat' first | with_reducible assumption | with_reducible apply ih | with_reducible apply eccUe_keeps

theorem eccCe_keeps (store unit : Nat) (hk : s.keeps kq km) :
    (State.eccCe s store unit).keeps kq km := by
  unfold State.eccCe
  repeat' first
    | with_reducible assumption
    | with_reducible apply incReg_keeps
    | with_reducible apply log_keeps
    | with_reducible apply keeps_ite
    | intro _
    | split
    | dsimp only
    | with_reducible apply keeps_mk

theorem eccRead_keeps (master a n : Nat) (hk : s.keeps kq km) :
    (State.eccRead s master a n).2.keeps kq km := by
  unfold State.eccRead
  repeat' first
    | with_reducible assumption
    | with_reducible apply eccUe_keeps
    | with_reducible apply eccUes_keeps
    | with_reducible apply eccCe_keeps
    | with_reducible apply keeps_ite
    | intro _
    | split
    | dsimp only
    | with_reducible apply keeps_mk

theorem eccWrite_keeps (master a n : Nat) (hk : s.keeps kq km) :
    (State.eccWrite s master a n).2.keeps kq km := by
  unfold State.eccWrite
  repeat' first
    | with_reducible assumption
    | with_reducible apply eccUes_keeps
    | with_reducible apply keeps_ite
    | intro _
    | split
    | dsimp only
    | with_reducible apply keeps_mk

theorem markStale_keeps (a n : Nat) (hk : s.keeps kq km) :
    (State.markStale s a n).keeps kq km := by
  unfold State.markStale
  repeat' first
    | with_reducible assumption
    | with_reducible apply modEng_keeps
    | with_reducible apply forAll_keeps
    | with_reducible apply keeps_ite
    | with_reducible apply forAll_keeps
    | intro _

theorem markDirty_keeps (a n : Nat) (hk : s.keeps kq km) :
    (State.markDirty s a n).keeps kq km := by
  unfold State.markDirty
  repeat' first
    | with_reducible assumption
    | with_reducible apply modEng_keeps
    | with_reducible apply keeps_ite
    | intro _
    | split

theorem storeBytes_keeps (a : Nat) (bs : List Byte) (hk : s.keeps kq km) :
    (State.storeBytes s a bs).keeps kq km := by
  unfold State.storeBytes
  repeat' first
    | with_reducible assumption
    | with_reducible apply writeBytes_keeps
    | with_reducible apply markStale_keeps
    | with_reducible apply markDirty_keeps

theorem borrowAbandon_keeps  (hk : s.keeps kq km) :
    (State.borrowAbandon s).keeps kq km := by
  unfold State.borrowAbandon
  repeat' first
    | with_reducible assumption
    | with_reducible apply orReg_keeps
    | with_reducible apply setFld_keeps
    | with_reducible apply incReg_keeps
    | with_reducible apply keeps_ite
    | intro _
    | split
    | with_reducible apply keeps_mk

theorem vitrine_keeps (a : Nat) (write : Bool) (hk : s.keeps kq km) :
    (State.vitrine s a write).2.keeps kq km := by
  unfold State.vitrine
  repeat' first
    | with_reducible assumption
    | with_reducible apply borrowAbandon_keeps
    | with_reducible apply start_keeps
    | with_reducible apply keeps_ite
    | intro _
    | split
    | dsimp only
    | with_reducible apply keeps_mk

theorem vitrines_keeps (a n : Nat) (write : Bool) (hk : s.keeps kq km) :
    (State.vitrines s a n write).2.keeps kq km := by
  unfold State.vitrines
  repeat' first
    | with_reducible assumption
    | with_reducible apply vitrine_keeps
    | with_reducible apply keeps_ite
    | intro _
    | split
    | with_reducible refine snd_keeps (by assumption) ?_
    | with_reducible refine thd_keeps (by assumption) ?_
    | dsimp only

theorem collide_keeps (e : EngId) (dw : Nat) (hk : s.keeps kq km) :
    (State.collide s e dw).keeps kq km := by
  unfold State.collide
  repeat' first
    | with_reducible assumption
    | with_reducible apply setReg_keeps
    | with_reducible apply orReg_keeps
    | with_reducible apply incReg_keeps
    | with_reducible apply keeps_ite
    | intro _

theorem collisions_keeps (e : EngId) (near wr : Bool) (dws : List Nat) (hk : s.keeps kq km) :
    (s.collisions e near wr dws).keeps kq km := by
  induction dws generalizing s with
  | nil => exact hk
  | cons dw dws ih =>
    unfold State.collisions
    exact ih (keeps_ite (fun _ => collide_keeps e dw hk) (fun _ => hk))

theorem noteUses_keeps (e : EngId) (near wr atom : Bool) (a n : Nat) (hk : s.keeps kq km) :
    (State.noteUses s e near wr atom a n).keeps kq km := by
  unfold State.noteUses
  repeat' first | with_reducible assumption | with_reducible apply modEng_keeps

theorem portRead_keeps (e : EngId) (near : Bool) (a n : Nat) (hk : s.keeps kq km) :
    (State.portRead s e near a n).2.keeps kq km := by
  unfold State.portRead
  repeat' first | with_reducible assumption | with_reducible apply collisions_keeps | with_reducible apply noteUses_keeps

theorem portWrite_keeps (e : EngId) (near atom : Bool) (a : Nat) (bs : List Byte) (hk : s.keeps kq km) :
    (State.portWrite s e near atom a bs).keeps kq km := by
  unfold State.portWrite
  repeat' first
    | with_reducible assumption
    | with_reducible apply storeBytes_keeps
    | with_reducible apply collisions_keeps
    | with_reducible apply noteUses_keeps
    | with_reducible apply keeps_ite
    | intro _

theorem memFault_keeps (e : EngId) (a : Word) (info exc : Nat) (hk : s.keeps kq km) :
    (State.memFault s e a info exc).keeps kq km := by
  unfold State.memFault
  repeat' first | with_reducible assumption | with_reducible apply setReg_keeps | with_reducible apply modEng_keeps

theorem deferred_keeps (e : EngId) (addr info exc : Nat) (hk : s.keeps kq km) :
    (State.deferred s e addr info exc).keeps kq km := by
  unfold State.deferred
  repeat' first
    | with_reducible assumption
    | with_reducible apply setReg_keeps
    | with_reducible apply orReg_keeps
    | with_reducible apply raiseAt_keeps
    | with_reducible apply keeps_ite
    | intro _

theorem nearStore_keeps (e : EngId) (lsu opk a : Nat) (bs : List Byte) (hk : s.keeps kq km) :
    (State.nearStore s e lsu opk a bs).keeps kq km := by
  unfold State.nearStore
  repeat' first
    | with_reducible assumption
    | with_reducible apply eccWrite_keeps
    | with_reducible apply portWrite_keeps
    | with_reducible apply deferred_keeps
    | with_reducible apply keeps_ite
    | with_reducible apply foldl_keeps
    | with_reducible apply foldl_fst_keeps
    | with_reducible apply foldl_snd_keeps
    | intro _
    | split
    | with_reducible refine snd_keeps (by assumption) ?_
    | with_reducible refine thd_keeps (by assumption) ?_
    | dsimp only

theorem claimNear_keeps (e : EngId) (t : Nat) (hk : s.keeps kq km) :
    (State.claimNear s e t).keeps kq km := by
  unfold State.claimNear
  repeat' first | with_reducible assumption | with_reducible apply modEng_keeps

theorem chargeStall_keeps (e : EngId) (f : Option Nat) (hk : s.keeps kq km) :
    (State.chargeStall s e f).keeps kq km := by
  unfold State.chargeStall
  repeat' first | with_reducible assumption | with_reducible apply modEng_keeps | with_reducible apply keeps_ite | intro _

theorem drain_keeps (e : EngId) (hk : s.keeps kq km) :
    (State.drain s e).keeps kq km := by
  unfold State.drain
  repeat' first
    | with_reducible assumption
    | with_reducible apply modEng_keeps
    | with_reducible apply vitrines_keeps
    | with_reducible apply nearStore_keeps
    | with_reducible apply claimNear_keeps
    | with_reducible apply chargeStall_keeps
    | with_reducible apply keeps_ite
    | intro _
    | split

theorem noteWait_keeps (e : EngId) (o : MemOp) (code : Nat) (t : Word) (hk : s.keeps kq km) :
    (State.noteWait s e o code t).keeps kq km := by
  unfold State.noteWait
  repeat' first
    | with_reducible assumption
    | with_reducible apply modEng_keeps
    | with_reducible apply keeps_ite
    | intro _
    | split

theorem nearRead_keeps (e : EngId) (a n : Nat) (hk : s.keeps kq km) :
    (State.nearRead s e a n).2.2.keeps kq km := by
  unfold State.nearRead
  repeat' first | with_reducible assumption | with_reducible apply eccRead_keeps | with_reducible apply portRead_keeps

theorem nearHalves_keeps (e : EngId) (a n : Nat) (hk : s.keeps kq km) : (s.nearHalves e a n).2.2.keeps kq km := by
  unfold State.nearHalves
  refine foldl_thd_keeps (fun x p h => ?_) _ (([] : List Nat), ([] : List Byte), s) hk
  exact nearRead_keeps e _ _ h

theorem pushLoad_keeps (e : EngId) (n : PairId) (p : PendLoad) (hk : s.keeps kq km) :
    (State.pushLoad s e n p).keeps kq km := by
  unfold State.pushLoad
  repeat' first | with_reducible assumption | with_reducible apply modEng_keeps

theorem localDo_keeps (e : EngId) (o : MemOp) (x : Access) (res : Option Word) (hk : s.keeps kq km) :
    (State.localDo s e o x res).keeps kq km := by
  unfold State.localDo
  repeat' first
    | with_reducible assumption
    | with_reducible apply eccRead_keeps
    | with_reducible apply eccWrite_keeps
    | with_reducible apply portWrite_keeps
    | with_reducible apply claimNear_keeps
    | with_reducible apply nearHalves_keeps
    | with_reducible apply pushLoad_keeps
    | with_reducible apply keeps_ite
    | intro _
    | split

theorem localOp_keeps (e : EngId) (o : MemOp) (x : Access) (d : Nat) (res : Option Word) (hk : s.keeps kq km) :
    (State.localOp s e o x d res).keeps kq km := by
  unfold State.localOp
  repeat' first
    | with_reducible assumption
    | with_reducible apply modEng_keeps
    | with_reducible apply claimNear_keeps
    | with_reducible apply pushLoad_keeps
    | with_reducible apply localDo_keeps
    | with_reducible apply keeps_ite
    | intro _
    | split
    | dsimp only

theorem pumpFar_keeps (e : EngId) (kl : Nat) (hk : s.keeps kq km) :
    (State.pumpFar s e kl).keeps kq km := by
  induction kl generalizing s with
  | zero => exact hk
  | succ _ ih =>
    unfold State.pumpFar
    repeat' first
      | with_reducible assumption
      | with_reducible apply ih
      | with_reducible apply modEng_keeps
      | with_reducible apply issueReq_keeps
      | with_reducible apply keeps_ite
      | intro _
      | split

theorem farOp_keeps (e : EngId) (o : MemOp) (x : Access) (d : Nat) (res : Option Word) (hk : s.keeps kq km) :
    (State.farOp s e o x d res).keeps kq km := by
  unfold State.farOp
  repeat' first
    | with_reducible assumption
    | with_reducible apply modEng_keeps
    | with_reducible apply iftTake_keeps
    | with_reducible apply pumpFar_keeps

theorem memRun_keeps (e : EngId) (o : MemOp) (d : Nat) (hk : s.keeps kq km) :
    (State.memRun s e o d).keeps kq km := by
  unfold State.memRun
  repeat' first
    | with_reducible assumption
    | with_reducible apply drawn_keeps
    | with_reducible apply modEng_keeps
    | with_reducible apply localOp_keeps
    | with_reducible apply farOp_keeps
    | with_reducible apply keeps_ite
    | intro _

theorem memHeld_keeps (e : EngId) (o : MemOp) (hk : s.keeps kq km) :
    (State.memHeld s e o).2.keeps kq km := by
  unfold State.memHeld
  repeat' first
    | with_reducible assumption
    | with_reducible apply vitrines_keeps
    | with_reducible apply chargeStall_keeps
    | with_reducible apply keeps_ite
    | intro _
    | split

theorem lateRun_keeps (e : EngId) (hk : s.keeps kq km) :
    (State.lateRun s e).keeps kq km := by
  unfold State.lateRun
  repeat' first
    | with_reducible assumption
    | with_reducible apply modEng_keeps
    | with_reducible apply localDo_keeps
    | with_reducible apply memHeld_keeps
    | with_reducible apply keeps_ite
    | intro _
    | split

theorem lsuOp_keeps (e : EngId) (n : PairId) (code : Nat) (t : Word) (hk : s.keeps kq km) :
    (State.lsuOp s e n code t).keeps kq km := by
  unfold State.lsuOp
  repeat' first
    | with_reducible assumption
    | with_reducible apply perf_keeps
    | with_reducible apply meetSpar_keeps
    | with_reducible apply memFault_keeps
    | with_reducible apply noteWait_keeps
    | with_reducible apply memRun_keeps
    | with_reducible apply memHeld_keeps
    | with_reducible apply keeps_ite
    | intro _

theorem localResult_keeps (e : EngId) (n : PairId) (hk : s.keeps kq km) :
    (State.localResult s e n).keeps kq km := by
  unfold State.localResult
  repeat' first
    | with_reducible assumption
    | with_reducible apply modEng_keeps
    | with_reducible apply setPort_keeps
    | with_reducible apply deferred_keeps
    | with_reducible apply keeps_ite
    | intro _
    | split

theorem farFault_keeps (e : EngId) (f : FarOp) (hk : s.keeps kq km) :
    (State.farFault s e f).keeps kq km := by
  unfold State.farFault
  repeat' first
    | with_reducible assumption
    | with_reducible apply deferred_keeps
    | with_reducible apply keeps_ite
    | intro _
    | split

theorem farResult_keeps (e : EngId) (n : PairId) (hk : s.keeps kq km) :
    (State.farResult s e n).keeps kq km := by
  unfold State.farResult
  repeat' first
    | with_reducible assumption
    | with_reducible apply modEng_keeps
    | with_reducible apply iftFree_keeps
    | with_reducible apply farFault_keeps
    | with_reducible apply micro_keeps
    | with_reducible apply keeps_ite
    | intro _
    | split

theorem farStoreDone_keeps (e : EngId) (n : PairId) (hk : s.keeps kq km) :
    (State.farStoreDone s e n).keeps kq km := by
  unfold State.farStoreDone
  repeat' first
    | with_reducible assumption
    | with_reducible apply modEng_keeps
    | with_reducible apply iftFree_keeps
    | with_reducible apply farFault_keeps
    | with_reducible apply keeps_ite
    | intro _
    | split

theorem bmuEnd_keeps (e : EngId) (status : Word) (hk : s.keeps kq km) :
    (State.bmuEnd s e status).keeps kq km := by
  unfold State.bmuEnd
  repeat' first | with_reducible assumption | with_reducible apply modEng_keeps | with_reducible apply deliver_keeps

theorem modBmu_keeps (e : EngId) (f : BmuOp → BmuOp) (hk : s.keeps kq km) :
    (State.modBmu s e f).keeps kq km := by
  unfold State.modBmu
  repeat' first | with_reducible assumption | with_reducible apply modEng_keeps

theorem bmuDecide_keeps (e : EngId) (status : Word) (hk : s.keeps kq km) :
    (State.bmuDecide s e status).keeps kq km := by
  unfold State.bmuDecide
  repeat' first
    | with_reducible assumption
    | with_reducible apply drawn_keeps
    | with_reducible apply setPort_keeps
    | with_reducible apply modBmu_keeps
    | with_reducible apply keeps_ite
    | intro _
    | split

theorem bmuAdvance_keeps (e : EngId) (o : BmuOp) (n : Nat) (hk : s.keeps kq km) :
    (State.bmuAdvance s e o n).keeps kq km := by
  unfold State.bmuAdvance
  repeat' first | with_reducible assumption | with_reducible apply setPort_keeps | with_reducible apply keeps_ite | intro _

theorem bmuRetire_keeps (e : EngId) (kl : Nat) (hk : s.keeps kq km) :
    (State.bmuRetire s e kl).keeps kq km := by
  induction kl generalizing s with
  | zero => exact hk
  | succ _ ih =>
    unfold State.bmuRetire
    repeat' first
      | with_reducible assumption
      | with_reducible apply ih
      | with_reducible apply deferred_keeps
      | with_reducible apply modBmu_keeps
      | with_reducible apply bmuDecide_keeps
      | with_reducible apply bmuAdvance_keeps
      | with_reducible apply keeps_ite
      | intro _
      | split

theorem bmuSettle_keeps (e : EngId) (hk : s.keeps kq km) :
    (State.bmuSettle s e).keeps kq km := by
  unfold State.bmuSettle
  repeat' first | with_reducible assumption | with_reducible apply modBmu_keeps | with_reducible apply bmuRetire_keeps

theorem bmuData_keeps (e : EngId) (o : BmuOp) (el : BmuElem) (hk : s.keeps kq km) :
    (State.bmuData s e o el).2.keeps kq km := by
  unfold State.bmuData
  repeat' first
    | with_reducible assumption
    | with_reducible apply drawn_keeps
    | with_reducible apply keeps_ite
    | intro _
    | split

theorem bmuNear_keeps (e : EngId) (el : BmuElem) (sys : Nat) (wr toDst : Bool) (data : List Byte) (hk : s.keeps kq km) :
    (s.bmuNear e el sys wr toDst data).2.keeps kq km := by
  unfold State.bmuNear
  extract_lets ps ps' bad r r'
  have hr : r.2.keeps kq km := by
    refine foldl_snd_keeps (fun x p h => ?_) _ (([] : List Nat), s) hk
    exact eccWrite_keeps e.val _ _ h
  have hr' : r'.2.2.keeps kq km := by
    refine foldl_thd_keeps (fun x p h => ?_) _ (([] : List Nat), ([] : List Byte), s) hk
    exact nearRead_keeps e _ _ h
  clear_value r r'
  exact pair_ite_keeps
    (fun _ => pair_ite_keeps (fun _ => pair_keeps _ (portWrite_keeps e true false sys data hr)) (fun _ => pair_keeps _ hr))
    (fun _ => pair_ite_keeps (fun _ => pair_keeps _ hr')
      (fun _ => pair_ite_keeps (fun _ => pair_keeps _ hr') (fun _ => pair_keeps _ hr')))

theorem bmuPump_keeps (e : EngId) (el : BmuElem) (hk : s.keeps kq km) :
    (State.bmuPump s e el).2.keeps kq km := by
  unfold State.bmuPump
  repeat' first
    | with_reducible assumption
    | with_reducible apply issueReq_keeps
    | with_reducible apply keeps_ite
    | intro _
    | split

theorem bmuFar_keeps (e : EngId) (o : BmuOp) (el : BmuElem) (a : Word) (sys : Nat) (wr : Bool) (data : List Byte) (hk : s.keeps kq km) :
    (State.bmuFar s e o el a sys wr data).2.keeps kq km := by
  unfold State.bmuFar
  repeat' first | with_reducible assumption | with_reducible apply bmuPump_keeps

theorem bmuPumpAll_keeps (e : EngId) (hk : s.keeps kq km) :
    (State.bmuPumpAll s e).keeps kq km := by
  unfold State.bmuPumpAll
  repeat' first
    | with_reducible assumption
    | with_reducible apply modBmu_keeps
    | with_reducible apply bmuPump_keeps
    | with_reducible apply keeps_ite
    | with_reducible apply foldl_keeps
    | with_reducible apply foldl_fst_keeps
    | with_reducible apply foldl_snd_keeps
    | intro _
    | split

theorem bmuFinish_keeps (e : EngId) (hk : s.keeps kq km) :
    (State.bmuFinish s e).keeps kq km := by
  unfold State.bmuFinish
  repeat' first
    | with_reducible assumption
    | with_reducible apply bmuEnd_keeps
    | with_reducible apply keeps_ite
    | intro _
    | split

theorem bmuStart_keeps (e : EngId) (code d : Nat) (t : Word) (hk : s.keeps kq km) :
    (State.bmuStart s e code d t).keeps kq km := by
  unfold State.bmuStart
  repeat' first
    | with_reducible assumption
    | with_reducible apply modEng_keeps
    | with_reducible apply trigger_keeps
    | with_reducible apply modBmu_keeps
    | with_reducible apply bmuRetire_keeps
    | with_reducible apply keeps_ite
    | intro _
    | split
    | dsimp only

theorem bmuOp_keeps (e : EngId) (code : Nat) (t : Word) (hk : s.keeps kq km) :
    (State.bmuOp s e code t).keeps kq km := by
  unfold State.bmuOp
  repeat' first
    | with_reducible assumption
    | with_reducible apply meetSpar_keeps
    | with_reducible apply memFault_keeps
    | with_reducible apply bmuStart_keeps
    | with_reducible apply keeps_ite
    | intro _
    | split

end Sys2Proof.Laws
end

