-- ==== Sys2Proof/Laws/KeepsEngine.lean ====
section
/-! SUPPORT. What the operations of pins, timers, angle bases and the engines keep: canonical maps, the queue, and the engines that are present. -/

namespace Sys2Proof.Laws

open Sys2Proof.Machine

variable {kq : List Instr} {km : Half} {s : State}

theorem makeSafe_keeps (p : PinId) (hk : s.keeps kq km) :
    (State.makeSafe s p).keeps kq km := by
  unfold State.makeSafe
  repeat' first | with_reducible assumption | with_reducible apply modPin_keeps

theorem groupSafe_keeps (g : Nat) (hk : s.keeps kq km) :
    (State.groupSafe s g).keeps kq km := by
  unfold State.groupSafe
  repeat' first
    | with_reducible assumption
    | with_reducible apply orReg_keeps
    | with_reducible apply forAll_keeps
    | with_reducible apply makeSafe_keeps
    | with_reducible apply keeps_ite
    | with_reducible apply forAll_keeps
    | intro _

theorem groupHold_keeps (g : Nat) (hk : s.keeps kq km) :
    (State.groupHold s g).keeps kq km := by
  unfold State.groupHold
  repeat' first
    | with_reducible assumption
    | with_reducible apply orReg_keeps
    | with_reducible apply modPin_keeps
    | with_reducible apply forAll_keeps
    | with_reducible apply keeps_ite
    | with_reducible apply forAll_keeps
    | intro _

theorem groupsSafe_keeps (mask : Nat) (hk : s.keeps kq km) :
    (State.groupsSafe s mask).keeps kq km := by
  unfold State.groupsSafe
  repeat' first
    | with_reducible assumption
    | with_reducible apply groupSafe_keeps
    | with_reducible apply keeps_ite
    | with_reducible apply foldl_keeps
    | with_reducible apply foldl_fst_keeps
    | with_reducible apply foldl_snd_keeps
    | intro _

theorem groupJoin_keeps (g : Nat) (hk : s.keeps kq km) :
    (State.groupJoin s g).keeps kq km := by
  unfold State.groupJoin
  repeat' first
    | with_reducible assumption
    | with_reducible apply modPin_keeps
    | with_reducible apply forAll_keeps
    | with_reducible apply makeSafe_keeps
    | with_reducible apply keeps_ite
    | with_reducible apply forAll_keeps
    | intro _

theorem drivePin_keeps (p : PinId) (lvl : Bool) (t : Stamp) (hk : s.keeps kq km) :
    (State.drivePin s p lvl t).keeps kq km := by
  unfold State.drivePin
  repeat' first | with_reducible assumption | with_reducible apply modPin_keeps

theorem placeEdge_keeps (p : PinId) (t : Stamp) (kind width : Nat) (hk : s.keeps kq km) :
    (State.placeEdge s p t kind width).keeps kq km := by
  unfold State.placeEdge
  repeat' first
    | with_reducible assumption
    | with_reducible apply orReg_keeps
    | with_reducible apply setPin_keeps
    | with_reducible apply log_keeps
    | with_reducible apply keeps_ite
    | with_reducible apply foldl_keeps
    | with_reducible apply foldl_fst_keeps
    | with_reducible apply foldl_snd_keeps
    | intro _

theorem edgePlace_keeps (p : PinId) (hk : s.keeps kq km) :
    (State.edgePlace s p).keeps kq km := by
  unfold State.edgePlace
  repeat' first
    | with_reducible assumption
    | with_reducible apply setPin_keeps
    | with_reducible apply drivePin_keeps
    | with_reducible apply keeps_ite
    | intro _
    | split
    | dsimp only

theorem rbError_keeps (p : PinId) (hk : s.keeps kq km) :
    (State.rbError s p).keeps kq km := by
  unfold State.rbError
  repeat' first
    | with_reducible assumption
    | with_reducible apply orReg_keeps
    | with_reducible apply modPin_keeps
    | with_reducible apply log_keeps
    | with_reducible apply makeSafe_keeps
    | with_reducible apply groupSafe_keeps
    | with_reducible apply keeps_ite
    | with_reducible apply foldl_keeps
    | with_reducible apply foldl_fst_keeps
    | with_reducible apply foldl_snd_keeps
    | intro _

theorem rbRelease_keeps (hi : Bool) (mask : Word) (hk : s.keeps kq km) :
    (State.rbRelease s hi mask).keeps kq km := by
  unfold State.rbRelease
  repeat' first
    | with_reducible assumption
    | with_reducible apply clrReg_keeps
    | with_reducible apply modPin_keeps
    | with_reducible apply forAll_keeps
    | with_reducible apply keeps_ite
    | with_reducible apply forAll_keeps
    | intro _

theorem tbRead_keeps  (hk : s.keeps kq km) :
    (State.tbRead s).2.keeps kq km := by
  unfold State.tbRead
  repeat' first | with_reducible assumption | with_reducible apply setReg_keeps

theorem wcNote_keeps (m : WcId) (hk : s.keeps kq km) :
    (State.wcNote s m).keeps kq km := by
  unfold State.wcNote
  repeat' first
    | with_reducible assumption
    | with_reducible apply modWc_keeps
    | with_reducible apply keeps_ite
    | intro _
    | split

theorem wcSetCnt_keeps (m : WcId) (v : Word) (hk : s.keeps kq km) :
    (State.wcSetCnt s m v).keeps kq km := by
  unfold State.wcSetCnt
  repeat' first
    | with_reducible assumption
    | with_reducible apply setReg_keeps
    | with_reducible apply setWc_keeps
    | with_reducible apply keeps_ite
    | intro _

theorem wcPins_keeps (m : WcId) (k : ChId) (lvl : Bool) (t : Stamp) (hk : s.keeps kq km) :
    (State.wcPins s m k lvl t).keeps kq km := by
  unfold State.wcPins
  repeat' first
    | with_reducible assumption
    | with_reducible apply forAll_keeps
    | with_reducible apply drivePin_keeps
    | with_reducible apply keeps_ite
    | with_reducible apply forAll_keeps
    | intro _

theorem wcOut_keeps (m : WcId) (k : ChId) (lvl : Bool) (t : Stamp) (hk : s.keeps kq km) :
    (State.wcOut s m k lvl t).keeps kq km := by
  unfold State.wcOut
  repeat' first | with_reducible assumption | with_reducible apply modWc_keeps | with_reducible apply wcPins_keeps

theorem wcAction_keeps (m : WcId) (k : ChId) (act : Nat) (t : Stamp) (hk : s.keeps kq km) :
    (State.wcAction s m k act t).keeps kq km := by
  unfold State.wcAction
  repeat' first
    | with_reducible assumption
    | with_reducible apply wcOut_keeps
    | with_reducible apply keeps_ite
    | intro _
    | split

theorem wcInit_keeps (m : WcId) (cfg : Word) (hk : s.keeps kq km) :
    (State.wcInit s m cfg).keeps kq km := by
  unfold State.wcInit
  repeat' first
    | with_reducible assumption
    | with_reducible apply forAll_keeps
    | with_reducible apply wcOut_keeps
    | with_reducible apply keeps_ite
    | with_reducible apply forAll_keeps
    | intro _

theorem wcLoadCmp_keeps (m : WcId) (hk : s.keeps kq km) :
    (State.wcLoadCmp s m).keeps kq km := by
  unfold State.wcLoadCmp
  repeat' first | with_reducible assumption | with_reducible apply modWc_keeps

theorem wcLoadPer_keeps (m : WcId) (hk : s.keeps kq km) :
    (State.wcLoadPer s m).keeps kq km := by
  unfold State.wcLoadPer
  repeat' first | with_reducible assumption | with_reducible apply clrReg_keeps | with_reducible apply modWc_keeps

theorem wcKeep_keeps (m : WcId) (period : Bool) (hk : s.keeps kq km) :
    (State.wcKeep s m period).keeps kq km := by
  unfold State.wcKeep
  repeat' first | with_reducible assumption | with_reducible apply modWc_keeps

theorem wcResetAct_keeps (m : WcId) (h : WcHeld) (hk : s.keeps kq km) :
    (State.wcResetAct s m h).keeps kq km := by
  unfold State.wcResetAct
  repeat' first
    | with_reducible assumption
    | with_reducible apply clrReg_keeps
    | with_reducible apply putBit_keeps
    | with_reducible apply modWc_keeps
    | with_reducible apply wcNote_keeps
    | with_reducible apply wcSetCnt_keeps
    | with_reducible apply wcInit_keeps

theorem wcStartAct_keeps (m : WcId) (h : WcHeld) (hk : s.keeps kq km) :
    (State.wcStartAct s m h).keeps kq km := by
  unfold State.wcStartAct
  repeat' first
    | with_reducible assumption
    | with_reducible apply orReg_keeps
    | with_reducible apply modPin_keeps
    | with_reducible apply modWc_keeps
    | with_reducible apply forAll_keeps
    | with_reducible apply wcInit_keeps
    | with_reducible apply keeps_ite
    | with_reducible apply forAll_keeps
    | intro _

theorem wcStopAct_keeps (m : WcId) (hk : s.keeps kq km) :
    (State.wcStopAct s m).keeps kq km := by
  unfold State.wcStopAct
  repeat' first | with_reducible assumption | with_reducible apply clrReg_keeps

theorem wcApply_keeps (m : WcId) (h : WcHeld) (acts : List WcAct) (hk : s.keeps kq km) :
    (State.wcApply s m h acts).keeps kq km := by
  unfold State.wcApply
  repeat' first
    | with_reducible assumption
    | with_reducible apply reset_keeps
    | with_reducible apply wcResetAct_keeps
    | with_reducible apply wcStartAct_keeps
    | with_reducible apply wcStopAct_keeps
    | with_reducible apply start_keeps
    | with_reducible apply keeps_ite
    | intro _

theorem wcByEvent_keeps (m : WcId) (acts : List WcAct) (hk : s.keeps kq km) :
    (State.wcByEvent s m acts).keeps kq km := by
  unfold State.wcByEvent
  repeat' first | with_reducible assumption | with_reducible apply modWc_keeps

theorem wcByWrite_keeps (m : WcId) (acts : List WcAct) (hk : s.keeps kq km) :
    (State.wcByWrite s m acts).keeps kq km := by
  unfold State.wcByWrite
  repeat' first | with_reducible assumption | with_reducible apply modWc_keeps

theorem wcPeriodDo_keeps (m : WcId) (hk : s.keeps kq km) :
    (State.wcPeriodDo s m).keeps kq km := by
  unfold State.wcPeriodDo
  repeat' first
    | with_reducible assumption
    | with_reducible apply orReg_keeps
    | with_reducible apply wcLoadPer_keeps
    | with_reducible apply keeps_ite
    | intro _

theorem wcRewrite_keeps (m : WcId) (h : WcHeld) (hk : s.keeps kq km) :
    (State.wcRewrite s m h).keeps kq km := by
  unfold State.wcRewrite
  repeat' first
    | with_reducible assumption
    | with_reducible apply modWc_keeps
    | with_reducible apply wcPeriodDo_keeps
    | with_reducible apply keeps_ite
    | intro _

theorem wcEnd_keeps (m : WcId) (hk : s.keeps kq km) :
    (State.wcEnd s m).keeps kq km := by
  unfold State.wcEnd
  repeat' first
    | with_reducible assumption
    | with_reducible apply reset_keeps
    | with_reducible apply modWc_keeps
    | with_reducible apply wcApply_keeps
    | with_reducible apply wcRewrite_keeps
    | with_reducible apply keeps_ite
    | intro _

theorem wcArmDo_keeps (m : WcId) (hk : s.keeps kq km) :
    (State.wcArmDo s m).keeps kq km := by
  unfold State.wcArmDo
  repeat' first | with_reducible assumption | with_reducible apply orReg_keeps | with_reducible apply modWc_keeps

theorem wcLinks_keeps (m : WcId) (evs : List Nat) (hk : s.keeps kq km) :
    (State.wcLinks s m evs).keeps kq km := by
  unfold State.wcLinks
  repeat' first | with_reducible assumption | with_reducible apply modWc_keeps | with_reducible apply wcByEvent_keeps

theorem wcEvents_keeps (m : WcId) (top bot asym wrap : Bool) (ms : List ChId) (down : Bool) (hk : s.keeps kq km) :
    (State.wcEvents s m top bot asym wrap ms down).keeps kq km := by
  unfold State.wcEvents
  repeat' first
    | with_reducible assumption
    | with_reducible apply orReg_keeps
    | with_reducible apply modWc_keeps
    | with_reducible apply forAll_keeps
    | with_reducible apply wcAction_keeps
    | with_reducible apply wcLoadCmp_keeps
    | with_reducible apply wcLoadPer_keeps
    | with_reducible apply wcLinks_keeps
    | with_reducible apply keeps_ite
    | with_reducible apply forAll_keeps
    | with_reducible apply foldl_keeps
    | with_reducible apply foldl_fst_keeps
    | with_reducible apply foldl_snd_keeps
    | intro _

theorem wcCascade_keeps (m : WcId) (hk : s.keeps kq km) :
    (State.wcCascade s m).keeps kq km := by
  unfold State.wcCascade
  repeat' first
    | with_reducible assumption
    | with_reducible apply wcNote_keeps
    | with_reducible apply wcSetCnt_keeps
    | with_reducible apply wcEvents_keeps

theorem wcTick_keeps (m : WcId) (hk : s.keeps kq km) :
    (State.wcTick s m).keeps kq km := by
  unfold State.wcTick
  repeat' first
    | with_reducible assumption
    | with_reducible apply putBit_keeps
    | with_reducible apply modWc_keeps
    | with_reducible apply wcNote_keeps
    | with_reducible apply wcSetCnt_keeps
    | with_reducible apply wcEvents_keeps
    | with_reducible apply wcCascade_keeps
    | with_reducible apply keeps_ite
    | intro _
    | split

theorem wcPeriod_keeps (m : WcId) (v : Word) (hk : s.keeps kq km) :
    (State.wcPeriod s m v).keeps kq km := by
  unfold State.wcPeriod
  repeat' first
    | with_reducible assumption
    | with_reducible apply setReg_keeps
    | with_reducible apply wcKeep_keeps
    | with_reducible apply wcPeriodDo_keeps

theorem wcCompare_keeps (m : WcId) (k : ChId) (v : Word) (hk : s.keeps kq km) :
    (State.wcCompare s m k v).keeps kq km := by
  unfold State.wcCompare
  repeat' first
    | with_reducible assumption
    | with_reducible apply setReg_keeps
    | with_reducible apply modWc_keeps
    | with_reducible apply wcKeep_keeps
    | with_reducible apply keeps_ite
    | intro _

theorem wcWild_keeps (m : WcId) (hk : s.keeps kq km) :
    (State.wcWild s m).keeps kq km := by
  unfold State.wcWild
  repeat' first
    | with_reducible assumption
    | with_reducible apply drawWord_keeps
    | with_reducible apply setReg_keeps
    | with_reducible apply modWc_keeps
    | with_reducible apply forAll_keeps
    | with_reducible apply wcSetCnt_keeps
    | with_reducible apply wcOut_keeps
    | with_reducible apply keeps_ite
    | with_reducible apply forAll_keeps
    | intro _
    | split
    | with_reducible refine snd_keeps (by assumption) ?_
    | with_reducible refine thd_keeps (by assumption) ?_
    | dsimp only
    | with_reducible apply keeps_mk

theorem wcLinkWrite_keeps (m : WcId) (v : Word) (hk : s.keeps kq km) :
    (State.wcLinkWrite s m v).keeps kq km := by
  unfold State.wcLinkWrite
  repeat' first
    | with_reducible assumption
    | with_reducible apply setReg_keeps
    | with_reducible apply wcWild_keeps
    | with_reducible apply keeps_ite
    | intro _

theorem wcRead_keeps (m : WcId) (hk : s.keeps kq km) :
    (State.wcRead s m).2.keeps kq km := by
  unfold State.wcRead
  repeat' first
    | with_reducible assumption
    | with_reducible apply setReg_keeps
    | with_reducible apply orReg_keeps
    | with_reducible apply keeps_ite
    | intro _

theorem wcMask_keeps (mask : Word) (a : WcAct) (hk : s.keeps kq km) :
    (State.wcMask s mask a).keeps kq km := by
  unfold State.wcMask
  repeat' first
    | with_reducible assumption
    | with_reducible apply forAll_keeps
    | with_reducible apply wcByWrite_keeps
    | with_reducible apply keeps_ite
    | with_reducible apply forAll_keeps
    | intro _

theorem capEdge_keeps (n : WcId) (rising : Bool) (ts : Stamp) (hk : s.keeps kq km) :
    (State.capEdge s n rising ts).keeps kq km := by
  unfold State.capEdge
  repeat' first
    | with_reducible assumption
    | with_reducible apply setReg_keeps
    | with_reducible apply orReg_keeps
    | with_reducible apply putBit_keeps
    | with_reducible apply keeps_ite
    | intro _
    | split
    | dsimp only
    | with_reducible apply keeps_mk

theorem capRead_keeps (n : WcId) (falling : Bool) (hk : s.keeps kq km) :
    (State.capRead s n falling).2.keeps kq km := by
  unfold State.capRead
  repeat' first
    | with_reducible assumption
    | with_reducible apply setReg_keeps
    | with_reducible apply keeps_ite
    | intro _
    | split
    | dsimp only
    | with_reducible apply keeps_mk

theorem resync_keeps (r : BaseId) (hk : s.keeps kq km) :
    (State.resync s r).keeps kq km := by
  unfold State.resync
  repeat' first
    | with_reducible assumption
    | with_reducible apply setReg_keeps
    | with_reducible apply orReg_keeps
    | with_reducible apply setRing_keeps

theorem invSafe_keeps (r : BaseId) (hk : s.keeps kq km) :
    (State.invSafe s r).keeps kq km := by
  unfold State.invSafe
  repeat' first | with_reducible assumption | with_reducible apply groupSafe_keeps | with_reducible apply keeps_ite | intro _

theorem ringStep_keeps (r : BaseId) (d : Int) (hk : s.keeps kq km) :
    (State.ringStep s r d).keeps kq km := by
  unfold State.ringStep
  repeat' first | with_reducible assumption | with_reducible apply setRing_keeps | with_reducible apply keeps_ite | intro _

theorem almSees_keeps {s old : State} (b : BaseId) (step : Bool) (hk : s.keeps kq km) (hk1 : old.keeps kq km) :
    (State.almSees s old b step).keeps kq km := by
  unfold State.almSees
  repeat' first
    | with_reducible assumption
    | with_reducible apply resync_keeps
    | with_reducible apply invSafe_keeps
    | with_reducible apply ringStep_keeps
    | with_reducible apply keeps_ite
    | intro _

theorem almSeesAll_keeps {s old : State}  (hk : s.keeps kq km) (hk1 : old.keeps kq km) :
    (State.almSeesAll s old).keeps kq km := by
  unfold State.almSeesAll
  repeat' first
    | with_reducible assumption
    | with_reducible apply forAll_keeps
    | with_reducible apply almSees_keeps
    | with_reducible apply keeps_ite
    | with_reducible apply forAll_keeps
    | intro _

theorem baseEvent_keeps (b : BaseId) (p limit : DWord) (t : Stamp) (empty : Bool) (due : Option DWord) (hk : s.keeps kq km) :
    (State.baseEvent s b p limit t empty due).keeps kq km := by
  unfold State.baseEvent
  repeat' first
    | with_reducible assumption
    | with_reducible apply orReg_keeps
    | with_reducible apply setBase_keeps
    | with_reducible apply resume_keeps
    | with_reducible apply keeps_ite
    | intro _

theorem illegal_keeps (b : BaseId) (hk : s.keeps kq km) :
    (State.illegal s b).keeps kq km := by
  unfold State.illegal
  repeat' first
    | with_reducible assumption
    | with_reducible apply setReg_keeps
    | with_reducible apply orReg_keeps
    | with_reducible apply clrReg_keeps
    | with_reducible apply modBase_keeps
    | with_reducible apply log_keeps
    | with_reducible apply almSees_keeps
    | with_reducible apply keeps_ite
    | intro _

theorem countEvent_keeps (b : BaseId) (fwd : Bool) (t : Stamp) (hk : s.keeps kq km) :
    (State.countEvent s b fwd t).keeps kq km := by
  unfold State.countEvent
  repeat' first
    | with_reducible assumption
    | with_reducible apply setReg_keeps
    | with_reducible apply orReg_keeps
    | with_reducible apply putBit_keeps
    | with_reducible apply modBase_keeps
    | with_reducible apply almSees_keeps
    | with_reducible apply baseEvent_keeps
    | with_reducible apply keeps_ite
    | intro _

theorem counted_keeps (b : BaseId) (fwd : Bool) (t : Stamp) (hk : s.keeps kq km) :
    (State.counted s b fwd t).keeps kq km := by
  unfold State.counted
  repeat' first
    | with_reducible assumption
    | with_reducible apply modBase_keeps
    | with_reducible apply illegal_keeps
    | with_reducible apply countEvent_keeps
    | with_reducible apply keeps_ite
    | intro _

theorem quadrature_keeps (b : BaseId) (ev : QuadEdge) (hk : s.keeps kq km) :
    (State.quadrature s b ev).keeps kq km := by
  unfold State.quadrature
  repeat' first
    | with_reducible assumption
    | with_reducible apply setBase_keeps
    | with_reducible apply illegal_keeps
    | with_reducible apply counted_keeps
    | with_reducible apply keeps_ite
    | intro _

theorem timedT0_keeps (b : BaseId) (t : Stamp) (t1 : Bool) (hk : s.keeps kq km) :
    (State.timedT0 s b t t1).keeps kq km := by
  unfold State.timedT0
  repeat' first | with_reducible assumption | with_reducible apply counted_keeps | with_reducible apply keeps_ite | intro _

theorem timedT1_keeps (b : BaseId) (hk : s.keeps kq km) :
    (State.timedT1 s b).keeps kq km := by
  unfold State.timedT1
  repeat' first | with_reducible assumption | with_reducible apply modBase_keeps | with_reducible apply keeps_ite | intro _

theorem ssiStart_keeps (b : BaseId) (hk : s.keeps kq km) :
    (State.ssiStart s b).keeps kq km := by
  unfold State.ssiStart
  repeat' first | with_reducible assumption | with_reducible apply modBase_keeps | with_reducible apply keeps_ite | intro _

theorem ssiEvent_keeps (b : BaseId) (raw : SsiWord) (hk : s.keeps kq km) :
    (State.ssiEvent s b raw).keeps kq km := by
  unfold State.ssiEvent
  repeat' first
    | with_reducible assumption
    | with_reducible apply orReg_keeps
    | with_reducible apply putBit_keeps
    | with_reducible apply modBase_keeps
    | with_reducible apply almSees_keeps
    | with_reducible apply baseEvent_keeps
    | with_reducible apply keeps_ite
    | intro _
    | split
    | dsimp only

theorem ssiSample_keeps (b : BaseId) (raw : SsiWord) (hk : s.keeps kq km) :
    (State.ssiSample s b raw).keeps kq km := by
  unfold State.ssiSample
  repeat' first
    | with_reducible assumption
    | with_reducible apply orReg_keeps
    | with_reducible apply modBase_keeps
    | with_reducible apply ssiEvent_keeps
    | with_reducible apply keeps_ite
    | intro _

theorem mainsReject_keeps (b : BaseId) (hk : s.keeps kq km) :
    (State.mainsReject s b).keeps kq km := by
  unfold State.mainsReject
  repeat' first
    | with_reducible assumption
    | with_reducible apply orReg_keeps
    | with_reducible apply clrReg_keeps
    | with_reducible apply modBase_keeps
    | with_reducible apply keeps_ite
    | intro _

theorem mainsAccept_keeps (b : BaseId) (rising : Bool) (t prev : Stamp) (hk : s.keeps kq km) :
    (State.mainsAccept s b rising t prev).keeps kq km := by
  unfold State.mainsAccept
  repeat' first
    | with_reducible assumption
    | with_reducible apply orReg_keeps
    | with_reducible apply setBase_keeps
    | with_reducible apply modBase_keeps
    | with_reducible apply almSees_keeps
    | with_reducible apply resume_keeps
    | with_reducible apply keeps_ite
    | intro _

theorem mainsCrossing_keeps (b : BaseId) (rising : Bool) (t : Stamp) (hk : s.keeps kq km) :
    (State.mainsCrossing s b rising t).keeps kq km := by
  unfold State.mainsCrossing
  repeat' first
    | with_reducible assumption
    | with_reducible apply modBase_keeps
    | with_reducible apply mainsReject_keeps
    | with_reducible apply mainsAccept_keeps
    | with_reducible apply keeps_ite
    | intro _
    | split

theorem mainsTimeout_keeps (b : BaseId) (hk : s.keeps kq km) :
    (State.mainsTimeout s b).keeps kq km := by
  unfold State.mainsTimeout
  repeat' first
    | with_reducible assumption
    | with_reducible apply modBase_keeps
    | with_reducible apply mainsReject_keeps
    | with_reducible apply keeps_ite
    | intro _

theorem edgeDo_keeps (b : BaseId) (k : BaseEdge) (hk : s.keeps kq km) :
    (State.edgeDo s b k).keeps kq km := by
  unfold State.edgeDo
  repeat' first
    | with_reducible assumption
    | with_reducible apply quadrature_keeps
    | with_reducible apply timedT0_keeps
    | with_reducible apply timedT1_keeps
    | with_reducible apply mainsCrossing_keeps
    | with_reducible apply keeps_ite
    | intro _
    | split

theorem edgeIn_keeps (b : BaseId) (t : Stamp) (held : Nat) (k : BaseEdge) (hk : s.keeps kq km) :
    (State.edgeIn s b t held k).keeps kq km := by
  unfold State.edgeIn
  repeat' first
    | with_reducible assumption
    | with_reducible apply modBase_keeps
    | with_reducible apply edgeDo_keeps
    | with_reducible apply keeps_ite
    | intro _

theorem edgesDue_keeps (b : BaseId) (hk : s.keeps kq km) :
    (State.edgesDue s b).keeps kq km := by
  unfold State.edgesDue
  repeat' first
    | with_reducible assumption
    | with_reducible apply modBase_keeps
    | with_reducible apply edgeDo_keeps
    | with_reducible apply keeps_ite
    | with_reducible apply foldl_keeps
    | with_reducible apply foldl_fst_keeps
    | with_reducible apply foldl_snd_keeps
    | intro _

theorem snapArrive_keeps (b : BaseId) (n : Snap) (hk : s.keeps kq km) :
    (State.snapArrive s b n).keeps kq km := by
  unfold State.snapArrive
  repeat' first
    | with_reducible assumption
    | with_reducible apply orReg_keeps
    | with_reducible apply modBase_keeps
    | with_reducible apply almSees_keeps
    | with_reducible apply resume_keeps
    | with_reducible apply keeps_ite
    | intro _

theorem silence_keeps (b : BaseId) (hk : s.keeps kq km) :
    (State.silence s b).keeps kq km := by
  unfold State.silence
  repeat' first
    | with_reducible assumption
    | with_reducible apply orReg_keeps
    | with_reducible apply clrReg_keeps
    | with_reducible apply modBase_keeps
    | with_reducible apply keeps_ite
    | intro _

theorem vmAccumulate_keeps (b : BaseId) (hk : s.keeps kq km) :
    (State.vmAccumulate s b).keeps kq km := by
  unfold State.vmAccumulate
  repeat' first | with_reducible assumption | with_reducible apply modBase_keeps | with_reducible apply keeps_ite | intro _

theorem applyVirtual_keeps (b : BaseId) (withph : Bool) (hk : s.keeps kq km) :
    (State.applyVirtual s b withph).keeps kq km := by
  unfold State.applyVirtual
  repeat' first
    | with_reducible assumption
    | with_reducible apply orReg_keeps
    | with_reducible apply setBase_keeps
    | with_reducible apply almSees_keeps
    | with_reducible apply keeps_ite
    | intro _

theorem applyCount_keeps (b : BaseId) (hk : s.keeps kq km) :
    (State.applyCount s b).keeps kq km := by
  unfold State.applyCount
  repeat' first
    | with_reducible assumption
    | with_reducible apply setReg_keeps
    | with_reducible apply orReg_keeps
    | with_reducible apply modBase_keeps
    | with_reducible apply almSees_keeps
    | with_reducible apply keeps_ite
    | intro _

theorem applySsi_keeps (b : BaseId) (hk : s.keeps kq km) :
    (State.applySsi s b).keeps kq km := by
  unfold State.applySsi
  repeat' first
    | with_reducible assumption
    | with_reducible apply orReg_keeps
    | with_reducible apply modBase_keeps
    | with_reducible apply almSees_keeps

theorem stagedArm_keeps (b : BaseId) (hk : s.keeps kq km) :
    (State.stagedArm s b).keeps kq km := by
  unfold State.stagedArm
  repeat' first | with_reducible assumption | with_reducible apply orReg_keeps | with_reducible apply modBase_keeps

theorem stagedApply_keeps (b : BaseId) (hk : s.keeps kq km) :
    (State.stagedApply s b).keeps kq km := by
  unfold State.stagedApply
  repeat' first
    | with_reducible assumption
    | with_reducible apply clrReg_keeps
    | with_reducible apply applyVirtual_keeps
    | with_reducible apply applyCount_keeps
    | with_reducible apply applySsi_keeps
    | with_reducible apply keeps_ite
    | intro _
    | split
    | dsimp only

theorem baseEnable_keeps (b : BaseId) (hk : s.keeps kq km) :
    (State.baseEnable s b).keeps kq km := by
  unfold State.baseEnable
  repeat' first
    | with_reducible assumption
    | with_reducible apply setReg_keeps
    | with_reducible apply orReg_keeps
    | with_reducible apply clrReg_keeps
    | with_reducible apply modBase_keeps
    | with_reducible apply almSees_keeps
    | with_reducible apply keeps_ite
    | intro _

theorem baseDisable_keeps (b : BaseId) (hk : s.keeps kq km) :
    (State.baseDisable s b).keeps kq km := by
  unfold State.baseDisable
  repeat' first | with_reducible assumption | with_reducible apply clrReg_keeps | with_reducible apply almSees_keeps

theorem baseLockstep_keeps (b : BaseId) (hk : s.keeps kq km) :
    (State.baseLockstep s b).keeps kq km := by
  unfold State.baseLockstep
  repeat' first
    | with_reducible assumption
    | with_reducible apply orReg_keeps
    | with_reducible apply clrReg_keeps
    | with_reducible apply modBase_keeps
    | with_reducible apply log_keeps
    | with_reducible apply raiseAll_keeps
    | with_reducible apply almSees_keeps
    | with_reducible apply keeps_ite
    | intro _

theorem phaseRead_keeps (b : BaseId) (which : PhaseReg) (hk : s.keeps kq km) :
    (State.phaseRead s b which).2.keeps kq km := by
  unfold State.phaseRead
  repeat' first
    | with_reducible assumption
    | with_reducible apply setReg_keeps
    | with_reducible apply keeps_ite
    | intro _
    | split

theorem apuStart_keeps (e : EngId) (code d : Nat) (t : Word) (hk : s.keeps kq km) :
    (State.apuStart s e code d t).keeps kq km := by
  unfold State.apuStart
  repeat' first
    | with_reducible assumption
    | with_reducible apply modEng_keeps
    | with_reducible apply trigger_keeps
    | with_reducible apply keeps_ite
    | intro _

theorem apuEval_keeps (e : EngId) (hk : s.keeps kq km) :
    (State.apuEval s e).keeps kq km := by
  unfold State.apuEval
  repeat' first
    | with_reducible assumption
    | with_reducible apply modEng_keeps
    | with_reducible apply setUnit_keeps
    | with_reducible apply keeps_ite
    | intro _

theorem apuOp_keeps (e : EngId) (code : Nat) (t : Word) (hk : s.keeps kq km) :
    (State.apuOp s e code t).keeps kq km := by
  unfold State.apuOp
  repeat' first
    | with_reducible assumption
    | with_reducible apply meetSpar_keeps
    | with_reducible apply apuStart_keeps
    | with_reducible apply keeps_ite
    | intro _

theorem apuTest_keeps (e : EngId) (hk : s.keeps kq km) :
    (State.apuTest s e).keeps kq km := by
  unfold State.apuTest
  repeat' first
    | with_reducible assumption
    | with_reducible apply modEng_keeps
    | with_reducible apply keeps_ite
    | intro _
    | split

theorem apuComplete_keeps (e : EngId) (hk : s.keeps kq km) :
    (State.apuComplete s e).keeps kq km := by
  unfold State.apuComplete
  repeat' first
    | with_reducible assumption
    | with_reducible apply modEng_keeps
    | with_reducible apply complete_keeps
    | with_reducible apply deliver_keeps
    | with_reducible apply keeps_ite
    | intro _
    | split

theorem xioQueue_keeps (e : EngId) (alw : Bool) (d : Nat) (t : Word) (hk : s.keeps kq km) :
    (State.xioQueue s e alw d t).keeps kq km := by
  unfold State.xioQueue
  repeat' first | with_reducible assumption | with_reducible apply modEng_keeps

theorem xioPop_keeps (e : EngId) (hk : s.keeps kq km) :
    (State.xioPop s e).keeps kq km := by
  unfold State.xioPop
  repeat' first | with_reducible assumption | with_reducible apply modEng_keeps

theorem inbound_keeps (e : EngId) (kind src : Nat) (lo hi : Word) (hk : s.keeps kq km) :
    (State.inbound s e kind src lo hi).keeps kq km := by
  unfold State.inbound
  repeat' first | with_reducible assumption | with_reducible apply modEng_keeps

theorem xioOp_keeps (e : EngId) (alw : Bool) (t : Word) (hk : s.keeps kq km) :
    (State.xioOp s e alw t).keeps kq km := by
  unfold State.xioOp
  repeat' first
    | with_reducible assumption
    | with_reducible apply meetSpar_keeps
    | with_reducible apply xioQueue_keeps
    | with_reducible apply keeps_ite
    | intro _

theorem endRep_keeps (e : EngId) (hk : s.keeps kq km) :
    (State.endRep s e).keeps kq km := by
  unfold State.endRep
  repeat' first
    | with_reducible assumption
    | with_reducible apply modEng_keeps
    | with_reducible apply setPort_keeps
    | with_reducible apply keeps_ite
    | intro _

theorem takeBranch_keeps (e : EngId) (t : Word) (hk : s.keeps kq km) :
    (State.takeBranch s e t).keeps kq km := by
  unfold State.takeBranch
  repeat' first | with_reducible assumption | with_reducible apply modEng_keeps | with_reducible apply endRep_keeps

theorem setLps_keeps (e : EngId) (k : Fin 2) (v : Word) (hk : s.keeps kq km) :
    (State.setLps s e k v).keeps kq km := by
  unfold State.setLps
  repeat' first | with_reducible assumption | with_reducible apply modEng_keeps | with_reducible apply setPort_keeps

theorem loopTest_keeps (e : EngId) (a : Word) (hk : s.keeps kq km) : (s.loopTest e a).2.keeps kq km := by
  unfold State.loopTest
  extract_lets level
  have hl : ∀ k t, t.keeps kq km → ∀ p, level k t = some p → p.2.keeps kq km := by
    intro k t ht p hp
    simp only [level] at hp
    split at hp
    · split at hp
      · obtain rfl := Option.some.inj hp; exact setPort_keeps e _ _ ht
      · obtain rfl := Option.some.inj hp; exact setPort_keeps e _ _ ht
    · cases hp
  split
  · next k w h => exact hl 1 s hk _ h
  · next w h =>
    have hw : w.keeps kq km := hl 1 s hk _ h
    split
    · next r hr => exact hl 0 w hw _ hr
    · exact hw
  · split
    · next r hr => exact hl 0 s hk _ hr
    · exact hk

theorem loopBack_keeps (e : EngId) (k : Fin 2) (hk : s.keeps kq km) :
    (State.loopBack s e k).keeps kq km := by
  unfold State.loopBack
  repeat' first | with_reducible assumption | with_reducible apply modEng_keeps

theorem nextByLoop_keeps (e : EngId) (a nxt : Word) (hk : s.keeps kq km) : (s.nextByLoop e a nxt).keeps kq km := by
  unfold State.nextByLoop
  split
  · exact modEng_keeps e _ hk
  · dsimp only
    split
    · exact modEng_keeps e _ (loopBack_keeps e _ (loopTest_keeps e a hk))
    · exact modEng_keeps e _ (loopTest_keeps e a hk)

theorem leaveGroup_keeps (e : EngId) (a nxt : Word) (hk : s.keeps kq km) :
    (State.leaveGroup s e a nxt).keeps kq km := by
  unfold State.leaveGroup
  repeat' first
    | with_reducible assumption
    | with_reducible apply modEng_keeps
    | with_reducible apply nextByLoop_keeps
    | with_reducible apply keeps_ite
    | intro _

theorem repTest_keeps (e : EngId) (hk : s.keeps kq km) :
    (State.repTest s e).keeps kq km := by
  unfold State.repTest
  repeat' first
    | with_reducible assumption
    | with_reducible apply modEng_keeps
    | with_reducible apply setPort_keeps
    | with_reducible apply leaveGroup_keeps
    | with_reducible apply keeps_ite
    | intro _

theorem applyPend_keeps (e : EngId) (hk : s.keeps kq km) :
    (State.applyPend s e).keeps kq km := by
  unfold State.applyPend
  repeat' first
    | with_reducible assumption
    | with_reducible apply modEng_keeps
    | with_reducible apply setPort_keeps
    | with_reducible apply keeps_ite
    | intro _
    | split

theorem syncDone_keeps (e : EngId) (hk : s.keeps kq km) :
    (State.syncDone s e).keeps kq km := by
  unfold State.syncDone
  repeat' first | with_reducible assumption | with_reducible apply modEng_keeps | with_reducible apply applyPend_keeps

theorem ctlDo_keeps (e : EngId) (code d : Nat) (t : Word) (hk : s.keeps kq km) :
    (State.ctlDo s e code d t).keeps kq km := by
  unfold State.ctlDo
  repeat' first
    | with_reducible assumption
    | with_reducible apply modEng_keeps
    | with_reducible apply setPort_keeps
    | with_reducible apply trigger_keeps
    | with_reducible apply endRep_keeps
    | with_reducible apply takeBranch_keeps
    | with_reducible apply setLps_keeps
    | with_reducible apply keeps_ite
    | intro _
    | split

theorem ctlOp_keeps (e : EngId) (code : Nat) (t : Word) (hk : s.keeps kq km) :
    (State.ctlOp s e code t).keeps kq km := by
  unfold State.ctlOp
  repeat' first
    | with_reducible assumption
    | with_reducible apply setPort_keeps
    | with_reducible apply perf_keeps
    | with_reducible apply meetSpar_keeps
    | with_reducible apply leaveGroup_keeps
    | with_reducible apply ctlDo_keeps
    | with_reducible apply keeps_ite
    | intro _

theorem frameMiss_keeps (e : EngId) (f : FReq) (causes : Nat) (hk : s.keeps kq km) :
    (State.frameMiss s e f causes).keeps kq km := by
  unfold State.frameMiss
  repeat' first
    | with_reducible assumption
    | with_reducible apply orReg_keeps
    | with_reducible apply setFld_keeps
    | with_reducible apply incReg_keeps
    | with_reducible apply setFrames_keeps
    | with_reducible apply log_keeps
    | with_reducible apply raise_keeps
    | with_reducible apply groupSafe_keeps
    | with_reducible apply groupHold_keeps
    | with_reducible apply keeps_ite
    | intro _
    | split

theorem missFirst_keeps (e : EngId) (p : FReq → Bool) (hk : s.keeps kq km) :
    (State.missFirst s e p).keeps kq km := by
  unfold State.missFirst
  repeat' first
    | with_reducible assumption
    | with_reducible apply setFrames_keeps
    | with_reducible apply frameMiss_keeps
    | with_reducible apply keeps_ite
    | intro _
    | split
    | dsimp only

theorem budgetMiss_keeps (e : EngId) (hk : s.keeps kq km) :
    (State.budgetMiss s e).keeps kq km := by
  unfold State.budgetMiss
  repeat' first
    | with_reducible assumption
    | with_reducible apply setFrames_keeps
    | with_reducible apply frameMiss_keeps
    | with_reducible apply missFirst_keeps
    | with_reducible apply keeps_ite
    | intro _
    | split
    | dsimp only

theorem gustReport_keeps (e : EngId) (f : FReq) (hk : s.keeps kq km) :
    (State.gustReport s e f).keeps kq km := by
  unfold State.gustReport
  repeat' first
    | with_reducible assumption
    | with_reducible apply orReg_keeps
    | with_reducible apply setFld_keeps
    | with_reducible apply log_keeps
    | with_reducible apply raise_keeps
    | with_reducible apply keeps_ite
    | intro _

theorem gustOverrun_keeps (e : EngId) (hk : s.keeps kq km) :
    (State.gustOverrun s e).keeps kq km := by
  unfold State.gustOverrun
  repeat' first
    | with_reducible assumption
    | with_reducible apply setFrames_keeps
    | with_reducible apply gustReport_keeps
    | with_reducible apply keeps_ite
    | intro _
    | split
    | dsimp only

theorem emuSave_keeps (e : EngId) (x : Nat) (hk : s.keeps kq km) :
    (State.emuSave s e x).keeps kq km := by
  unfold State.emuSave
  repeat' first
    | with_reducible assumption
    | with_reducible apply setReg_keeps
    | with_reducible apply keeps_ite
    | with_reducible apply foldl_keeps
    | with_reducible apply foldl_fst_keeps
    | with_reducible apply foldl_snd_keeps
    | intro _

theorem emuRestore_keeps (e : EngId) (x t : Nat) (frame : Bool) (hk : s.keeps kq km) :
    (State.emuRestore s e x t frame).keeps kq km := by
  unfold State.emuRestore
  repeat' first
    | with_reducible assumption
    | with_reducible apply setReg_keeps
    | with_reducible apply modEng_keeps
    | with_reducible apply setPort_keeps
    | with_reducible apply start_keeps
    | with_reducible apply keeps_ite
    | with_reducible apply foldl_keeps
    | with_reducible apply foldl_fst_keeps
    | with_reducible apply foldl_snd_keeps
    | intro _

theorem frameArrival_keeps (e : EngId) (hk : s.keeps kq km) :
    (State.frameArrival s e).keeps kq km := by
  unfold State.frameArrival
  repeat' first
    | with_reducible assumption
    | with_reducible apply orReg_keeps
    | with_reducible apply setFrames_keeps
    | with_reducible apply frameMiss_keeps
    | with_reducible apply keeps_ite
    | intro _
    | split
    | dsimp only

theorem restoreLoops_keeps (e : EngId) (ws : List Word) (hk : s.keeps kq km) :
    (State.restoreLoops s e ws).keeps kq km := by
  unfold State.restoreLoops
  repeat' first
    | with_reducible assumption
    | with_reducible apply modEng_keeps
    | with_reducible apply setPort_keeps
    | with_reducible apply keeps_ite
    | with_reducible apply foldl_keeps
    | with_reducible apply foldl_fst_keeps
    | with_reducible apply foldl_snd_keeps
    | intro _

theorem frameStart_keeps (e : EngId) (hk : s.keeps kq km) :
    (State.frameStart s e).keeps kq km := by
  unfold State.frameStart
  repeat' first
    | with_reducible assumption
    | with_reducible apply setReg_keeps
    | with_reducible apply modEng_keeps
    | with_reducible apply setFrames_keeps
    | with_reducible apply perf_keeps
    | with_reducible apply repTest_keeps
    | with_reducible apply emuSave_keeps
    | with_reducible apply entry_keeps
    | with_reducible apply start_keeps
    | with_reducible apply keeps_ite
    | intro _
    | split

theorem frameEnd_keeps (e : EngId) (hk : s.keeps kq km) :
    (State.frameEnd s e).keeps kq km := by
  unfold State.frameEnd
  repeat' first
    | with_reducible assumption
    | with_reducible apply clrReg_keeps
    | with_reducible apply modEng_keeps
    | with_reducible apply setFrames_keeps
    | with_reducible apply emuRestore_keeps
    | with_reducible apply restoreLoops_keeps
    | with_reducible apply keeps_ite
    | intro _
    | split
    | dsimp only

theorem startHandler_keeps (e : EngId) (w : Word) (t : Nat) (hk : s.keeps kq km) :
    (State.startHandler s e w t).keeps kq km := by
  unfold State.startHandler
  repeat' first | with_reducible assumption | with_reducible apply modEng_keeps

theorem vecWord_keeps (e : EngId) (vec : Nat) (w : Word) (hk : s.keeps kq km) :
    (State.vecWord s e vec w).2.keeps kq km := by
  unfold State.vecWord
  repeat' first
    | with_reducible assumption
    | with_reducible apply drawWord_keeps
    | with_reducible apply keeps_ite
    | intro _
    | split

theorem vecHeld_keeps (e : EngId) (vec : Nat) (hk : s.keeps kq km) :
    (State.vecHeld s e vec).2.keeps kq km := by
  unfold State.vecHeld
  repeat' first
    | with_reducible assumption
    | with_reducible apply vitrines_keeps
    | with_reducible apply keeps_ite
    | intro _
    | split
    | with_reducible refine snd_keeps (by assumption) ?_
    | with_reducible refine thd_keeps (by assumption) ?_
    | dsimp only

theorem vectorRead_keeps (e : EngId) (vec : Nat) (hk : s.keeps kq km) :
    (State.vectorRead s e vec).keeps kq km := by
  unfold State.vectorRead
  repeat' first
    | with_reducible assumption
    | with_reducible apply modEng_keeps
    | with_reducible apply halt_keeps
    | with_reducible apply issueReq_keeps
    | with_reducible apply claimNear_keeps
    | with_reducible apply nearRead_keeps
    | with_reducible apply startHandler_keeps
    | with_reducible apply vecWord_keeps
    | with_reducible apply keeps_ite
    | intro _

theorem readVector_keeps (e : EngId) (vec t : Nat) (hk : s.keeps kq km) :
    (State.readVector s e vec t).keeps kq km := by
  unfold State.readVector
  repeat' first | with_reducible assumption | with_reducible apply modEng_keeps

theorem vectorDue_keeps (e : EngId) (hk : s.keeps kq km) :
    (State.vectorDue s e).keeps kq km := by
  unfold State.vectorDue
  repeat' first
    | with_reducible assumption
    | with_reducible apply vecHeld_keeps
    | with_reducible apply vectorRead_keeps
    | with_reducible apply keeps_ite
    | intro _
    | split

theorem toHandler_keeps (e : EngId) (vec : Nat) (hk : s.keeps kq km) :
    (State.toHandler s e vec).keeps kq km := by
  unfold State.toHandler
  repeat' first
    | with_reducible assumption
    | with_reducible apply modEng_keeps
    | with_reducible apply startHandler_keeps
    | with_reducible apply readVector_keeps
    | with_reducible apply vectorDue_keeps
    | with_reducible apply keeps_ite
    | intro _
    | split
    | dsimp only

theorem clearCode_keeps (e : EngId) (hk : s.keeps kq km) :
    (State.clearCode s e).keeps kq km := by
  unfold State.clearCode
  repeat' first | with_reducible assumption | with_reducible apply modEng_keeps | with_reducible apply setPort_keeps

theorem saveShadow_keeps (e : EngId) (hk : s.keeps kq km) :
    (State.saveShadow s e).keeps kq km := by
  unfold State.saveShadow
  repeat' first
    | with_reducible assumption
    | with_reducible apply setReg_keeps
    | with_reducible apply keeps_ite
    | with_reducible apply foldl_keeps
    | with_reducible apply foldl_fst_keeps
    | with_reducible apply foldl_snd_keeps
    | intro _

theorem setHandler_keeps (e : EngId) (vec : Nat) (hk : s.keeps kq km) :
    (State.setHandler s e vec).keeps kq km := by
  unfold State.setHandler
  repeat' first | with_reducible assumption | with_reducible apply orReg_keeps | with_reducible apply setFld_keeps

theorem saveState_keeps (e : EngId) (hk : s.keeps kq km) :
    (State.saveState s e).keeps kq km := by
  unfold State.saveState
  repeat' first
    | with_reducible assumption
    | with_reducible apply drawWord_keeps
    | with_reducible apply setPort_keeps
    | with_reducible apply emuSave_keeps
    | with_reducible apply saveShadow_keeps
    | with_reducible apply keeps_ite
    | intro _

theorem takeEntry_keeps (e : EngId) (vec num pri : Nat) (hk : s.keeps kq km) :
    (State.takeEntry s e vec num pri).keeps kq km := by
  unfold State.takeEntry
  repeat' first
    | with_reducible assumption
    | with_reducible apply drawWord_keeps
    | with_reducible apply setReg_keeps
    | with_reducible apply orReg_keeps
    | with_reducible apply clrReg_keeps
    | with_reducible apply modEng_keeps
    | with_reducible apply setPort_keeps
    | with_reducible apply log_keeps
    | with_reducible apply halt_keeps
    | with_reducible apply perf_keeps
    | with_reducible apply repTest_keeps
    | with_reducible apply readVector_keeps
    | with_reducible apply clearCode_keeps
    | with_reducible apply setHandler_keeps
    | with_reducible apply saveState_keeps
    | with_reducible apply keeps_ite
    | intro _

theorem takeAsync_keeps (e : EngId) (n : Nat) (hk : s.keeps kq km) :
    (State.takeAsync s e n).keeps kq km := by
  unfold State.takeAsync
  repeat' first | with_reducible assumption | with_reducible apply clrReg_keeps | with_reducible apply modEng_keeps

theorem takeBy_keeps (e : EngId) (c : Chosen) (take : State → Nat → Nat → Nat → State) (hk : s.keeps kq km)
    (hf : ∀ t v n p, t.keeps kq km → (take t v n p).keeps kq km) : (s.takeBy e c take).keeps kq km := by
  unfold State.takeBy
  cases c with
  | async n => exact hf _ _ _ _ (takeAsync_keeps e n (modEng_keeps e _ hk))
  | input i => exact hf _ _ _ _ (modEng_keeps e _ hk)

theorem entry_keeps (e : EngId) (hk : s.keeps kq km) :
    (State.entry s e).keeps kq km := by
  unfold State.entry
  repeat' first
    | with_reducible assumption
    | with_reducible apply takeEntry_keeps
    | with_reducible apply takeBy_keeps
    | with_reducible apply keeps_ite
    | intro _
    | split

theorem resetEntry_keeps (e : EngId) (hk : s.keeps kq km) :
    (State.resetEntry s e).keeps kq km := by
  unfold State.resetEntry
  repeat' first
    | with_reducible assumption
    | with_reducible apply clrReg_keeps
    | with_reducible apply setEng_keeps
    | with_reducible apply perf_keeps
    | with_reducible apply readVector_keeps

theorem chain_keeps (e : EngId) (vec num pri : Nat) (hk : s.keeps kq km) :
    (State.chain s e vec num pri).keeps kq km := by
  unfold State.chain
  repeat' first
    | with_reducible assumption
    | with_reducible apply clrReg_keeps
    | with_reducible apply setPort_keeps
    | with_reducible apply perf_keeps
    | with_reducible apply toHandler_keeps
    | with_reducible apply clearCode_keeps
    | with_reducible apply setHandler_keeps

theorem resume_keeps (e : EngId) (st : Word) (hk : s.keeps kq km) :
    (State.resume s e st).keeps kq km := by
  unfold State.resume
  repeat' first
    | with_reducible assumption
    | with_reducible apply orReg_keeps
    | with_reducible apply clrReg_keeps
    | with_reducible apply putBit_keeps
    | with_reducible apply modEng_keeps
    | with_reducible apply setPort_keeps
    | with_reducible apply emuRestore_keeps
    | with_reducible apply restoreLoops_keeps
    | with_reducible apply keeps_ite
    | intro _

theorem doReturn_keeps (e : EngId) (hk : s.keeps kq km) :
    (State.doReturn s e).keeps kq km := by
  unfold State.doReturn
  repeat' first
    | with_reducible assumption
    | with_reducible apply orReg_keeps
    | with_reducible apply modEng_keeps
    | with_reducible apply setPort_keeps
    | with_reducible apply log_keeps
    | with_reducible apply applyPend_keeps
    | with_reducible apply takeBy_keeps
    | with_reducible apply chain_keeps
    | with_reducible apply resume_keeps
    | with_reducible apply keeps_ite
    | with_reducible apply foldl_keeps
    | with_reducible apply foldl_fst_keeps
    | with_reducible apply foldl_snd_keeps
    | intro _
    | split
    | dsimp only

theorem eret_keeps (e : EngId) (hk : s.keeps kq km) :
    (State.eret s e).keeps kq km := by
  unfold State.eret
  repeat' first
    | with_reducible assumption
    | with_reducible apply modEng_keeps
    | with_reducible apply doReturn_keeps
    | with_reducible apply keeps_ite
    | intro _

theorem undefined_keeps (e : EngId) (a : Word) (n : Nat) (dst : Bool) (bus socket : Nat) (hk : s.keeps kq km) :
    (State.undefined s e a n dst bus socket).keeps kq km := by
  unfold State.undefined
  repeat' first | with_reducible assumption | with_reducible apply setReg_keeps

theorem undefinedOp_keeps (e : EngId) (socket : Nat) (hk : s.keeps kq km) :
    (State.undefinedOp s e socket).keeps kq km := by
  unfold State.undefinedOp
  repeat' first
    | with_reducible assumption
    | with_reducible apply modEng_keeps
    | with_reducible apply undefined_keeps
    | with_reducible apply keeps_ite
    | intro _

theorem eretOp_keeps (e : EngId) (hk : s.keeps kq km) :
    (State.eretOp s e).keeps kq km := by
  unfold State.eretOp
  repeat' first
    | with_reducible assumption
    | with_reducible apply meetSpar_keeps
    | with_reducible apply eret_keeps
    | with_reducible apply undefinedOp_keeps
    | with_reducible apply keeps_ite
    | intro _

theorem syncComplete_keeps (e : EngId) (hk : s.keeps kq km) :
    (State.syncComplete s e).keeps kq km := by
  unfold State.syncComplete
  repeat' first
    | with_reducible assumption
    | with_reducible apply syncDone_keeps
    | with_reducible apply doReturn_keeps
    | with_reducible apply eret_keeps
    | with_reducible apply keeps_ite
    | intro _
    | split

theorem prefetchVector_keeps (e : EngId) (hk : s.keeps kq km) :
    (State.prefetchVector s e).keeps kq km := by
  unfold State.prefetchVector
  repeat' first
    | with_reducible assumption
    | with_reducible apply modEng_keeps
    | with_reducible apply issueReq_keeps
    | with_reducible apply claimNear_keeps
    | with_reducible apply nearRead_keeps
    | with_reducible apply vecWord_keeps
    | with_reducible apply vecHeld_keeps
    | with_reducible apply keeps_ite
    | intro _
    | split

theorem nearPart_keeps (e : EngId) (off sys len left : Nat) (hk : s.keeps kq km) :
    (State.nearPart s e off sys len left).2.keeps kq km := by
  unfold State.nearPart
  repeat' first | with_reducible assumption | with_reducible apply nearRead_keeps

theorem farParts_keeps (e : EngId) (a : Word) (off sys len : Nat) (hk : s.keeps kq km) :
    (State.farParts s e a off sys len).2.keeps kq km := by
  unfold State.farParts
  repeat' first
    | with_reducible assumption
    | with_reducible apply issueReq_keeps
    | with_reducible apply keeps_ite
    | intro _
    | split

theorem pumpParts_keeps (e : EngId) (l : List LinePart) (hk : s.keeps kq km) : (s.pumpParts e l).2.keeps kq km := by
  induction l generalizing s with
  | nil => exact hk
  | cons p l ih =>
    unfold State.pumpParts
    split
    · exact pair_ite_keeps (fun _ => ih (issueReq_keeps e.val _ hk)) (fun _ => ih hk)
    · exact ih hk

theorem pumpLines_keeps (e : EngId) (hk : s.keeps kq km) : (s.pumpLines e).keeps kq km := by
  unfold State.pumpLines
  extract_lets r
  have hr : r.2.keeps kq km :=
    foldl_snd_keeps (fun x l h => pumpParts_keeps e l.parts h) _ (([] : List Line), s) hk
  clear_value r
  exact keeps_ite (fun _ => modEng_keeps e _ hr) (fun _ => hk)

theorem wordParts_keeps (e : EngId) (a : Word) (off left : Nat) (hk : s.keeps kq km) :
    (State.wordParts s e a off left).2.keeps kq km := by
  unfold State.wordParts
  repeat' first
    | with_reducible assumption
    | with_reducible apply drawn_keeps
    | with_reducible apply nearPart_keeps
    | with_reducible apply farParts_keeps
    | with_reducible apply keeps_ite
    | intro _
    | split
    | with_reducible refine snd_keeps (by assumption) ?_
    | with_reducible refine thd_keeps (by assumption) ?_
    | dsimp only

theorem nearParts_keeps (e : EngId) (x d0 d1 : Nat) (hk : s.keeps kq km) :
    ((s.nearPart e 0 x 16 d0).2.nearPart e 16 (x + 16) 16 d1).2.keeps kq km :=
  nearPart_keeps e _ _ _ _ (nearPart_keeps e _ _ _ _ hk)

theorem lineParts_keeps (e : EngId) (a : Word) (hk : s.keeps kq km) : (s.lineParts e a).2.keeps kq km := by
  unfold State.lineParts
  exact pair_ite_keeps
    (fun _ => pair_keeps _ (nearParts_keeps e (tileAddr e (a.toNat % 0x8_0000)) _ _ hk))
    (fun _ => pair_ite_keeps (fun _ => farParts_keeps e _ _ _ _ hk)
      (fun _ => pair_keeps _ (wordParts_keeps e _ _ _ (wordParts_keeps e _ _ _ hk))))

theorem fetchLine_keeps (e : EngId) (hk : s.keeps kq km) :
    (State.fetchLine s e).keeps kq km := by
  unfold State.fetchLine
  repeat' first
    | with_reducible assumption
    | with_reducible apply modEng_keeps
    | with_reducible apply vitrines_keeps
    | with_reducible apply claimNear_keeps
    | with_reducible apply chargeStall_keeps
    | with_reducible apply lineParts_keeps
    | with_reducible apply keeps_ite
    | with_reducible apply foldl_keeps
    | with_reducible apply foldl_fst_keeps
    | with_reducible apply foldl_snd_keeps
    | intro _
    | split

theorem fetchStep_keeps (e : EngId) (hk : s.keeps kq km) :
    (State.fetchStep s e).keeps kq km := by
  unfold State.fetchStep
  repeat' first
    | with_reducible assumption
    | with_reducible apply modEng_keeps
    | with_reducible apply claimNear_keeps
    | with_reducible apply keeps_ite
    | intro _

theorem bmuElement_keeps (e : EngId) (hk : s.keeps kq km) :
    (State.bmuElement s e).keeps kq km := by
  unfold State.bmuElement
  repeat' first
    | with_reducible assumption
    | with_reducible apply drawn_keeps
    | with_reducible apply vitrines_keeps
    | with_reducible apply claimNear_keeps
    | with_reducible apply chargeStall_keeps
    | with_reducible apply modBmu_keeps
    | with_reducible apply bmuSettle_keeps
    | with_reducible apply bmuData_keeps
    | with_reducible apply bmuNear_keeps
    | with_reducible apply bmuFar_keeps
    | with_reducible apply keeps_ite
    | intro _
    | split

theorem storeDrain_keeps (e : EngId) (hk : s.keeps kq km) :
    (State.storeDrain s e).keeps kq km := by
  unfold State.storeDrain
  repeat' first
    | with_reducible assumption
    | with_reducible apply drain_keeps
    | with_reducible apply keeps_ite
    | intro _
    | split

theorem tookSocket_keeps (e : EngId) (k : Nat) (hk : s.keeps kq km) :
    (State.tookSocket s e k).keeps kq km := by
  unfold State.tookSocket
  repeat' first
    | with_reducible assumption
    | with_reducible apply orReg_keeps
    | with_reducible apply modEng_keeps
    | with_reducible apply setUnit_keeps
    | with_reducible apply keeps_ite
    | intro _
    | split

theorem pendWrite_keeps (e : EngId) (k : Nat) (v : Word) (hk : s.keeps kq km) :
    (State.pendWrite s e k v).keeps kq km := by
  unfold State.pendWrite
  repeat' first
    | with_reducible assumption
    | with_reducible apply modEng_keeps
    | with_reducible apply applyPend_keeps
    | with_reducible apply keeps_ite
    | intro _
    | split

theorem writeSpecial_keeps (e : EngId) (sel k : Nat) (v : Word) (hk : s.keeps kq km) :
    (State.writeSpecial s e sel k v).keeps kq km := by
  unfold State.writeSpecial
  repeat' first
    | with_reducible assumption
    | with_reducible apply setPort_keeps
    | with_reducible apply setLps_keeps
    | with_reducible apply pendWrite_keeps
    | with_reducible apply keeps_ite
    | intro _

theorem seqRead_keeps (e : EngId) (a n : Nat) (hk : s.keeps kq km) :
    (State.seqRead s e a n).2.2.keeps kq km := by
  unfold State.seqRead
  repeat' first | with_reducible assumption | with_reducible apply eccRead_keeps

theorem syncExc_keeps (e : EngId) (n : Nat) (hk : s.keeps kq km) :
    (State.syncExc s e n).keeps kq km := by
  unfold State.syncExc
  repeat' first | with_reducible assumption | with_reducible apply modEng_keeps

theorem syncDue_keeps (e : EngId) (t : Nat) (hk : s.keeps kq km) :
    (State.syncDue s e t).keeps kq km := by
  unfold State.syncDue
  repeat' first | with_reducible assumption | with_reducible apply modEng_keeps

theorem microFault_keeps (e : EngId) (cause addr : Nat) (hk : s.keeps kq km) :
    (State.microFault s e cause addr).keeps kq km := by
  unfold State.microFault
  repeat' first | with_reducible assumption | with_reducible apply setReg_keeps | with_reducible apply syncExc_keeps

theorem catMiss_keeps (e : EngId) (index : Nat) (hk : s.keeps kq km) :
    (State.catMiss s e index).keeps kq km := by
  unfold State.catMiss
  repeat' first | with_reducible assumption | with_reducible apply setReg_keeps | with_reducible apply syncExc_keeps

theorem mcallCheck_keeps (e : EngId) (t : Word) (barred : Bool) (hk : s.keeps kq km) :
    (s.mcallCheck e t barred).elim (State.keeps kq km) (fun p => p.2.keeps kq km) := by
  unfold State.mcallCheck
  extract_lets i r
  repeat' split
  · exact microFault_keeps e _ _ hk
  · exact microFault_keeps e _ _ hk
  · exact hk
  · exact syncExc_keeps e _ (seqRead_keeps e _ _ hk)
  · exact catMiss_keeps e _ (seqRead_keeps e _ _ hk)
  · exact seqRead_keeps e _ _ hk

theorem mcallStart_keeps (e : EngId) (t : Word) (uaddr : Nat) (a nxt : Word) (hk : s.keeps kq km) :
    (State.mcallStart s e t uaddr a nxt).keeps kq km := by
  unfold State.mcallStart
  repeat' first
    | with_reducible assumption
    | with_reducible apply setReg_keeps
    | with_reducible apply orReg_keeps
    | with_reducible apply modEng_keeps
    | with_reducible apply setPort_keeps
    | with_reducible apply start_keeps
    | with_reducible apply keeps_ite
    | intro _

theorem seqEnd_keeps (e : EngId) (t : Nat) (hk : s.keeps kq km) : (s.seqEnd e t).keeps kq km := by
  unfold State.seqEnd
  dsimp only
  split
  · split
    · next k w h => exact loopBack_keeps e k (snd_keeps h (loopTest_keeps e _ (modEng_keeps e _ (clrReg_keeps _ _ hk))))
    · next w h => exact snd_keeps h (loopTest_keeps e _ (modEng_keeps e _ (clrReg_keeps _ _ hk)))
  · exact modEng_keeps e _ (clrReg_keeps _ _ hk)

theorem mcallOp_keeps (e : EngId) (t : Word) (hk : s.keeps kq km) : (s.mcallOp e t).keeps kq km := by
  unfold State.mcallOp
  dsimp only
  repeat' split
  · exact hk
  · next w h => exact inl_keeps h (mcallCheck_keeps e t _ hk)
  · next u w h =>
    exact mcallStart_keeps e t _ _ _ (meetSpar_keeps e _ (inr_keeps (P := State.keeps kq km) (Q := fun p => p.2.keeps kq km) h
      (mcallCheck_keeps e t _ hk)))

theorem fendOp_keeps (e : EngId) (hk : s.keeps kq km) :
    (State.fendOp s e).keeps kq km := by
  unfold State.fendOp
  repeat' first
    | with_reducible assumption
    | with_reducible apply meetSpar_keeps
    | with_reducible apply frameEnd_keeps
    | with_reducible apply undefinedOp_keeps
    | with_reducible apply keeps_ite
    | intro _

theorem freeSlots_keeps (w : Quad) (hk : s.keeps kq km) :
    (freeSlots s w).2.keeps kq km := by
  unfold freeSlots
  repeat' first
    | with_reducible assumption
    | with_reducible apply keeps_ite
    | intro _
    | split
    | dsimp only
    | with_reducible apply keeps_mk

theorem issueWord_keeps (e : EngId) (a : Word) (hk : s.keeps kq km) :
    (State.issueWord s e a).2.keeps kq km := by
  unfold State.issueWord
  repeat' first
    | with_reducible assumption
    | with_reducible apply freeSlots_keeps
    | with_reducible apply keeps_ite
    | intro _
    | split

theorem noteUndefs_keeps (e : EngId) (u : Option (Move × Bool) × Nat) (hk : s.keeps kq km) :
    (State.noteUndefs s e u).keeps kq km := by
  unfold State.noteUndefs
  repeat' first
    | with_reducible assumption
    | with_reducible apply undefined_keeps
    | with_reducible apply keeps_ite
    | intro _
    | split

theorem trigWaits_keeps (e : EngId) (own : List Nat) (x : Trig) (hk : s.keeps kq km) :
    (State.trigWaits s e own x).keeps kq km := by
  unfold State.trigWaits
  repeat' first
    | with_reducible assumption
    | with_reducible apply noteWait_keeps
    | with_reducible apply memHeld_keeps
    | with_reducible apply keeps_ite
    | intro _
    | split
    | with_reducible refine snd_keeps (by assumption) ?_
    | with_reducible refine thd_keeps (by assumption) ?_
    | dsimp only

theorem trigFault_keeps (e : EngId) (x : Trig) (hk : s.keeps kq km) : ∀ t, s.trigFault e x = some t → t.keeps kq km := by
  unfold State.trigFault
  extract_lets n o a
  repeat' split
  all_goals
    intro t ht
    cases ht
  · exact memFault_keeps e _ _ _ hk
  · exact memFault_keeps e _ _ _ hk

theorem trigStart_keeps (e : EngId) (x : Trig) (hk : s.keeps kq km) :
    (State.trigStart s e x).keeps kq km := by
  unfold State.trigStart
  repeat' first
    | with_reducible assumption
    | with_reducible apply modEng_keeps
    | with_reducible apply meetSpar_keeps
    | with_reducible apply aluOp_keeps
    | with_reducible apply mulOp_keeps
    | with_reducible apply macOp_keeps
    | with_reducible apply divOp_keeps
    | with_reducible apply bitOp_keeps
    | with_reducible apply memRun_keeps
    | with_reducible apply memHeld_keeps
    | with_reducible apply bmuStart_keeps
    | with_reducible apply apuStart_keeps
    | with_reducible apply xioQueue_keeps
    | with_reducible apply xioPop_keeps
    | with_reducible apply keeps_ite
    | intro _

theorem laneBDue_keeps (e : EngId) (hk : s.keeps kq km) :
    (State.laneBDue s e).keeps kq km := by
  unfold State.laneBDue
  repeat' first
    | with_reducible assumption
    | with_reducible apply modEng_keeps
    | with_reducible apply perf_keeps
    | with_reducible apply bmuStart_keeps
    | with_reducible apply xioPop_keeps
    | with_reducible apply keeps_ite
    | with_reducible apply foldl_keeps
    | with_reducible apply foldl_fst_keeps
    | with_reducible apply foldl_snd_keeps
    | intro _
    | split
    | dsimp only

theorem meetBpar_keeps (e : EngId) (ms : List Move) (pc : Word) (hk : s.keeps kq km) :
    (State.meetBpar s e ms pc).keeps kq km := by
  unfold State.meetBpar
  repeat' first
    | with_reducible assumption
    | with_reducible apply modEng_keeps
    | with_reducible apply parity_keeps
    | with_reducible apply keeps_ite
    | intro _
    | split

theorem issueMoves_keeps (e : EngId) (g : Group) (ex : List Move) (vs wv : List (Move × Word)) (win : List Move) (trigs : List Trig) (und : Option (Move × Bool) × Nat) (srcs : List Nat) (two : Nat) (hk : s.keeps kq km) :
    (State.issueMoves s e g ex vs wv win trigs und srcs two).keeps kq km := by
  unfold State.issueMoves
  repeat' first
    | with_reducible assumption
    | with_reducible apply modEng_keeps
    | with_reducible apply setPort_keeps
    | with_reducible apply setVreg_keeps
    | with_reducible apply perf_keeps
    | with_reducible apply tookSocket_keeps
    | with_reducible apply writeSpecial_keeps
    | with_reducible apply noteUndefs_keeps
    | with_reducible apply trigStart_keeps
    | with_reducible apply meetBpar_keeps
    | with_reducible apply keeps_ite
    | with_reducible apply foldl_keeps
    | with_reducible apply foldl_fst_keeps
    | with_reducible apply foldl_snd_keeps
    | intro _

/-- What `keeps` says of every state that a group can answer. -/
def faredKeeps (kq : List Instr) (km : Half) : Fared → Prop
  | .fault s => s.keeps kq km
  | .wait _ s => s.keeps kq km
  | .issued s _ _ _ => s.keeps kq km

theorem fare_keeps (e : EngId) (g : Group) (barred : Bool) (hk : s.keeps kq km) : faredKeeps kq km (s.fare e g barred) := by
  unfold State.fare
  extract_lets ex und vs win wv trigs ctl mc srcs owed mwait s1 checked
  clear_value mwait ctl mc owed
  split
  · exact syncExc_keeps e _ (noteUndefs_keeps e _ hk)
  have h1 : s1.keeps kq km := keeps_ite (fun _ => modEng_keeps e _ hk) (fun _ => hk)
  clear_value s1
  have hm : checked.elim (State.keeps kq km) (fun p => p.2.keeps kq km) := by
    simp only [checked]
    split
    · exact h1
    · split
      · exact mcallCheck_keeps e _ _ h1
      · exact h1
  clear_value checked
  split
  · exact modEng_keeps e _ hm
  next ua t =>
  have hm : t.keeps kq km := hm
  extract_lets s2
  split
  · exact modEng_keeps e _ (setReg_keeps _ _ (setReg_keeps _ _ hm))
  split
  · suffices hw : _ from keeps_ite (fun _ => modEng_keeps e _ hw) (fun _ => hw)
    refine keeps_ite (fun _ => hm) (fun _ => foldl_keeps (fun u x h => ?_) _ t hm)
    exact modEng_keeps e _ ⟨⟨h.1.1, (trigWaits_keeps e _ x (foldl_keeps (fun s p h => setPort_keeps e _ _ h) _ _ hm)).1.2.1,
      h.1.2.2⟩, h.2⟩
  · split
    · exact modEng_keeps e _ hm
    · exact issueMoves_keeps e g _ _ _ _ _ _ _ _ hm

theorem fetchFault_keeps (e : EngId) (a : Word) (exc : Nat) (info : Word) (hk : s.keeps kq km) :
    (State.fetchFault s e a exc info).keeps kq km := by
  unfold State.fetchFault
  repeat' first
    | with_reducible assumption
    | with_reducible apply setReg_keeps
    | with_reducible apply modEng_keeps
    | with_reducible apply halt_keeps
    | with_reducible apply syncExc_keeps
    | with_reducible apply keeps_ite
    | intro _

theorem group_keeps (e : EngId) (hk : s.keeps kq km) :
    (s.group e).elim (fun o => ∀ p, o = some p → p.2.keeps kq km) (State.keeps kq km) := by
  unfold State.group
  dsimp only
  have h1 := issueWord_keeps e (s.eng e).pc hk
  split
  · exact fun p hp => nomatch hp
  · exact fetchFault_keeps e _ _ _ hk
  · next w s1 hw =>
    rw [hw] at h1
    have h2 := issueWord_keeps e ((s.eng e).pc + 16) h1
    split
    · exact syncExc_keeps e _ h1
    split
    · intro p hp; cases hp; exact h1
    split
    · exact fun p hp => nomatch hp
    · exact fetchFault_keeps e _ _ _ hk
    · next v s2 hv =>
      rw [hv] at h2
      split
      · intro p hp; cases hp; exact h2
      · intro p hp; cases hp; exact h1

theorem afterGroup_keeps (e : EngId) (g : Group) (rep : Nat) (ctl : Option (Nat × Word × Nat)) (fend : Bool) (mcall : Option (Word × Nat)) (hk : s.keeps kq km) :
    (State.afterGroup s e g rep ctl fend mcall).keeps kq km := by
  unfold State.afterGroup
  repeat' first
    | with_reducible assumption
    | with_reducible apply modEng_keeps
    | with_reducible apply perf_keeps
    | with_reducible apply meetSpar_keeps
    | with_reducible apply leaveGroup_keeps
    | with_reducible apply ctlDo_keeps
    | with_reducible apply frameEnd_keeps
    | with_reducible apply eret_keeps
    | with_reducible apply mcallStart_keeps
    | with_reducible apply keeps_ite
    | intro _
    | split

theorem issueGroup_keeps (e : EngId) (hk : s.keeps kq km) : (s.issueGroup e).keeps kq km := by
  unfold State.issueGroup
  dsimp only
  split
  · exact hk
  have hr := repTest_keeps e hk
  have hg := group_keeps e hr
  split
  · next t ht => rw [ht] at hg; exact hg
  · exact hr
  · next g t ht =>
    rw [ht] at hg
    have hg : t.keeps kq km := hg _ rfl
    have hf := fare_keeps e g (decide ((t.eng e).dly ≠ 0) || decide ((t.eng e).rep ≠ 0)) hg
    split
    · next x hx => rw [hx] at hf; exact hf
    · next v x hx => rw [hx] at hf; exact hf
    · next x c fe mc hx => rw [hx] at hf; exact afterGroup_keeps e g _ _ _ _ (perf_keeps e _ _ (modEng_keeps e _ hf))

theorem setMreg_keeps (e : EngId) (k : Nat) (v : Word) (hk : s.keeps kq km) :
    (State.setMreg s e k v).keeps kq km := by
  unfold State.setMreg
  repeat' first | with_reducible assumption | with_reducible apply setPort_keeps

theorem microNext_keeps (e : EngId) (w : Word) (a : Nat) (force : Bool) (hk : s.keeps kq km) :
    (s.microNext e w a force).elim (fun _ => True) (fun p => p.2.keeps kq km) := by
  unfold State.microNext
  dsimp only
  repeat' split
  all_goals first
    | exact trivial
    | exact hk
    | exact setFld_keeps _ _ _ _ hk
    | exact setFld_keeps _ _ _ _ (setReg_keeps _ _ hk)
    | exact setReg_keeps _ _ hk

theorem microSlip_keeps (e : EngId) (period work : Nat) (hk : s.keeps kq km) :
    (State.microSlip s e period work).keeps kq km := by
  unfold State.microSlip
  repeat' first
    | with_reducible assumption
    | with_reducible apply setReg_keeps
    | with_reducible apply orReg_keeps
    | with_reducible apply perf_keeps
    | with_reducible apply keeps_ite
    | intro _

theorem microEnd_keeps (e : EngId) (w : Word) (nx : Next) (t : Nat) (hk : s.keeps kq km) :
    (State.microEnd s e w nx t).keeps kq km := by
  unfold State.microEnd
  repeat' first
    | with_reducible assumption
    | with_reducible apply modEng_keeps
    | with_reducible apply setPort_keeps
    | with_reducible apply seqEnd_keeps
    | with_reducible apply start_keeps
    | with_reducible apply keeps_ite
    | intro _
    | split

theorem takeBack_keeps (e : EngId) (u : MicroUndo) (hk : s.keeps kq km) :
    (State.takeBack s e u).keeps kq km := by
  unfold State.takeBack
  repeat' first
    | with_reducible assumption
    | with_reducible apply setReg_keeps
    | with_reducible apply putBit_keeps
    | with_reducible apply setFld_keeps
    | with_reducible apply modEng_keeps

theorem microFinish_keeps {s0 : State} (e : EngId) (w : Word) (a k : Nat) (wait : Bool) (_h0 : s0.keeps kq km)
    (hk : s.keeps kq km) : (State.microFinish s0 s e w a k wait).keeps kq km :=
  modEng_keeps e _ (microSlip_keeps e _ _ hk)

theorem microDecide_keeps (e : EngId) (hk : s.keeps kq km) : (s.microDecide e).keeps kq km := by
  unfold State.microDecide
  split
  · exact hk
  split
  · exact hk
  next f _ _ t _ =>
  have h1 := modEng_keeps e (fun x => { x with useq := { x.useq with fin := none } }) hk
  refine keeps_ite (fun _ => hk) (fun _ => ?_)
  refine keeps_ite (fun _ => microEnd_keeps e _ _ t h1) (fun _ => ?_)
  refine keeps_ite (fun _ => microEnd_keeps e _ _ t h1) (fun _ => ?_)
  have h := microNext_keeps e f.w f.a f.wait h1
  split
  · split
    · exact microFault_keeps e _ _ (takeBack_keeps e _ h1)
    · exact microFault_keeps e _ _ h1
  · next nx u hu => rw [hu] at h; exact microEnd_keeps e _ _ t h

theorem seqEntry_keeps (e : EngId) (a n : Nat) (hk : s.keeps kq km) : (s.seqEntry e a n).2.2.keeps kq km :=
  seqRead_keeps e a n hk

theorem waited_keeps {w : State} (e : EngId) (ev : Nat) (hk : s.keeps kq km) (hw : w.keeps kq km) : (s.waited w e ev).keeps kq km :=
  modEng_keeps e _ ⟨⟨hk.1.1, hw.1.2.1, hk.1.2.2⟩, hk.2⟩

/-- What `keeps` says of every state that a microword's operation can answer. -/
def didKeeps (kq : List Instr) (km : Half) : Did → Prop
  | .fault s => s.keeps kq km
  | .wait _ s => s.keeps kq km
  | .done s _ => s.keeps kq km
  | .owed s => s.keeps kq km
  | .settled s => s.keeps kq km

theorem micro_keeps (e : EngId) (p : Nat → Bool) (f : State → Word → Nat → Did) (hk : s.keeps kq km)
    (hf : ∀ t w a, t.keeps kq km → didKeeps kq km (f t w a)) : (s.micro e p f).keeps kq km := by
  unfold State.micro
  extract_lets u a wild r stored s0 d op w s0' s1
  have hr : r.2.2.keeps kq km := seqEntry_keeps e _ _ hk
  have hs0' : s0'.keeps kq km := keeps_ite (fun _ => drawWord_keeps hr) (fun _ => hr)
  have hs1 : s1.keeps kq km := perf_keeps e _ _ (modEng_keeps e _ hs0')
  clear_value s1
  split
  · exact hk
  split
  · exact microFault_keeps e _ _ (modEng_keeps e _ hk)
  split
  · exact syncExc_keeps e _ hr
  have h := hf s1 w a hs1
  split
  · next x hx => rw [hx] at h; exact h
  · next ev x hx => rw [hx] at h; exact waited_keeps e ev hk h
  · next x hx => rw [hx] at h; exact h
  · next x k hx => rw [hx] at h; exact microFinish_keeps e _ _ _ _ hs1 h
  · next x hx => rw [hx] at h; exact modEng_keeps e _ h

theorem expandAlu_keeps (e : EngId) (hk : s.keeps kq km) :
    (State.expandAlu s e).keeps kq km := by
  unfold State.expandAlu
  repeat' first
    | with_reducible assumption
    | with_reducible apply drawWord_keeps
    | with_reducible apply setPort_keeps
    | with_reducible apply setUnit_keeps
    | with_reducible apply meetSpar_keeps
    | with_reducible apply trigger_keeps

theorem microArith_keeps (e : EngId) (op : Nat) (w : Word) (stall : Nat) (hk : s.keeps kq km) :
    didKeeps kq km (s.microArith e op w stall) := by
  unfold State.microArith
  dsimp only
  split
  · exact hk
  · exact keeps_ite (fun _ => setMreg_keeps e _ _ (setPort_keeps e _ _ (expandAlu_keeps e hk)))
      (fun _ => setPort_keeps e _ _ (expandAlu_keeps e hk))

theorem microWide_keeps (e : EngId) (w v : Word) (stall : Nat) (hk : s.keeps kq km) :
    didKeeps kq km (s.microWide e w v stall) :=
  setMreg_keeps e _ _ (expandAlu_keeps e hk)

theorem microMove_keeps (stall : Nat) (hk : s.keeps kq km) : didKeeps kq km (microMove s stall) := hk

theorem microLoad_keeps (e : EngId) (a : Word) (z : Nat) (hk : s.keeps kq km) :
    (s.microLoad e a z).elim (State.keeps kq km)
      (fun r => r.elim (fun p => p.2.keeps kq km) (fun p => p.2.2.keeps kq km)) := by
  unfold State.microLoad
  extract_lets o x old t
  have hm := memHeld_keeps e o hk
  have ht : t.keeps kq km := meetSpar_keeps e _ (memRun_keeps e o 0 hm)
  clear_value t x
  split
  · exact memFault_keeps e _ _ _ hk
  split
  · exact noteWait_keeps e _ _ _ hk
  split
  · exact hm
  split
  · exact ht
  · exact ht

theorem mrd_keeps (e : EngId) (w : Word) (a stall : Nat) (hk : s.keeps kq km) : didKeeps kq km (s.mrd e w a stall) := by
  unfold State.mrd
  dsimp only
  split
  · repeat' split
    · exact microFault_keeps e _ _ hk
    · exact memFault_keeps e _ _ _ hk
    · exact hk
    · exact hk
    · exact perf_keeps e _ _ (meetSpar_keeps e _ (memRun_keeps e _ _ hk))
  · have h := microLoad_keeps e (s.mreg e (mwB w)) (microSize w) hk
    split
    · next t ht => rw [ht] at h; exact h
    · next ev t ht => rw [ht] at h; exact h
    · next v sp t ht => rw [ht] at h; exact setMreg_keeps e _ _ h

theorem mwr_keeps (e : EngId) (w : Word) (stall : Nat) (hk : s.keeps kq km) : didKeeps kq km (s.mwr e w stall) := by
  unfold State.mwr
  extract_lets z far v o x
  clear_value v x
  repeat' split
  · exact memFault_keeps e _ _ _ hk
  · exact hk
  · exact hk
  · exact meetSpar_keeps e _ (memRun_keeps e _ _ (setPort_keeps e _ _ hk))

theorem mfetch_keeps (e : EngId) (w : Word) (stall : Nat) (hk : s.keeps kq km) : didKeeps kq km (s.mfetch e w stall) := by
  unfold State.mfetch
  have h := microLoad_keeps e (s.port e sMPC) (microSize w) hk
  dsimp only
  split
  · next t ht => rw [ht] at h; exact h
  · next ev t ht => rw [ht] at h; exact h
  · next v sp t ht => rw [ht] at h; exact setPort_keeps e _ _ (setMreg_keeps e _ _ h)

theorem mrdAnswered_keeps (e : EngId) (hk : s.keeps kq km) :
    (State.mrdAnswered s e).keeps kq km := by
  unfold State.mrdAnswered
  repeat' first
    | with_reducible assumption
    | with_reducible apply modEng_keeps
    | with_reducible apply iftFree_keeps
    | with_reducible apply farFault_keeps
    | with_reducible apply setMreg_keeps
    | with_reducible apply microFinish_keeps
    | with_reducible apply micro_keeps
    | with_reducible apply keeps_ite
    | intro _
    | split

theorem exf_keeps (e : EngId) (w : Word) (stall : Nat) (hk : s.keeps kq km) : didKeeps kq km (s.exf e w stall) := by
  unfold State.exf
  dsimp only
  split
  · exact hk
  · exact setMreg_keeps e _ _ (setUnit_keeps e _ _ (bitOp_keeps e _ _ _ (setPort_keeps e _ _ hk)))

theorem microSync_keeps (e : EngId) (stall : Nat) (hk : s.keeps kq km) : didKeeps kq km (s.microSync e stall) := by
  unfold State.microSync
  split
  · exact hk
  · exact modEng_keeps e _ (applyPend_keeps e hk)

theorem waitc_keeps (e : EngId) (stall : Nat) (hk : s.keeps kq km) : (s.waitc e stall).keeps kq km :=
  micro_keeps e _ _ hk fun _ _ _ h => microFinish_keeps e _ _ _ _ h h

theorem nano_keeps (e : EngId) (w : Word) (a stall : Nat) (hk : s.keeps kq km) : didKeeps kq km (s.nano e w a stall) := by
  unfold State.nano
  extract_lets n r wild v lo hi t g
  have hr : r.2.2.keeps kq km := seqEntry_keeps e _ _ hk
  have ht : t.keeps kq km := keeps_ite (fun _ => drawn_keeps _ hr) (fun _ => hr)
  clear_value t
  have h := fare_keeps e g false ht
  split
  · exact syncExc_keeps e _ hr
  split
  · exact syncExc_keeps e _ ht
  split
  · exact microFault_keeps e _ _ ht
  split
  · next x hx => rw [hx] at h; exact h
  · next v x hx => rw [hx] at h; exact h
  · next x c fe mc hx => rw [hx] at h; exact perf_keeps e _ _ h

theorem dispatch_keeps (e : EngId) (hk : s.keeps kq km) : (s.dispatch e).keeps kq km := by
  unfold State.dispatch
  have h := microLoad_keeps e (s.port e sMPC) 4 hk
  extract_lets u mpc
  split
  · exact hk
  split
  · next t ht => rw [ht] at h; exact h
  · next t ht => rw [ht] at h; exact waited_keeps e _ hk h
  · next v sp t ht =>
    rw [ht] at h
    have h : t.keeps kq km := h
    dsimp only
    repeat' first
      | with_reducible assumption
      | with_reducible apply syncDue_keeps
      | with_reducible apply syncExc_keeps
      | with_reducible apply catMiss_keeps
      | with_reducible apply modEng_keeps
      | with_reducible apply microSlip_keeps
      | with_reducible apply setPort_keeps
      | with_reducible apply seqEntry_keeps
      | with_reducible apply setReg_keeps
      | with_reducible apply drawWord_keeps
      | with_reducible apply keeps_ite
      | intro _

end Sys2Proof.Laws
end

