-- ==== Sys2Proof/Laws/KeepsBlocks.lean ====
section
/-! SUPPORT. What the operations of links, Almanac, Hatorlink, supply and peripherals keep: canonical maps, the queue, and the engines that are present. -/

namespace Sys2Proof.Laws

open Sys2Proof.Machine

variable {kq : List Instr} {km : Half} {s : State}

theorem setHlPort_keeps (p : PortId) (x : HlPort) (hk : s.keeps kq km) :
    (State.setHlPort s p x).keeps kq km := by
  unfold State.setHlPort
  repeat' first | with_reducible assumption | with_reducible apply keeps_ite | intro _ | split | with_reducible apply keeps_mk

theorem modHlPort_keeps (p : PortId) (f : HlPort → HlPort) (hk : s.keeps kq km) :
    (State.modHlPort s p f).keeps kq km := by
  unfold State.modHlPort
  repeat' first | with_reducible assumption | with_reducible apply setHlPort_keeps

theorem hlQueue_keeps (p : PortId) (f : HlFrame) (due : Stamp) (orig : Bool) (hk : s.keeps kq km) :
    (State.hlQueue s p f due orig).keeps kq km := by
  unfold State.hlQueue
  repeat' first | with_reducible assumption | with_reducible apply modHlPort_keeps

theorem hlBroadcast_keeps (f : HlFrame) (orig : Bool) (hk : s.keeps kq km) :
    (State.hlBroadcast s f orig).keeps kq km := by
  unfold State.hlBroadcast
  repeat' first
    | with_reducible assumption
    | with_reducible apply forAll_keeps
    | with_reducible apply hlQueue_keeps
    | with_reducible apply keeps_ite
    | with_reducible apply forAll_keeps
    | intro _

theorem setMsgs_keeps (ms : List HlMsg) (hk : s.keeps kq km) :
    (State.setMsgs s ms).keeps kq km := by
  unfold State.setMsgs
  repeat' first | with_reducible assumption | with_reducible apply keeps_ite | intro _ | split | with_reducible apply keeps_mk

theorem msgDeliver_keeps (src : NodeId) (lo hi : Word) (hk : s.keeps kq km) :
    (State.msgDeliver s src lo hi).2.keeps kq km := by
  unfold State.msgDeliver
  repeat' first
    | with_reducible assumption
    | with_reducible apply wakeSource_keeps
    | with_reducible apply inbound_keeps
    | with_reducible apply keeps_ite
    | intro _
    | split
    | dsimp only

theorem msgDiscard_keeps (m : HlMsg) (hk : s.keeps kq km) :
    (State.msgDiscard s m).keeps kq km := by
  unfold State.msgDiscard
  repeat' first
    | with_reducible assumption
    | with_reducible apply drawWord_keeps
    | with_reducible apply orReg_keeps
    | with_reducible apply incReg_keeps
    | with_reducible apply log_keeps
    | with_reducible apply setMsgs_keeps
    | with_reducible apply keeps_ite
    | intro _
    | split

theorem msgBusy_keeps (m : HlMsg) (hk : s.keeps kq km) :
    (State.msgBusy s m).keeps kq km := by
  unfold State.msgBusy
  repeat' first
    | with_reducible assumption
    | with_reducible apply setMsgs_keeps
    | with_reducible apply msgDiscard_keeps
    | with_reducible apply keeps_ite
    | intro _

theorem msgSend_keeps (m : HlMsg) (hk : s.keeps kq km) :
    (State.msgSend s m).keeps kq km := by
  unfold State.msgSend
  repeat' first
    | with_reducible assumption
    | with_reducible apply hlQueue_keeps
    | with_reducible apply setMsgs_keeps
    | with_reducible apply keeps_ite
    | intro _
    | split
    | dsimp only
    | with_reducible apply keeps_mk

theorem msgPump_keeps  (kl : Nat) (hk : s.keeps kq km) :
    (State.msgPump s kl).keeps kq km := by
  induction kl generalizing s with
  | zero => exact hk
  | succ _ ih =>
    unfold State.msgPump
    repeat' first
      | with_reducible assumption
      | with_reducible apply ih
      | with_reducible apply msgSend_keeps
      | with_reducible apply keeps_ite
      | intro _
      | split

theorem msgPost_keeps (src : Option EngId) (node : NodeId) (lo hi : Word) (hk : s.keeps kq km) :
    (State.msgPost s src node lo hi).keeps kq km := by
  unfold State.msgPost
  repeat' first
    | with_reducible assumption
    | with_reducible apply setMsgs_keeps
    | with_reducible apply msgDiscard_keeps
    | with_reducible apply msgPump_keeps
    | with_reducible apply keeps_ite
    | intro _
    | split

theorem msgAnswer_keeps (tag : Byte) (busy : Bool) (hk : s.keeps kq km) :
    (State.msgAnswer s tag busy).keeps kq km := by
  unfold State.msgAnswer
  repeat' first
    | with_reducible assumption
    | with_reducible apply setMsgs_keeps
    | with_reducible apply msgBusy_keeps
    | with_reducible apply msgPump_keeps
    | with_reducible apply keeps_ite
    | intro _
    | split

theorem msgOwn_keeps (tag : Byte) (hk : s.keeps kq km) :
    (State.msgOwn s tag).keeps kq km := by
  unfold State.msgOwn
  repeat' first
    | with_reducible assumption
    | with_reducible apply msgDeliver_keeps
    | with_reducible apply msgAnswer_keeps
    | with_reducible apply keeps_ite
    | intro _
    | split

theorem msgOwnDue_keeps  (hk : s.keeps kq km) :
    (State.msgOwnDue s).keeps kq km := by
  unfold State.msgOwnDue
  repeat' first
    | with_reducible assumption
    | with_reducible apply msgOwn_keeps
    | with_reducible apply keeps_ite
    | with_reducible apply foldl_keeps
    | with_reducible apply foldl_fst_keeps
    | with_reducible apply foldl_snd_keeps
    | intro _
    | split
    | dsimp only
    | with_reducible apply keeps_mk

theorem ringPredict_keeps (r : BaseId) (hk : s.keeps kq km) :
    (State.ringPredict s r).keeps kq km := by
  unfold State.ringPredict
  repeat' first | with_reducible assumption | with_reducible apply setRing_keeps | with_reducible apply keeps_ite | intro _

theorem walkResp_keeps (slot : Nat) (hk : s.keeps kq km) :
    (State.walkResp s slot).2.keeps kq km := by
  unfold State.walkResp
  repeat' first
    | with_reducible assumption
    | with_reducible apply eccRead_keeps
    | with_reducible apply keeps_ite
    | intro _
    | split
    | with_reducible refine snd_keeps (by assumption) ?_
    | with_reducible refine thd_keeps (by assumption) ?_
    | dsimp only
    | with_reducible apply keeps_mk

theorem orderBroken_keeps (r : BaseId) (slot : Nat) (frac : Word) (hk : s.keeps kq km) :
    (State.orderBroken s r slot frac).keeps kq km := by
  unfold State.orderBroken
  repeat' first | with_reducible assumption | with_reducible apply orReg_keeps | with_reducible apply log_keeps

theorem walkerRead_keeps (r : BaseId) (hk : s.keeps kq km) :
    (State.walkerRead s r).keeps kq km := by
  unfold State.walkerRead
  repeat' first
    | with_reducible assumption
    | with_reducible apply setRing_keeps
    | with_reducible apply errResp_keeps
    | with_reducible apply walkResp_keeps
    | with_reducible apply orderBroken_keeps
    | with_reducible apply start_keeps
    | with_reducible apply keeps_ite
    | intro _
    | split
    | with_reducible refine snd_keeps (by assumption) ?_
    | with_reducible refine thd_keeps (by assumption) ?_
    | dsimp only
    | with_reducible apply keeps_mk

theorem ringPass_keeps (r : BaseId) (h : Look) (hk : s.keeps kq km) :
    (State.ringPass s r h).keeps kq km := by
  unfold State.ringPass
  repeat' first
    | with_reducible assumption
    | with_reducible apply setReg_keeps
    | with_reducible apply setRing_keeps
    | with_reducible apply resync_keeps
    | with_reducible apply keeps_ite
    | intro _

theorem countLate_keeps (late : Bool) (hk : s.keeps kq km) :
    (State.countLate s late).keeps kq km := by
  unfold State.countLate
  repeat' first
    | with_reducible assumption
    | with_reducible apply orReg_keeps
    | with_reducible apply incReg_keeps
    | with_reducible apply keeps_ite
    | intro _

theorem badEntry_keeps (r : BaseId) (slot : Nat) (ctl : Word) (hk : s.keeps kq km) :
    (State.badEntry s r slot ctl).keeps kq km := by
  unfold State.badEntry
  repeat' first | with_reducible assumption | with_reducible apply orReg_keeps | with_reducible apply log_keeps

theorem ctlWrite_keeps (slot : Nat) (w : Word) (hk : s.keeps kq km) :
    (State.ctlWrite s slot w).keeps kq km := by
  unfold State.ctlWrite
  repeat' first
    | with_reducible assumption
    | with_reducible apply setMemWord_keeps
    | with_reducible apply eccWrite_keeps
    | with_reducible apply keeps_ite
    | intro _

theorem clearOnce_keeps (h : Look) (hk : s.keeps kq km) :
    (State.clearOnce s h).keeps kq km := by
  unfold State.clearOnce
  repeat' first | with_reducible assumption | with_reducible apply ctlWrite_keeps | with_reducible apply keeps_ite | intro _

theorem frameSend_keeps (e : EngId) (f : FReq) (hk : s.keeps kq km) :
    (State.frameSend s e f).keeps kq km := by
  unfold State.frameSend
  repeat' first
    | with_reducible assumption
    | with_reducible apply incReg_keeps
    | with_reducible apply setFrames_keeps
    | with_reducible apply keeps_ite
    | intro _

theorem dispatchEntry_keeps (r : BaseId) (h : Look) (tp : Stamp) (hk : s.keeps kq km) :
    (State.dispatchEntry s r h tp).keeps kq km := by
  unfold State.dispatchEntry
  repeat' first
    | with_reducible assumption
    | with_reducible apply incReg_keeps
    | with_reducible apply entry_keeps
    | with_reducible apply frameSend_keeps
    | with_reducible apply start_keeps
    | with_reducible apply keeps_ite
    | with_reducible apply foldl_keeps
    | with_reducible apply foldl_fst_keeps
    | with_reducible apply foldl_snd_keeps
    | intro _
    | split

theorem postEntry_keeps (r : BaseId) (e : EngId) (lo hi : Word) (hk : s.keeps kq km) :
    (State.postEntry s r e lo hi).keeps kq km := by
  unfold State.postEntry
  repeat' first
    | with_reducible assumption
    | with_reducible apply orReg_keeps
    | with_reducible apply incReg_keeps
    | with_reducible apply log_keeps
    | with_reducible apply inbound_keeps
    | with_reducible apply keeps_ite
    | intro _

theorem captureEntry_keeps (r : BaseId) (h : Look) (tp : Stamp) (hk : s.keeps kq km) :
    (State.captureEntry s r h tp).keeps kq km := by
  unfold State.captureEntry
  repeat' first
    | with_reducible assumption
    | with_reducible apply issueReq_keeps
    | with_reducible apply keeps_ite
    | intro _
    | split
    | with_reducible refine snd_keeps (by assumption) ?_
    | with_reducible refine thd_keeps (by assumption) ?_
    | dsimp only
    | with_reducible apply keeps_mk

theorem entryAction_keeps (r : BaseId) (h : Look) (tp : Stamp) (hk : s.keeps kq km) :
    ∀ t, s.entryAction r h tp = some t → t.keeps kq km := by
  intro t ht
  unfold State.entryAction at ht
  dsimp only at ht
  split at ht
  · cases ht; exact hk
  · split at ht
    · cases ht
    · cases ht; exact dispatchEntry_keeps r h tp hk
  · split at ht
    · cases ht; exact captureEntry_keeps r h tp hk
    · cases ht
  · split at ht
    · cases ht; exact msgPost_keeps _ _ _ _ hk
    · obtain ⟨e, -, rfl⟩ := Option.map_eq_some_iff.mp ht
      exact postEntry_keeps r e _ _ hk
  · cases ht; exact wcByEvent_keeps _ _ hk
  · cases ht

theorem passIdle_keeps (r : BaseId) (h : Look) (hk : s.keeps kq km) :
    (State.passIdle s r h).keeps kq km := by
  unfold State.passIdle
  repeat' first
    | with_reducible assumption
    | with_reducible apply ringPass_keeps
    | with_reducible apply ctlWrite_keeps
    | with_reducible apply keeps_ite
    | intro _

theorem entryPerform_keeps (r : BaseId) (hk : s.keeps kq km) : (s.entryPerform r).keeps kq km := by
  have hp := ringPredict_keeps r hk
  unfold State.entryPerform
  dsimp only
  split
  · exact hp
  · next h _ =>
    repeat' first
      | with_reducible assumption
      | with_reducible apply ringPass_keeps
      | with_reducible apply passIdle_keeps
      | with_reducible apply badEntry_keeps
      | with_reducible apply setMemWord_keeps
      | with_reducible apply incReg_keeps
      | with_reducible apply clearOnce_keeps
      | with_reducible apply countLate_keeps
      | with_reducible apply keeps_ite
      | intro _
      | exact entryAction_keeps r h _ hp _ (by assumption)
      | split

theorem almLockstep_keeps  (hk : s.keeps kq km) :
    (State.almLockstep s).keeps kq km := by
  unfold State.almLockstep
  repeat' first
    | with_reducible assumption
    | with_reducible apply orReg_keeps
    | with_reducible apply forAll_keeps
    | with_reducible apply log_keeps
    | with_reducible apply raiseAll_keeps
    | with_reducible apply makeSafe_keeps
    | with_reducible apply keeps_ite
    | with_reducible apply forAll_keeps
    | intro _
    | split
    | dsimp only
    | with_reducible apply keeps_mk

theorem meetLs_keeps  (hk : s.keeps kq km) :
    (State.meetLs s).keeps kq km := by
  unfold State.meetLs
  repeat' first
    | with_reducible assumption
    | with_reducible apply almLockstep_keeps
    | with_reducible apply keeps_ite
    | intro _
    | split
    | with_reducible apply keeps_mk

theorem edgeCommit_keeps (r : BaseId) (hk : s.keeps kq km) :
    (State.edgeCommit s r).keeps kq km := by
  unfold State.edgeCommit
  repeat' first
    | with_reducible assumption
    | with_reducible apply incReg_keeps
    | with_reducible apply placeEdge_keeps
    | with_reducible apply ringPredict_keeps
    | with_reducible apply ringPass_keeps
    | with_reducible apply countLate_keeps
    | with_reducible apply badEntry_keeps
    | with_reducible apply clearOnce_keeps
    | with_reducible apply meetLs_keeps
    | with_reducible apply keeps_ite
    | intro _
    | split
    | dsimp only

theorem lookReload_keeps (r : BaseId) (slot : Nat) (hk : s.keeps kq km) :
    (State.lookReload s r slot).keeps kq km := by
  unfold State.lookReload
  repeat' first
    | with_reducible assumption
    | with_reducible apply setRing_keeps
    | with_reducible apply orderBroken_keeps
    | with_reducible apply keeps_ite
    | intro _

theorem slotWritten_keeps (slot : Nat) (hk : s.keeps kq km) :
    (State.slotWritten s slot).keeps kq km := by
  unfold State.slotWritten
  repeat' first
    | with_reducible assumption
    | with_reducible apply ctlWrite_keeps
    | with_reducible apply lookReload_keeps
    | with_reducible apply keeps_ite
    | intro _
    | split

theorem tableWrite_keeps (a : Nat) (bs : List Byte) (hk : s.keeps kq km) :
    (State.tableWrite s a bs).keeps kq km := by
  unfold State.tableWrite
  repeat' first | with_reducible assumption | with_reducible apply writeBytes_keeps | with_reducible apply slotWritten_keeps

theorem tableStore_keeps (master a : Nat) (bs : List Byte) (hk : s.keeps kq km) :
    (State.tableStore s master a bs).keeps kq km := by
  unfold State.tableStore
  repeat' first
    | with_reducible assumption
    | with_reducible apply eccWrite_keeps
    | with_reducible apply tableWrite_keeps
    | with_reducible apply keeps_ite
    | intro _

theorem ringEnable_keeps (r : BaseId) (hk : s.keeps kq km) :
    (State.ringEnable s r).keeps kq km := by
  unfold State.ringEnable
  repeat' first
    | with_reducible assumption
    | with_reducible apply orReg_keeps
    | with_reducible apply resync_keeps
    | with_reducible apply invSafe_keeps
    | with_reducible apply keeps_ite
    | intro _

theorem ringDisable_keeps (r : BaseId) (hk : s.keeps kq km) :
    (State.ringDisable s r).keeps kq km := by
  unfold State.ringDisable
  repeat' first | with_reducible assumption | with_reducible apply clrReg_keeps | with_reducible apply setRing_keeps

theorem almEnable_keeps  (hk : s.keeps kq km) :
    (State.almEnable s).keeps kq km := by
  unfold State.almEnable
  repeat' first
    | with_reducible assumption
    | with_reducible apply orReg_keeps
    | with_reducible apply modPin_keeps
    | with_reducible apply forAll_keeps
    | with_reducible apply resync_keeps
    | with_reducible apply invSafe_keeps
    | with_reducible apply keeps_ite
    | with_reducible apply forAll_keeps
    | intro _
    | split
    | dsimp only
    | with_reducible apply keeps_mk

theorem almDisable_keeps  (hk : s.keeps kq km) :
    (State.almDisable s).keeps kq km := by
  unfold State.almDisable
  repeat' first
    | with_reducible assumption
    | with_reducible apply clrReg_keeps
    | with_reducible apply setRing_keeps
    | with_reducible apply forAll_keeps
    | with_reducible apply keeps_ite
    | with_reducible apply forAll_keeps
    | intro _

theorem outbound_keeps (e : EngId) (hk : s.keeps kq km) :
    (State.outbound s e).keeps kq km := by
  unfold State.outbound
  repeat' first
    | with_reducible assumption
    | with_reducible apply orReg_keeps
    | with_reducible apply modEng_keeps
    | with_reducible apply log_keeps
    | with_reducible apply inbound_keeps
    | with_reducible apply msgPost_keeps
    | with_reducible apply tableStore_keeps
    | with_reducible apply keeps_ite
    | intro _
    | split

theorem hlTrain_keeps (p : PortId) (hk : s.keeps kq km) :
    (State.hlTrain s p).keeps kq km := by
  unfold State.hlTrain
  repeat' first | with_reducible assumption | with_reducible apply setFld_keeps | with_reducible apply modHlPort_keeps

theorem hlDown_keeps (p : PortId) (hk : s.keeps kq km) :
    (State.hlDown s p).keeps kq km := by
  unfold State.hlDown
  repeat' first
    | with_reducible assumption
    | with_reducible apply orReg_keeps
    | with_reducible apply setFld_keeps
    | with_reducible apply hlTrain_keeps
    | with_reducible apply keeps_ite
    | intro _

theorem hlEnable_keeps (p : PortId) (hk : s.keeps kq km) :
    (State.hlEnable s p).keeps kq km := by
  unfold State.hlEnable
  repeat' first
    | with_reducible assumption
    | with_reducible apply orReg_keeps
    | with_reducible apply hlTrain_keeps
    | with_reducible apply keeps_ite
    | intro _

theorem hlDisable_keeps (p : PortId) (hk : s.keeps kq km) :
    (State.hlDisable s p).keeps kq km := by
  unfold State.hlDisable
  repeat' first
    | with_reducible assumption
    | with_reducible apply clrReg_keeps
    | with_reducible apply modHlPort_keeps
    | with_reducible apply hlDown_keeps
    | with_reducible apply keeps_ite
    | intro _

theorem hlRetrain_keeps (p : PortId) (hk : s.keeps kq km) :
    (State.hlRetrain s p).keeps kq km := by
  unfold State.hlRetrain
  repeat' first
    | with_reducible assumption
    | with_reducible apply orReg_keeps
    | with_reducible apply setFld_keeps
    | with_reducible apply modHlPort_keeps
    | with_reducible apply hlTrain_keeps
    | with_reducible apply keeps_ite
    | intro _

theorem hlPartner_keeps (p : PortId) (partner : Option NodeId) (hk : s.keeps kq km) :
    (State.hlPartner s p partner).keeps kq km := by
  unfold State.hlPartner
  repeat' first
    | with_reducible assumption
    | with_reducible apply setReg_keeps
    | with_reducible apply clrReg_keeps
    | with_reducible apply keeps_ite
    | intro _
    | split

theorem hlUp_keeps (p : PortId) (partner : NodeId) (nextSeq : Byte) (hk : s.keeps kq km) :
    (State.hlUp s p partner nextSeq).keeps kq km := by
  unfold State.hlUp
  repeat' first
    | with_reducible assumption
    | with_reducible apply orReg_keeps
    | with_reducible apply setFld_keeps
    | with_reducible apply modHlPort_keeps
    | with_reducible apply hlPartner_keeps
    | with_reducible apply keeps_ite
    | intro _

theorem hlTrainFail_keeps (p : PortId) (cause : Nibble) (partner : Option NodeId) (hk : s.keeps kq km) :
    (State.hlTrainFail s p cause partner).keeps kq km := by
  unfold State.hlTrainFail
  repeat' first
    | with_reducible assumption
    | with_reducible apply orReg_keeps
    | with_reducible apply setFld_keeps
    | with_reducible apply modHlPort_keeps
    | with_reducible apply hlPartner_keeps
    | with_reducible apply keeps_ite
    | intro _

theorem txnEnd_keeps (t : HlTxn) (c : Resp) (data : List Byte) (hk : s.keeps kq km) :
    (State.txnEnd s t c data).keeps kq km := by
  unfold State.txnEnd
  repeat' first
    | with_reducible assumption
    | with_reducible apply modReq_keeps
    | with_reducible apply keeps_ite
    | intro _
    | split
    | with_reducible apply keeps_mk

theorem hlQuarantine_keeps (p : PortId) (hk : s.keeps kq km) :
    (State.hlQuarantine s p).keeps kq km := by
  unfold State.hlQuarantine
  repeat' first
    | with_reducible assumption
    | with_reducible apply orReg_keeps
    | with_reducible apply setFld_keeps
    | with_reducible apply log_keeps
    | with_reducible apply txnEnd_keeps
    | with_reducible apply keeps_ite
    | with_reducible apply foldl_keeps
    | with_reducible apply foldl_fst_keeps
    | with_reducible apply foldl_snd_keeps
    | intro _

theorem hlRoll_keeps (p : PortId) (hk : s.keeps kq km) :
    (State.hlRoll s p).keeps kq km := by
  unfold State.hlRoll
  repeat' first
    | with_reducible assumption
    | with_reducible apply setReg_keeps
    | with_reducible apply modHlPort_keeps
    | with_reducible apply keeps_ite
    | intro _

theorem hlViolate_keeps (p : PortId) (hk : s.keeps kq km) :
    (State.hlViolate s p).keeps kq km := by
  unfold State.hlViolate
  repeat' first
    | with_reducible assumption
    | with_reducible apply setFld_keeps
    | with_reducible apply hlQuarantine_keeps
    | with_reducible apply hlRoll_keeps
    | with_reducible apply keeps_ite
    | intro _

theorem hlError_keeps (p : PortId) (counter flag : Nat) (hk : s.keeps kq km) :
    (State.hlError s p counter flag).keeps kq km := by
  unfold State.hlError
  repeat' first
    | with_reducible assumption
    | with_reducible apply orReg_keeps
    | with_reducible apply incReg_keeps
    | with_reducible apply hlViolate_keeps

theorem hlLcs_keeps (p : PortId) (ack : Bool) (seq : Byte) (hk : s.keeps kq km) :
    (State.hlLcs s p ack seq).keeps kq km := by
  unfold State.hlLcs
  repeat' first | with_reducible assumption | with_reducible apply drawn_keeps | with_reducible apply modHlPort_keeps

theorem hlAck_keeps (p : PortId) (seq : Byte) (hk : s.keeps kq km) :
    (State.hlAck s p seq).keeps kq km := by
  unfold State.hlAck
  repeat' first | with_reducible assumption | with_reducible apply hlLcs_keeps

theorem hlNak_keeps (p : PortId) (hk : s.keeps kq km) :
    (State.hlNak s p).keeps kq km := by
  unfold State.hlNak
  repeat' first | with_reducible assumption | with_reducible apply hlLcs_keeps

theorem hlReplay_keeps (p : PortId) (seq : Byte) (hk : s.keeps kq km) :
    (State.hlReplay s p seq).keeps kq km := by
  unfold State.hlReplay
  repeat' first
    | with_reducible assumption
    | with_reducible apply orReg_keeps
    | with_reducible apply setFld_keeps
    | with_reducible apply setHlPort_keeps
    | with_reducible apply hlTrain_keeps
    | with_reducible apply hlError_keeps
    | with_reducible apply keeps_ite
    | intro _

theorem hlCover_keeps (p : PortId) (seq cred : Byte) (incl : Bool) (hk : s.keeps kq km) :
    (State.hlCover s p seq cred incl).2.keeps kq km := by
  unfold State.hlCover
  repeat' first
    | with_reducible assumption
    | with_reducible apply setHlPort_keeps
    | with_reducible apply keeps_ite
    | intro _
    | split
    | dsimp only

theorem hlAckIn_keeps (p : PortId) (seq cred : Byte) (hk : s.keeps kq km) :
    (State.hlAckIn s p seq cred).keeps kq km := by
  unfold State.hlAckIn
  repeat' first
    | with_reducible assumption
    | with_reducible apply modHlPort_keeps
    | with_reducible apply hlError_keeps
    | with_reducible apply hlCover_keeps
    | with_reducible apply keeps_ite
    | intro _

theorem hlNakIn_keeps (p : PortId) (seq cred : Byte) (hk : s.keeps kq km) :
    (State.hlNakIn s p seq cred).keeps kq km := by
  unfold State.hlNakIn
  repeat' first
    | with_reducible assumption
    | with_reducible apply hlError_keeps
    | with_reducible apply hlReplay_keeps
    | with_reducible apply hlCover_keeps
    | with_reducible apply keeps_ite
    | intro _

theorem hlAckTimeout_keeps (p : PortId) (hk : s.keeps kq km) :
    (State.hlAckTimeout s p).keeps kq km := by
  unfold State.hlAckTimeout
  repeat' first
    | with_reducible assumption
    | with_reducible apply hlReplay_keeps
    | with_reducible apply keeps_ite
    | intro _
    | split

theorem hlLeave_keeps (p : PortId) (f : HlFrame) (hk : s.keeps kq km) :
    (State.hlLeave s p f).keeps kq km := by
  unfold State.hlLeave
  repeat' first | with_reducible assumption | with_reducible apply modHlPort_keeps

theorem hlClock_keeps (f : HlFrame) (hk : s.keeps kq km) :
    (State.hlClock s f).keeps kq km := by
  unfold State.hlClock
  repeat' first | with_reducible assumption | with_reducible apply keeps_ite | intro _ | split | with_reducible apply keeps_mk

theorem hlSendNew_keeps (p : PortId) (i : HlItem) (hk : s.keeps kq km) :
    (State.hlSendNew s p i).keeps kq km := by
  unfold State.hlSendNew
  repeat' first
    | with_reducible assumption
    | with_reducible apply setHlPort_keeps
    | with_reducible apply hlLeave_keeps
    | with_reducible apply hlClock_keeps

theorem frameOut_keeps (p : PortId) (hk : s.keeps kq km) :
    (State.frameOut s p).keeps kq km := by
  unfold State.frameOut
  repeat' first
    | with_reducible assumption
    | with_reducible apply incReg_keeps
    | with_reducible apply setHlPort_keeps
    | with_reducible apply hlReplay_keeps
    | with_reducible apply hlLeave_keeps
    | with_reducible apply hlSendNew_keeps
    | with_reducible apply keeps_ite
    | intro _
    | split
    | dsimp only

theorem hlRespond_keeps (p : PortId) (typ : Nibble) (dst : NodeId) (tag : Byte) (w2 w3 : Word) (data : List Byte) (hk : s.keeps kq km) :
    (State.hlRespond s p typ dst tag w2 w3 data).keeps kq km := by
  unfold State.hlRespond
  repeat' first
    | with_reducible assumption
    | with_reducible apply hlQueue_keeps
    | with_reducible apply keeps_ite
    | intro _
    | split

theorem hlStrayIn_keeps (p : PortId) (f : HlFrame) (hk : s.keeps kq km) :
    (State.hlStrayIn s p f).keeps kq km := by
  unfold State.hlStrayIn
  repeat' first
    | with_reducible assumption
    | with_reducible apply hlError_keeps
    | with_reducible apply hlRespond_keeps
    | with_reducible apply keeps_ite
    | intro _

theorem hlTake_keeps (p : PortId) (f : HlFrame) (hk : s.keeps kq km) :
    (State.hlTake s p f).keeps kq km := by
  unfold State.hlTake
  repeat' first
    | with_reducible assumption
    | with_reducible apply modHlPort_keeps
    | with_reducible apply hlAck_keeps
    | with_reducible apply keeps_ite
    | intro _

theorem hlPass_keeps (p q : PortId) (f : HlFrame) (due : Stamp) (hk : s.keeps kq km) :
    (State.hlPass s p q f due).keeps kq km := by
  unfold State.hlPass
  repeat' first | with_reducible assumption | with_reducible apply modHlPort_keeps

theorem hlRelay_keeps (p : PortId) (f : HlFrame) (due : Stamp) (hk : s.keeps kq km) :
    (State.hlRelay s p f due).keeps kq km := by
  unfold State.hlRelay
  repeat' first
    | with_reducible assumption
    | with_reducible apply forAll_keeps
    | with_reducible apply hlPass_keeps
    | with_reducible apply keeps_ite
    | with_reducible apply forAll_keeps
    | intro _
    | split

theorem hlReceive_keeps (p : PortId) (f : HlFrame) (due : Stamp) (act : State → State) (hk : s.keeps kq km)
    (hf : ∀ t, t.keeps kq km → (act t).keeps kq km) : (s.hlReceive p f due act).keeps kq km := by
  unfold State.hlReceive
  dsimp only
  repeat' first
    | with_reducible assumption
    | with_reducible apply hf
    | with_reducible apply hlError_keeps
    | with_reducible apply hlNak_keeps
    | with_reducible apply hlAck_keeps
    | with_reducible apply hlStrayIn_keeps
    | with_reducible apply hlRelay_keeps
    | with_reducible apply hlTake_keeps
    | with_reducible apply setHlPort_keeps
    | with_reducible apply modHlPort_keeps
    | with_reducible apply keeps_ite
    | intro _

theorem hlCutOff_keeps (p : PortId) (f : HlFrame) (hk : s.keeps kq km) :
    (State.hlCutOff s p f).keeps kq km := by
  unfold State.hlCutOff
  repeat' first
    | with_reducible assumption
    | with_reducible apply forAll_keeps
    | with_reducible apply modHlPort_keeps
    | with_reducible apply keeps_ite
    | with_reducible apply forAll_keeps
    | intro _
    | split

theorem hlSkip_keeps (p : PortId) (hk : s.keeps kq km) :
    (State.hlSkip s p).keeps kq km := by
  unfold State.hlSkip
  repeat' first | with_reducible assumption | with_reducible apply modHlPort_keeps | with_reducible apply hlAck_keeps

theorem hlBadFrame_keeps (p : PortId) (err : FrameError) (hk : s.keeps kq km) :
    (State.hlBadFrame s p err).keeps kq km := by
  unfold State.hlBadFrame
  repeat' first
    | with_reducible assumption
    | with_reducible apply incReg_keeps
    | with_reducible apply hlError_keeps
    | with_reducible apply hlAck_keeps
    | with_reducible apply hlNak_keeps
    | with_reducible apply hlStrayIn_keeps
    | with_reducible apply hlSkip_keeps
    | with_reducible apply keeps_ite
    | intro _
    | split

theorem hlBad_keeps (p : PortId) (err : FrameError) (copy : Option HlFrame) (hk : s.keeps kq km) :
    (State.hlBad s p err copy).keeps kq km := by
  unfold State.hlBad
  repeat' first
    | with_reducible assumption
    | with_reducible apply hlCutOff_keeps
    | with_reducible apply hlBadFrame_keeps
    | with_reducible apply keeps_ite
    | intro _
    | split

theorem tsyncSend_keeps  (hk : s.keeps kq km) :
    (State.tsyncSend s).keeps kq km := by
  unfold State.tsyncSend
  repeat' first
    | with_reducible assumption
    | with_reducible apply hlBroadcast_keeps
    | with_reducible apply keeps_ite
    | intro _
    | split
    | with_reducible apply keeps_mk

theorem tbCorrect_keeps (e : Int) (hk : s.keeps kq km) :
    (State.tbCorrect s e).keeps kq km := by
  unfold State.tbCorrect
  repeat' first
    | with_reducible assumption
    | with_reducible apply setReg_keeps
    | with_reducible apply orReg_keeps
    | with_reducible apply putBit_keeps
    | with_reducible apply almSeesAll_keeps
    | with_reducible apply keeps_ite
    | intro _
    | split
    | dsimp only
    | with_reducible apply keeps_mk

theorem tsyncUse_keeps (p : PortId) (f : HlFrame) (rx : Stamp) (hk : s.keeps kq km) :
    (State.tsyncUse s p f rx).keeps kq km := by
  unfold State.tsyncUse
  repeat' first
    | with_reducible assumption
    | with_reducible apply tbCorrect_keeps
    | with_reducible apply keeps_ite
    | intro _
    | split
    | dsimp only
    | with_reducible apply keeps_mk

theorem angleSnapshot_keeps (b : BaseId) (hk : s.keeps kq km) :
    (State.angleSnapshot s b).keeps kq km := by
  unfold State.angleSnapshot
  repeat' first
    | with_reducible assumption
    | with_reducible apply modBase_keeps
    | with_reducible apply hlBroadcast_keeps
    | with_reducible apply keeps_ite
    | intro _
    | split
    | dsimp only
    | with_reducible apply keeps_mk

theorem angleDeliver_keeps (n : NodeId) (k : Nat) (x : Snap) (hk : s.keeps kq km) :
    (State.angleDeliver s n k x).keeps kq km := by
  unfold State.angleDeliver
  repeat' first
    | with_reducible assumption
    | with_reducible apply forAll_keeps
    | with_reducible apply snapArrive_keeps
    | with_reducible apply keeps_ite
    | with_reducible apply forAll_keeps
    | intro _
    | split
    | with_reducible apply keeps_mk

theorem remoteIn_keeps (p : PortId) (f : HlFrame) (kind : ReqKind) (size : Nat) (data : List Byte) (hk : s.keeps kq km) :
    (State.remoteIn s p f kind size data).keeps kq km := by
  unfold State.remoteIn
  repeat' first
    | with_reducible assumption
    | with_reducible apply issueReq_keeps
    | with_reducible apply hlRespond_keeps
    | with_reducible apply keeps_ite
    | intro _
    | split
    | with_reducible refine snd_keeps (by assumption) ?_
    | with_reducible refine thd_keeps (by assumption) ?_
    | dsimp only
    | with_reducible apply keeps_mk

theorem remoteDone_keeps (id : Nat) (c : Resp) (data : List Byte) (hk : s.keeps kq km) :
    (State.remoteDone s id c data).keeps kq km := by
  unfold State.remoteDone
  repeat' first
    | with_reducible assumption
    | with_reducible apply hlRespond_keeps
    | with_reducible apply keeps_ite
    | intro _
    | split
    | dsimp only
    | with_reducible apply keeps_mk

theorem remoteResponse_keeps (p : PortId) (f : HlFrame) (hk : s.keeps kq km) :
    (State.remoteResponse s p f).keeps kq km := by
  unfold State.remoteResponse
  repeat' first
    | with_reducible assumption
    | with_reducible apply incReg_keeps
    | with_reducible apply txnEnd_keeps
    | with_reducible apply hlError_keeps
    | with_reducible apply keeps_ite
    | intro _
    | split

theorem tagTimeout_keeps (tag : Byte) (hk : s.keeps kq km) :
    (State.tagTimeout s tag).keeps kq km := by
  unfold State.tagTimeout
  repeat' first
    | with_reducible assumption
    | with_reducible apply msgDiscard_keeps
    | with_reducible apply msgPump_keeps
    | with_reducible apply txnEnd_keeps
    | with_reducible apply keeps_ite
    | intro _
    | split

theorem remoteOut_keeps (r : Req) (own : Word → State) (hk : s.keeps kq km) (hf : ∀ w, (own w).keeps kq km) :
    (s.remoteOut r own).keeps kq km := by
  unfold State.remoteOut
  dsimp only
  repeat' first
    | with_reducible assumption
    | with_reducible apply hf
    | with_reducible apply modReq_keeps
    | with_reducible apply hlQueue_keeps
    | with_reducible apply keeps_ite
    | intro _
    | split
    | with_reducible apply keeps_mk

theorem borrowStart_keeps (found : MarchResult) (hk : s.keeps kq km) :
    (State.borrowStart s found).keeps kq km := by
  unfold State.borrowStart
  repeat' first
    | with_reducible assumption
    | with_reducible apply setReg_keeps
    | with_reducible apply setFld_keeps
    | with_reducible apply keeps_ite
    | intro _
    | split
    | dsimp only
    | with_reducible apply keeps_mk

theorem marchFail_keeps (i off bit : Nat) (hk : s.keeps kq km) :
    (State.marchFail s i off bit).keeps kq km := by
  unfold State.marchFail
  repeat' first
    | with_reducible assumption
    | with_reducible apply setReg_keeps
    | with_reducible apply orReg_keeps
    | with_reducible apply incReg_keeps
    | with_reducible apply log_keeps
    | with_reducible apply keeps_ite
    | intro _

theorem shadowLost_keeps (i off : Nat) (hk : s.keeps kq km) :
    (State.shadowLost s i off).keeps kq km := by
  unfold State.shadowLost
  repeat' first
    | with_reducible assumption
    | with_reducible apply orReg_keeps
    | with_reducible apply log_keeps
    | with_reducible apply keeps_ite
    | intro _
    | split
    | dsimp only
    | with_reducible apply keeps_mk

theorem marchInjected_keeps (b : Borrow) (hk : s.keeps kq km) :
    (State.marchInjected s b).keeps kq km := by
  unfold State.marchInjected
  repeat' first
    | with_reducible assumption
    | with_reducible apply marchFail_keeps
    | with_reducible apply keeps_ite
    | intro _
    | split
    | with_reducible apply keeps_mk

theorem borrowEnd_keeps (b : Borrow) (hk : s.keeps kq km) :
    (State.borrowEnd s b).keeps kq km := by
  unfold State.borrowEnd
  repeat' first
    | with_reducible assumption
    | with_reducible apply setFld_keeps
    | with_reducible apply marchFail_keeps
    | with_reducible apply shadowLost_keeps
    | with_reducible apply marchInjected_keeps
    | with_reducible apply keeps_ite
    | with_reducible apply foldl_keeps
    | with_reducible apply foldl_fst_keeps
    | with_reducible apply foldl_snd_keeps
    | intro _
    | split
    | dsimp only
    | with_reducible apply keeps_mk

theorem borrowCount_keeps (b : Borrow) (hk : s.keeps kq km) :
    (State.borrowCount s b).keeps kq km := by
  unfold State.borrowCount
  repeat' first
    | with_reducible assumption
    | with_reducible apply orReg_keeps
    | with_reducible apply incReg_keeps
    | with_reducible apply keeps_ite
    | intro _

theorem borrowTick_keeps  (hk : s.keeps kq km) :
    (State.borrowTick s).keeps kq km := by
  unfold State.borrowTick
  repeat' first
    | with_reducible assumption
    | with_reducible apply setFld_keeps
    | with_reducible apply borrowEnd_keeps
    | with_reducible apply borrowCount_keeps
    | with_reducible apply keeps_ite
    | intro _
    | split

theorem borrowRecall_keeps  (hk : s.keeps kq km) :
    (State.borrowRecall s).keeps kq km := by
  unfold State.borrowRecall
  repeat' first
    | with_reducible assumption
    | with_reducible apply borrowAbandon_keeps
    | with_reducible apply start_keeps
    | with_reducible apply keeps_ite
    | intro _
    | split
    | dsimp only
    | with_reducible apply keeps_mk

theorem neverBorrow_keeps (w : Nat) (v : Word) (hk : s.keeps kq km) :
    (State.neverBorrow s w v).keeps kq km := by
  unfold State.neverBorrow
  repeat' first
    | with_reducible assumption
    | with_reducible apply setReg_keeps
    | with_reducible apply borrowRecall_keeps
    | with_reducible apply keeps_ite
    | intro _
    | split
    | dsimp only

theorem scrub_keeps  (hk : s.keeps kq km) :
    (State.scrub s).keeps kq km := by
  unfold State.scrub
  repeat' first
    | with_reducible assumption
    | with_reducible apply orReg_keeps
    | with_reducible apply incReg_keeps
    | with_reducible apply eccRead_keeps
    | with_reducible apply keeps_ite
    | with_reducible apply foldl_keeps
    | with_reducible apply foldl_fst_keeps
    | with_reducible apply foldl_snd_keeps
    | intro _
    | split
    | with_reducible refine snd_keeps (by assumption) ?_
    | with_reducible refine thd_keeps (by assumption) ?_
    | dsimp only
    | with_reducible apply keeps_mk

theorem wdReload_keeps (e : EngId) (hk : s.keeps kq km) :
    (State.wdReload s e).keeps kq km := by
  unfold State.wdReload
  repeat' first | with_reducible assumption | with_reducible apply setReg_keeps | with_reducible apply modEng_keeps

theorem wdExpire_keeps (e : EngId) (hk : s.keeps kq km) :
    (State.wdExpire s e).keeps kq km := by
  unfold State.wdExpire
  repeat' first
    | with_reducible assumption
    | with_reducible apply orReg_keeps
    | with_reducible apply modEng_keeps
    | with_reducible apply log_keeps
    | with_reducible apply raise_keeps
    | with_reducible apply halt_keeps
    | with_reducible apply groupsSafe_keeps
    | with_reducible apply wdReload_keeps
    | with_reducible apply keeps_ite
    | intro _

theorem wdKick_keeps (e : EngId) (hk : s.keeps kq km) :
    (State.wdKick s e).keeps kq km := by
  unfold State.wdKick
  repeat' first
    | with_reducible assumption
    | with_reducible apply clrReg_keeps
    | with_reducible apply wdReload_keeps
    | with_reducible apply wdExpire_keeps

theorem wdControl_keeps (e : EngId) (v : Word) (hk : s.keeps kq km) :
    (State.wdControl s e v).keeps kq km := by
  unfold State.wdControl
  repeat' first
    | with_reducible assumption
    | with_reducible apply setReg_keeps
    | with_reducible apply wdReload_keeps
    | with_reducible apply on_keeps
    | with_reducible apply keeps_ite
    | intro _

theorem errPut_keeps (k : Nat) (x : LogEntry) (hk : s.keeps kq km) :
    (State.errPut s k x).keeps kq km := by
  unfold State.errPut
  repeat' first
    | with_reducible assumption
    | with_reducible apply setReg_keeps
    | with_reducible apply keeps_ite
    | with_reducible apply foldl_keeps
    | with_reducible apply foldl_fst_keeps
    | with_reducible apply foldl_snd_keeps
    | intro _

theorem errAccept_keeps (hk : s.keeps kq km) : (s.errAccept).keeps kq km := by
  unfold State.errAccept
  split
  · exact hk
  · next x xs h =>
    have hx : State.keeps kq km { s with logq := xs, logAt := some s.now } := by
      refine ⟨⟨hk.1.1, hk.1.2.1, ?_⟩, hk.2⟩
      have hl := hk.1.2.2
      split at h
      · cases h
      · rw [h] at hl; exact Nat.le_of_succ_le hl
    generalize ({ s with logq := xs, logAt := some s.now } : State) = t at hx
    dsimp only
    repeat' first
      | with_reducible assumption
      | with_reducible apply errPut_keeps
      | with_reducible apply setFld_keeps
      | with_reducible apply orReg_keeps
      | with_reducible apply logLost_keeps
      | with_reducible apply keeps_ite
      | intro _

theorem errPop_keeps  (hk : s.keeps kq km) :
    (State.errPop s).keeps kq km := by
  unfold State.errPop
  repeat' first | with_reducible assumption | with_reducible apply setFld_keeps | with_reducible apply keeps_ite | intro _

theorem lineBreak_keeps (r : RcvId) (n : Nat) (hk : s.keeps kq km) :
    (State.lineBreak s r n).keeps kq km := by
  unfold State.lineBreak
  repeat' first
    | with_reducible assumption
    | with_reducible apply orReg_keeps
    | with_reducible apply log_keeps
    | with_reducible apply keeps_ite
    | intro _
    | split
    | with_reducible apply keeps_mk

theorem brkClear_keeps (v : Word) (hk : s.keeps kq km) :
    (State.brkClear s v).keeps kq km := by
  unfold State.brkClear
  repeat' first
    | with_reducible assumption
    | with_reducible apply orReg_keeps
    | with_reducible apply clrReg_keeps
    | with_reducible apply forAll_keeps
    | with_reducible apply keeps_ite
    | with_reducible apply forAll_keeps
    | intro _

theorem injectCe_keeps (store : Nat) (hk : s.keeps kq km) :
    (State.injectCe s store).keeps kq km := by
  unfold State.injectCe
  repeat' first | with_reducible assumption | with_reducible apply keeps_ite | intro _ | split | with_reducible apply keeps_mk

theorem injectUe_keeps (store : Nat) (hk : s.keeps kq km) :
    (State.injectUe s store).keeps kq km := by
  unfold State.injectUe
  repeat' first | with_reducible assumption | with_reducible apply keeps_ite | intro _ | split | with_reducible apply keeps_mk

theorem injectBrk_keeps (r : RcvId) (hk : s.keeps kq km) :
    (State.injectBrk s r).keeps kq km := by
  unfold State.injectBrk
  repeat' first | with_reducible assumption | with_reducible apply lineBreak_keeps

theorem remapWrite_keeps (on : Bool) (hk : s.keeps kq km) :
    (State.remapWrite s on).keeps kq km := by
  unfold State.remapWrite
  repeat' first
    | with_reducible assumption
    | with_reducible apply putBit_keeps
    | with_reducible apply on_keeps
    | with_reducible apply keeps_ite
    | intro _

theorem blank_keeps (keep : Nat → Bool) (hk : s.keeps kq km) : (s.blank keep).keeps kq km :=
  ⟨⟨hk.1.1, mapWf_drop Reg.resetValue (fun a => !keep a) s.csr hk.1.2.1, hk.1.2.2⟩, hk.2⟩

theorem noRequest_keeps  (hk : s.keeps kq km) :
    (State.noRequest s).keeps kq km := by
  unfold State.noRequest
  repeat' first
    | with_reducible assumption
    | with_reducible apply clrReg_keeps
    | with_reducible apply keeps_ite
    | intro _
    | split
    | with_reducible apply keeps_mk

theorem stopDevice_keeps  (hk : s.keeps kq km) :
    (State.stopDevice s).keeps kq km := by
  unfold State.stopDevice
  repeat' first
    | with_reducible assumption
    | with_reducible apply setReg_keeps
    | with_reducible apply setFld_keeps
    | with_reducible apply blank_keeps
    | with_reducible apply noRequest_keeps
    | with_reducible apply keeps_ite
    | intro _
    | split
    | dsimp only
    | with_reducible apply keeps_mk

theorem clearBanks_keeps (p : Nat → Bool) (last : Nat) (ms : Bool) (hk : s.keeps kq km) :
    (State.clearBanks s p last ms).keeps kq km := by
  unfold State.clearBanks
  repeat' first
    | with_reducible assumption
    | with_reducible apply setReg_keeps
    | with_reducible apply clearMem_keeps
    | with_reducible apply keeps_ite
    | intro _
    | split
    | dsimp only
    | with_reducible apply keeps_mk

theorem romEngine_keeps  (hk : s.keeps kq km) :
    (State.romEngine s).keeps kq km := by
  unfold State.romEngine
  repeat' first
    | with_reducible assumption
    | with_reducible apply setReg_keeps
    | with_reducible apply orReg_keeps
    | with_reducible apply modEng_keeps
    | with_reducible apply setPort_keeps

theorem romStop_keeps (chk : Bool) (hk : s.keeps kq km) :
    (State.romStop s chk).keeps kq km := by
  unfold State.romStop
  repeat' first
    | with_reducible assumption
    | with_reducible apply setReg_keeps
    | with_reducible apply putBit_keeps
    | with_reducible apply modEng_keeps
    | with_reducible apply setPort_keeps
    | with_reducible apply keeps_ite
    | with_reducible apply foldl_keeps
    | with_reducible apply foldl_fst_keeps
    | with_reducible apply foldl_snd_keeps
    | intro _

theorem bootPhase_keeps (phase src : Nat) (hk : s.keeps kq km) :
    (State.bootPhase s phase src).keeps kq km := by
  unfold State.bootPhase
  repeat' first | with_reducible assumption | with_reducible apply setFld_keeps

theorem fallback_keeps  (hk : s.keeps kq km) :
    (State.fallback s).keeps kq km := by
  unfold State.fallback
  repeat' first
    | with_reducible assumption
    | with_reducible apply setReg_keeps
    | with_reducible apply orReg_keeps
    | with_reducible apply setFld_keeps
    | with_reducible apply romEngine_keeps
    | with_reducible apply keeps_ite
    | intro _
    | split
    | dsimp only
    | with_reducible apply keeps_mk

theorem failedStart_keeps  (hk : s.keeps kq km) :
    (State.failedStart s).keeps kq km := by
  unfold State.failedStart
  repeat' first | with_reducible assumption | with_reducible apply setFld_keeps

theorem begin_keeps (origin : Nat) (hk : s.keeps kq km) :
    (State.begin s origin).2.keeps kq km := by
  unfold State.begin
  repeat' first
    | with_reducible assumption
    | with_reducible apply setReg_keeps
    | with_reducible apply setCatalogues_keeps
    | with_reducible apply stopDevice_keeps
    | with_reducible apply clearBanks_keeps
    | with_reducible apply romEngine_keeps
    | with_reducible apply bootPhase_keeps
    | with_reducible apply fallback_keeps
    | with_reducible apply failedStart_keeps
    | with_reducible apply keeps_ite
    | intro _
    | split
    | dsimp only
    | with_reducible apply keeps_mk

theorem beginDue_keeps (origin : Nat) (hk : s.keeps kq km) :
    (State.beginDue s origin).keeps kq km := by
  unfold State.beginDue
  repeat' first
    | with_reducible assumption
    | with_reducible apply stopDevice_keeps
    | with_reducible apply begin_keeps
    | with_reducible apply keeps_ite
    | intro _
    | split
    | with_reducible refine snd_keeps (by assumption) ?_
    | with_reducible refine thd_keeps (by assumption) ?_
    | dsimp only
    | with_reducible apply keeps_mk

theorem powerRequest_keeps (r : Option PowerRequest) (hk : s.keeps kq km) :
    (State.powerRequest s r).keeps kq km := by
  unfold State.powerRequest
  repeat' first
    | with_reducible assumption
    | with_reducible apply orReg_keeps
    | with_reducible apply noRequest_keeps
    | with_reducible apply keeps_ite
    | intro _
    | split
    | dsimp only
    | with_reducible apply keeps_mk

theorem enterHold_keeps  (hk : s.keeps kq km) :
    (State.enterHold s).keeps kq km := by
  unfold State.enterHold
  repeat' first
    | with_reducible assumption
    | with_reducible apply setFld_keeps
    | with_reducible apply noRequest_keeps
    | with_reducible apply keeps_ite
    | intro _
    | split
    | with_reducible apply keeps_mk

theorem keepStructure_keeps {old s : State}  (hk : old.keeps kq km) (hk1 : s.keeps kq km) :
    (State.keepStructure old s).keeps kq km := by
  unfold State.keepStructure
  repeat' first
    | with_reducible assumption
    | with_reducible apply setFld_keeps
    | with_reducible apply forAll_keeps
    | with_reducible apply keeps_ite
    | with_reducible apply forAll_keeps
    | intro _
    | split
    | dsimp only
    | with_reducible apply keeps_mk

theorem switchOff_keeps (off : Bool) (hk : s.keeps kq km) :
    (State.switchOff s off).keeps kq km := by
  unfold State.switchOff
  repeat' first
    | with_reducible assumption
    | with_reducible apply setReg_keeps
    | with_reducible apply clrReg_keeps
    | with_reducible apply setFld_keeps
    | with_reducible apply blank_keeps
    | with_reducible apply noRequest_keeps
    | with_reducible apply keepStructure_keeps
    | with_reducible apply keeps_ite
    | intro _
    | split
    | dsimp only
    | with_reducible apply keeps_mk

theorem retainWake_keeps (cause : Nat) (hk : s.keeps kq km) :
    (State.retainWake s cause).keeps kq km := by
  unfold State.retainWake
  repeat' first
    | with_reducible assumption
    | with_reducible apply setFld_keeps
    | with_reducible apply resetRegs_keeps
    | with_reducible apply modEng_keeps
    | with_reducible apply forAll_keeps
    | with_reducible apply resetEntry_keeps
    | with_reducible apply clearBanks_keeps
    | with_reducible apply keeps_ite
    | with_reducible apply forAll_keeps
    | intro _
    | split
    | dsimp only
    | with_reducible apply keeps_mk

theorem wake_keeps (cause : Nat) (hk : s.keeps kq km) :
    (State.wake s cause).keeps kq km := by
  unfold State.wake
  repeat' first
    | with_reducible assumption
    | with_reducible apply setFld_keeps
    | with_reducible apply wakeHold_keeps
    | with_reducible apply beginDue_keeps
    | with_reducible apply retainWake_keeps
    | with_reducible apply keeps_ite
    | intro _
    | split
    | with_reducible apply keeps_mk

theorem enterRetainOff_keeps  (hk : s.keeps kq km) :
    (State.enterRetainOff s).keeps kq km := by
  unfold State.enterRetainOff
  repeat' first
    | with_reducible assumption
    | with_reducible apply borrowRecall_keeps
    | with_reducible apply switchOff_keeps
    | with_reducible apply wake_keeps
    | with_reducible apply keeps_ite
    | intro _
    | split
    | dsimp only
    | with_reducible apply keeps_mk

theorem powerExc_keeps (bit n : Nat) (hk : s.keeps kq km) :
    (State.powerExc s bit n).keeps kq km := by
  unfold State.powerExc
  repeat' first
    | with_reducible assumption
    | with_reducible apply forAll_keeps
    | with_reducible apply raise_keeps
    | with_reducible apply keeps_ite
    | with_reducible apply forAll_keeps
    | intro _

theorem baroWarn_keeps (mv : Nat) (hk : s.keeps kq km) :
    (State.baroWarn s mv).keeps kq km := by
  unfold State.baroWarn
  repeat' first
    | with_reducible assumption
    | with_reducible apply setReg_keeps
    | with_reducible apply orReg_keeps
    | with_reducible apply log_keeps
    | with_reducible apply powerExc_keeps
    | with_reducible apply keeps_ite
    | intro _
    | split
    | dsimp only
    | with_reducible apply keeps_mk

theorem baroSample_keeps (vin vcore : Half) (hk : s.keeps kq km) :
    (State.baroSample s vin vcore).keeps kq km := by
  unfold State.baroSample
  repeat' first
    | with_reducible assumption
    | with_reducible apply setReg_keeps
    | with_reducible apply baroWarn_keeps
    | with_reducible apply keeps_ite
    | intro _
    | split
    | dsimp only
    | with_reducible apply keeps_mk

theorem baroRecover_keeps  (hk : s.keeps kq km) :
    (State.baroRecover s).keeps kq km := by
  unfold State.baroRecover
  repeat' first
    | with_reducible assumption
    | with_reducible apply orReg_keeps
    | with_reducible apply clrReg_keeps
    | with_reducible apply log_keeps
    | with_reducible apply keeps_ite
    | intro _
    | split
    | dsimp only
    | with_reducible apply keeps_mk

theorem thermalStop_keeps  (hk : s.keeps kq km) :
    (State.thermalStop s).keeps kq km := by
  unfold State.thermalStop
  repeat' first
    | with_reducible assumption
    | with_reducible apply orReg_keeps
    | with_reducible apply noRequest_keeps
    | with_reducible apply switchOff_keeps
    | with_reducible apply keeps_ite
    | intro _
    | split
    | dsimp only
    | with_reducible apply keeps_mk

theorem thermal_keeps (temp : Half) (hk : s.keeps kq km) :
    (State.thermal s temp).keeps kq km := by
  unfold State.thermal
  repeat' first
    | with_reducible assumption
    | with_reducible apply setReg_keeps
    | with_reducible apply orReg_keeps
    | with_reducible apply clrReg_keeps
    | with_reducible apply log_keeps
    | with_reducible apply powerExc_keeps
    | with_reducible apply thermalStop_keeps
    | with_reducible apply keeps_ite
    | intro _
    | split
    | dsimp only
    | with_reducible apply keeps_mk

theorem refSwitch_keeps (src : Bool) (hk : s.keeps kq km) :
    (State.refSwitch s src).keeps kq km := by
  unfold State.refSwitch
  repeat' first
    | with_reducible assumption
    | with_reducible apply orReg_keeps
    | with_reducible apply clrReg_keeps
    | with_reducible apply putBit_keeps
    | with_reducible apply keeps_ite
    | intro _

theorem refRevert_keeps  (hk : s.keeps kq km) :
    (State.refRevert s).keeps kq km := by
  unfold State.refRevert
  repeat' first
    | with_reducible assumption
    | with_reducible apply orReg_keeps
    | with_reducible apply clrReg_keeps
    | with_reducible apply keeps_ite
    | intro _

theorem xinLost_keeps  (hk : s.keeps kq km) :
    (State.xinLost s).keeps kq km := by
  unfold State.xinLost
  repeat' first
    | with_reducible assumption
    | with_reducible apply orReg_keeps
    | with_reducible apply keeps_ite
    | intro _
    | split
    | with_reducible apply keeps_mk

theorem xinBack_keeps  (hk : s.keeps kq km) :
    (State.xinBack s).keeps kq km := by
  unfold State.xinBack
  repeat' first
    | with_reducible assumption
    | with_reducible apply clrReg_keeps
    | with_reducible apply keeps_ite
    | intro _
    | split
    | with_reducible apply keeps_mk

theorem storeRead_keeps (m a n : Nat) (hk : s.keeps kq km) :
    (State.storeRead s m a n).2.2.keeps kq km := by
  unfold State.storeRead
  repeat' first
    | with_reducible assumption
    | with_reducible apply eccRead_keeps
    | with_reducible apply portRead_keeps
    | with_reducible apply keeps_ite
    | intro _
    | split
    | with_reducible refine snd_keeps (by assumption) ?_
    | with_reducible refine thd_keeps (by assumption) ?_
    | dsimp only

theorem storeWrite_keeps (m a : Nat) (bs : List Byte) (atom : Bool) (hk : s.keeps kq km) :
    (State.storeWrite s m a bs atom).2.keeps kq km := by
  unfold State.storeWrite
  repeat' first
    | with_reducible assumption
    | with_reducible apply eccWrite_keeps
    | with_reducible apply storeBytes_keeps
    | with_reducible apply portWrite_keeps
    | with_reducible apply tableWrite_keeps
    | with_reducible apply keeps_ite
    | intro _
    | split
    | with_reducible refine snd_keeps (by assumption) ?_
    | with_reducible refine thd_keeps (by assumption) ?_
    | dsimp only

theorem storeAtomic_keeps (m : Nat) (kind : ReqKind) (a : Nat) (o : Word) (hk : s.keeps kq km) :
    (State.storeAtomic s m kind a o).2.2.keeps kq km := by
  unfold State.storeAtomic
  repeat' first
    | with_reducible assumption
    | with_reducible apply eccRead_keeps
    | with_reducible apply storeWrite_keeps
    | with_reducible apply keeps_ite
    | intro _
    | split
    | with_reducible refine snd_keeps (by assumption) ?_
    | with_reducible refine thd_keeps (by assumption) ?_
    | dsimp only

theorem storeWaits_keeps (a n : Nat) (kind : ReqKind) (hk : s.keeps kq km) :
    (State.storeWaits s a n kind).2.keeps kq km := by
  unfold State.storeWaits
  repeat' first
    | with_reducible assumption
    | with_reducible apply vitrines_keeps
    | with_reducible apply keeps_ite
    | intro _
    | split
    | with_reducible refine snd_keeps (by assumption) ?_
    | with_reducible refine thd_keeps (by assumption) ?_
    | dsimp only

theorem storeBeat_keeps (r : Req) (hk : s.keeps kq km) :
    (State.storeBeat s r).keeps kq km := by
  unfold State.storeBeat
  repeat' first
    | with_reducible assumption
    | with_reducible apply modReq_keeps
    | with_reducible apply eccWrite_keeps
    | with_reducible apply storeRead_keeps
    | with_reducible apply storeWrite_keeps
    | with_reducible apply storeAtomic_keeps
    | with_reducible apply storeWaits_keeps
    | with_reducible apply keeps_ite
    | intro _
    | split

theorem recordCut_keeps (r : Req) (hk : s.keeps kq km) :
    (State.recordCut s r).keeps kq km := by
  unfold State.recordCut
  repeat' first
    | with_reducible assumption
    | with_reducible apply setReg_keeps
    | with_reducible apply orReg_keeps
    | with_reducible apply keeps_ite
    | intro _

theorem finishAtomic_keeps (r : Req) (hk : s.keeps kq km) :
    (State.finishAtomic s r).keeps kq km := by
  unfold State.finishAtomic
  repeat' first
    | with_reducible assumption
    | with_reducible apply remoteOut_keeps
    | with_reducible apply storeAtomic_keeps
    | with_reducible apply keeps_ite
    | intro _
    | split

theorem masterReset_keeps (m : Nat) (hk : s.keeps kq km) :
    (State.masterReset s m).keeps kq km := by
  unfold State.masterReset
  repeat' first
    | with_reducible assumption
    | with_reducible apply incReg_keeps
    | with_reducible apply log_keeps
    | with_reducible apply recordCut_keeps
    | with_reducible apply finishAtomic_keeps
    | with_reducible apply keeps_ite
    | with_reducible apply foldl_keeps
    | with_reducible apply foldl_fst_keeps
    | with_reducible apply foldl_snd_keeps
    | intro _
    | split
    | dsimp only
    | with_reducible apply keeps_mk

theorem pumpReqs_keeps (m : Nat) (kl : Nat) (hk : s.keeps kq km) :
    (State.pumpReqs s m kl).keeps kq km := by
  induction kl generalizing s with
  | zero => exact hk
  | succ _ ih =>
    unfold State.pumpReqs
    repeat' first | with_reducible assumption | with_reducible apply ih | with_reducible apply pumpReq_keeps

theorem dropsEnd_keeps  (hk : s.keeps kq km) :
    (State.dropsEnd s).keeps kq km := by
  unfold State.dropsEnd
  repeat' first
    | with_reducible assumption
    | with_reducible apply forAll_keeps
    | with_reducible apply pumpReqs_keeps
    | with_reducible apply keeps_ite
    | with_reducible apply forAll_keeps
    | intro _
    | split
    | with_reducible apply keeps_mk

theorem modUart_keeps (u : PortId) (f : Uart → Uart) (hk : s.keeps kq km) :
    (State.modUart s u f).keeps kq km := by
  unfold State.modUart
  repeat' first | with_reducible assumption | with_reducible apply keeps_ite | intro _ | split | with_reducible apply keeps_mk

theorem uartStart_keeps (u : PortId) (hk : s.keeps kq km) :
    (State.uartStart s u).keeps kq km := by
  unfold State.uartStart
  repeat' first | with_reducible assumption | with_reducible apply modUart_keeps | with_reducible apply keeps_ite | intro _

theorem uartSend_keeps (u : PortId) (b : Byte) (hk : s.keeps kq km) :
    (State.uartSend s u b).keeps kq km := by
  unfold State.uartSend
  repeat' first
    | with_reducible assumption
    | with_reducible apply modUart_keeps
    | with_reducible apply uartStart_keeps
    | with_reducible apply keeps_ite
    | intro _

theorem uartSent_keeps (u : PortId) (hk : s.keeps kq km) :
    (State.uartSent s u).keeps kq km := by
  unfold State.uartSent
  repeat' first
    | with_reducible assumption
    | with_reducible apply orReg_keeps
    | with_reducible apply modUart_keeps
    | with_reducible apply uartStart_keeps
    | with_reducible apply keeps_ite
    | intro _
    | split

theorem uartReceive_keeps (u : PortId) (ch : UartChar) (hk : s.keeps kq km) :
    (State.uartReceive s u ch).keeps kq km := by
  unfold State.uartReceive
  repeat' first
    | with_reducible assumption
    | with_reducible apply orReg_keeps
    | with_reducible apply parity_keeps
    | with_reducible apply modUart_keeps
    | with_reducible apply keeps_ite
    | intro _

theorem uartRead_keeps (u : PortId) (hk : s.keeps kq km) :
    (State.uartRead s u).2.keeps kq km := by
  unfold State.uartRead
  repeat' first
    | with_reducible assumption
    | with_reducible apply drawWord_keeps
    | with_reducible apply modUart_keeps
    | with_reducible apply keeps_ite
    | intro _
    | split

theorem ctsChange_keeps (u : PortId) (on : Bool) (hk : s.keeps kq km) :
    (State.ctsChange s u on).keeps kq km := by
  unfold State.ctsChange
  repeat' first | with_reducible assumption | with_reducible apply modUart_keeps | with_reducible apply uartStart_keeps

theorem modSpi_keeps (k : SpiId) (f : Spi → Spi) (hk : s.keeps kq km) :
    (State.modSpi s k f).keeps kq km := by
  unfold State.modSpi
  repeat' first | with_reducible assumption | with_reducible apply keeps_ite | intro _ | split | with_reducible apply keeps_mk

theorem spiIn_keeps (k : SpiId) (w : Word) (hk : s.keeps kq km) :
    (State.spiIn s k w).keeps kq km := by
  unfold State.spiIn
  repeat' first
    | with_reducible assumption
    | with_reducible apply orReg_keeps
    | with_reducible apply modSpi_keeps
    | with_reducible apply keeps_ite
    | intro _

theorem spiStart_keeps (k : SpiId) (hk : s.keeps kq km) :
    (State.spiStart s k).keeps kq km := by
  unfold State.spiStart
  repeat' first
    | with_reducible assumption
    | with_reducible apply orReg_keeps
    | with_reducible apply modSpi_keeps
    | with_reducible apply keeps_ite
    | intro _
    | split

theorem spiOff_keeps (k : SpiId) (hk : s.keeps kq km) :
    (State.spiOff s k).keeps kq km := by
  unfold State.spiOff
  repeat' first | with_reducible assumption | with_reducible apply modSpi_keeps | with_reducible apply keeps_ite | intro _

theorem spiSettle_keeps (k : SpiId) (hk : s.keeps kq km) :
    (State.spiSettle s k).keeps kq km := by
  unfold State.spiSettle
  repeat' first
    | with_reducible assumption
    | with_reducible apply setReg_keeps
    | with_reducible apply modSpi_keeps
    | with_reducible apply keeps_ite
    | intro _
    | split

theorem spiBegin_keeps (k : SpiId) (hk : s.keeps kq km) :
    (State.spiBegin s k).keeps kq km := by
  unfold State.spiBegin
  repeat' first
    | with_reducible assumption
    | with_reducible apply orReg_keeps
    | with_reducible apply modSpi_keeps
    | with_reducible apply keeps_ite
    | intro _
    | split

theorem spiFinish_keeps (k : SpiId) (w : Word) (hk : s.keeps kq km) :
    (State.spiFinish s k w).keeps kq km := by
  unfold State.spiFinish
  repeat' first
    | with_reducible assumption
    | with_reducible apply modSpi_keeps
    | with_reducible apply spiIn_keeps
    | with_reducible apply spiStart_keeps
    | with_reducible apply spiSettle_keeps
    | with_reducible apply keeps_ite
    | intro _
    | split

theorem spiWord_keeps (k : SpiId) (w : SpiShift) (hk : s.keeps kq km) :
    (State.spiWord s k w).keeps kq km := by
  unfold State.spiWord
  repeat' first
    | with_reducible assumption
    | with_reducible apply spiBegin_keeps
    | with_reducible apply spiFinish_keeps
    | with_reducible apply keeps_ite
    | intro _

theorem spiWrite_keeps (k : SpiId) (v : Word) (hk : s.keeps kq km) :
    (State.spiWrite s k v).keeps kq km := by
  unfold State.spiWrite
  repeat' first
    | with_reducible assumption
    | with_reducible apply orReg_keeps
    | with_reducible apply modSpi_keeps
    | with_reducible apply spiStart_keeps
    | with_reducible apply keeps_ite
    | intro _

theorem spiRead_keeps (k : SpiId) (hk : s.keeps kq km) :
    (State.spiRead s k).2.keeps kq km := by
  unfold State.spiRead
  repeat' first
    | with_reducible assumption
    | with_reducible apply modSpi_keeps
    | with_reducible apply keeps_ite
    | intro _
    | split

theorem spiControl_keeps (k : SpiId) (v : Word) (hk : s.keeps kq km) :
    (State.spiControl s k v).keeps kq km := by
  unfold State.spiControl
  repeat' first
    | with_reducible assumption
    | with_reducible apply setReg_keeps
    | with_reducible apply modSpi_keeps
    | with_reducible apply spiStart_keeps
    | with_reducible apply spiOff_keeps
    | with_reducible apply keeps_ite
    | intro _

theorem spiFormat_keeps (k : SpiId) (v : Word) (hk : s.keeps kq km) :
    (State.spiFormat s k v).keeps kq km := by
  unfold State.spiFormat
  repeat' first
    | with_reducible assumption
    | with_reducible apply setReg_keeps
    | with_reducible apply modSpi_keeps
    | with_reducible apply keeps_ite
    | intro _

theorem spiPart_keeps (k : SpiId) (hk : s.keeps kq km) :
    (State.spiPart s k).keeps kq km := by
  unfold State.spiPart
  repeat' first
    | with_reducible assumption
    | with_reducible apply orReg_keeps
    | with_reducible apply modSpi_keeps
    | with_reducible apply spiSettle_keeps
    | with_reducible apply keeps_ite
    | intro _

theorem flashPut_keeps (o : Nat) (kl : List Byte) (hk : s.keeps kq km) :
    (State.flashPut s o kl).keeps kq km := by
  induction kl generalizing s o with
  | nil => exact hk
  | cons _ _ ih =>
    unfold State.flashPut
    repeat' first
      | with_reducible assumption
      | with_reducible apply ih
      | with_reducible apply keeps_ite
      | intro _
      | split
      | dsimp only
      | with_reducible apply keeps_mk

theorem flashDo_keeps (op : FlashOp) (hk : s.keeps kq km) :
    (State.flashDo s op).keeps kq km := by
  unfold State.flashDo
  repeat' first
    | with_reducible assumption
    | with_reducible apply drawWord_keeps
    | with_reducible apply flashPut_keeps
    | with_reducible apply keeps_ite
    | intro _
    | split
    | with_reducible refine snd_keeps (by assumption) ?_
    | with_reducible refine thd_keeps (by assumption) ?_
    | dsimp only
    | with_reducible apply keeps_mk

theorem modI2c_keeps (i : PairId) (f : I2c → I2c) (hk : s.keeps kq km) :
    (State.modI2c s i f).keeps kq km := by
  unfold State.modI2c
  repeat' first | with_reducible assumption | with_reducible apply keeps_ite | intro _ | split | with_reducible apply keeps_mk

theorem i2cIn_keeps (i : PairId) (b : Byte) (hk : s.keeps kq km) :
    (State.i2cIn s i b).keeps kq km := by
  unfold State.i2cIn
  repeat' first
    | with_reducible assumption
    | with_reducible apply orReg_keeps
    | with_reducible apply modI2c_keeps
    | with_reducible apply keeps_ite
    | intro _

theorem i2cPump_keeps (i : PairId) (kl : Nat) (hk : s.keeps kq km) :
    (State.i2cPump s i kl).keeps kq km := by
  induction kl generalizing s with
  | zero => exact hk
  | succ _ ih =>
    unfold State.i2cPump
    repeat' first
      | with_reducible assumption
      | with_reducible apply ih
      | with_reducible apply orReg_keeps
      | with_reducible apply modI2c_keeps
      | with_reducible apply keeps_ite
      | intro _
      | split

theorem i2cCommand_keeps (i : PairId) (v : Word) (bus : I2cBus) (hk : s.keeps kq km) :
    (State.i2cCommand s i v bus).keeps kq km := by
  unfold State.i2cCommand
  repeat' first
    | with_reducible assumption
    | with_reducible apply orReg_keeps
    | with_reducible apply modI2c_keeps
    | with_reducible apply i2cIn_keeps
    | with_reducible apply i2cPump_keeps
    | with_reducible apply start_keeps
    | with_reducible apply keeps_ite
    | with_reducible apply foldl_keeps
    | with_reducible apply foldl_fst_keeps
    | with_reducible apply foldl_snd_keeps
    | intro _

theorem i2cWrite_keeps (i : PairId) (b : Byte) (hk : s.keeps kq km) :
    (State.i2cWrite s i b).keeps kq km := by
  unfold State.i2cWrite
  repeat' first
    | with_reducible assumption
    | with_reducible apply orReg_keeps
    | with_reducible apply modI2c_keeps
    | with_reducible apply i2cPump_keeps
    | with_reducible apply keeps_ite
    | intro _

theorem i2cRead_keeps (i : PairId) (hk : s.keeps kq km) :
    (State.i2cRead s i).2.keeps kq km := by
  unfold State.i2cRead
  repeat' first
    | with_reducible assumption
    | with_reducible apply modI2c_keeps
    | with_reducible apply keeps_ite
    | intro _
    | split

theorem i2cOut_keeps (i : PairId) (hk : s.keeps kq km) :
    (State.i2cOut s i).keeps kq km := by
  unfold State.i2cOut
  repeat' first
    | with_reducible assumption
    | with_reducible apply orReg_keeps
    | with_reducible apply modI2c_keeps
    | with_reducible apply keeps_ite
    | intro _
    | split

theorem i2cTarget_keeps (i : PairId) (bus : I2cTarget) (hk : s.keeps kq km) :
    (State.i2cTarget s i bus).keeps kq km := by
  unfold State.i2cTarget
  repeat' first
    | with_reducible assumption
    | with_reducible apply modI2c_keeps
    | with_reducible apply i2cIn_keeps
    | with_reducible apply i2cOut_keeps
    | with_reducible apply keeps_ite
    | with_reducible apply foldl_keeps
    | with_reducible apply foldl_fst_keeps
    | with_reducible apply foldl_snd_keeps
    | intro _

theorem i2cFree_keeps (i : PairId) (hk : s.keeps kq km) :
    (State.i2cFree s i).keeps kq km := by
  unfold State.i2cFree
  repeat' first | with_reducible assumption | with_reducible apply modI2c_keeps

theorem i2cControl_keeps (i : PairId) (hk : s.keeps kq km) :
    (State.i2cControl s i).keeps kq km := by
  unfold State.i2cControl
  repeat' first
    | with_reducible assumption
    | with_reducible apply modI2c_keeps
    | with_reducible apply i2cFree_keeps
    | with_reducible apply keeps_ite
    | intro _

theorem gpioSample_keeps {s old : State} (g k : Nat) (hk : s.keeps kq km) (hk1 : old.keeps kq km) :
    (State.gpioSample s old g k).keeps kq km := by
  unfold State.gpioSample
  repeat' first | with_reducible assumption | with_reducible apply orReg_keeps | with_reducible apply keeps_ite | intro _

theorem gpioTick_keeps  (hk : s.keeps kq km) :
    (State.gpioTick s).keeps kq km := by
  unfold State.gpioTick
  repeat' first
    | with_reducible assumption
    | with_reducible apply orReg_keeps
    | with_reducible apply keeps_ite
    | with_reducible apply foldl_keeps
    | with_reducible apply foldl_fst_keeps
    | with_reducible apply foldl_snd_keeps
    | intro _

theorem gpioSampleAll_keeps {s old : State} (g : Nat) (hk : s.keeps kq km) (hk1 : old.keeps kq km) :
    (State.gpioSampleAll s old g).keeps kq km := by
  unfold State.gpioSampleAll
  repeat' first
    | with_reducible assumption
    | with_reducible apply gpioSample_keeps
    | with_reducible apply keeps_ite
    | with_reducible apply foldl_keeps
    | with_reducible apply foldl_fst_keeps
    | with_reducible apply foldl_snd_keeps
    | intro _

theorem evOut_keeps (hi : Bool) (v : Word) (hk : s.keeps kq km) :
    (State.evOut s hi v).keeps kq km := by
  unfold State.evOut
  repeat' first
    | with_reducible assumption
    | with_reducible apply putBit_keeps
    | with_reducible apply modPin_keeps
    | with_reducible apply forAll_keeps
    | with_reducible apply drivePin_keeps
    | with_reducible apply keeps_ite
    | with_reducible apply forAll_keeps
    | intro _

theorem modDma_keeps (c : ChanId) (f : Dma → Dma) (hk : s.keeps kq km) :
    (State.modDma s c f).keeps kq km := by
  unfold State.modDma
  repeat' first | with_reducible assumption | with_reducible apply keeps_ite | intro _ | split | with_reducible apply keeps_mk

theorem dmaStop_keeps (c : ChanId) (flag : Nat) (hk : s.keeps kq km) :
    (State.dmaStop s c flag).keeps kq km := by
  unfold State.dmaStop
  repeat' first
    | with_reducible assumption
    | with_reducible apply orReg_keeps
    | with_reducible apply clrReg_keeps
    | with_reducible apply modDma_keeps

theorem dmaIssue_keeps (c : ChanId) (step : DmaStep) (a : Word) (kind : ReqKind) (n : Nat) (data : List Byte) (hk : s.keeps kq km) :
    (State.dmaIssue s c step a kind n data).keeps kq km := by
  unfold State.dmaIssue
  repeat' first | with_reducible assumption | with_reducible apply issueReq_keeps | with_reducible apply modDma_keeps

theorem dmaRun_keeps (c : ChanId) (hk : s.keeps kq km) :
    (State.dmaRun s c).keeps kq km := by
  unfold State.dmaRun
  repeat' first
    | with_reducible assumption
    | with_reducible apply modDma_keeps
    | with_reducible apply dmaIssue_keeps
    | with_reducible apply keeps_ite
    | intro _

theorem dmaGo_keeps (c : ChanId) (v : Word) (hk : s.keeps kq km) :
    (State.dmaGo s c v).keeps kq km := by
  unfold State.dmaGo
  repeat' first
    | with_reducible assumption
    | with_reducible apply setReg_keeps
    | with_reducible apply orReg_keeps
    | with_reducible apply modDma_keeps
    | with_reducible apply dmaRun_keeps
    | with_reducible apply keeps_ite
    | intro _

theorem dmaAdvance_keeps (c : ChanId) (n : Nat) (hk : s.keeps kq km) :
    (State.dmaAdvance s c n).keeps kq km := by
  unfold State.dmaAdvance
  repeat' first | with_reducible assumption | with_reducible apply setReg_keeps | with_reducible apply keeps_ite | intro _

theorem dmaAbort_keeps (c : ChanId) (hk : s.keeps kq km) :
    (State.dmaAbort s c).keeps kq km := by
  unfold State.dmaAbort
  repeat' first
    | with_reducible assumption
    | with_reducible apply masterReset_keeps
    | with_reducible apply dmaStop_keeps
    | with_reducible apply dmaAdvance_keeps
    | with_reducible apply keeps_ite
    | intro _

theorem dmaChain_keeps (c : ChanId) (hk : s.keeps kq km) :
    (State.dmaChain s c).keeps kq km := by
  unfold State.dmaChain
  repeat' first
    | with_reducible assumption
    | with_reducible apply chain_keeps
    | with_reducible apply dmaStop_keeps
    | with_reducible apply dmaIssue_keeps
    | with_reducible apply keeps_ite
    | intro _

theorem dmaLoad_keeps (c : ChanId) (bs : List Byte) (hk : s.keeps kq km) :
    (State.dmaLoad s c bs).keeps kq km := by
  unfold State.dmaLoad
  repeat' first
    | with_reducible assumption
    | with_reducible apply setReg_keeps
    | with_reducible apply dmaStop_keeps
    | with_reducible apply dmaRun_keeps
    | with_reducible apply keeps_ite
    | intro _

theorem dmaAnswer_keeps (c : ChanId) (r : Req) (hk : s.keeps kq km) :
    (State.dmaAnswer s c r).keeps kq km := by
  unfold State.dmaAnswer
  repeat' first
    | with_reducible assumption
    | with_reducible apply setReg_keeps
    | with_reducible apply setFld_keeps
    | with_reducible apply chain_keeps
    | with_reducible apply modDma_keeps
    | with_reducible apply dmaStop_keeps
    | with_reducible apply dmaRun_keeps
    | with_reducible apply dmaAdvance_keeps
    | with_reducible apply dmaLoad_keeps
    | with_reducible apply keeps_ite
    | intro _
    | split

theorem dmaPace_keeps (c : ChanId) (hk : s.keeps kq km) :
    (State.dmaPace s c).keeps kq km := by
  unfold State.dmaPace
  repeat' first
    | with_reducible assumption
    | with_reducible apply modDma_keeps
    | with_reducible apply dmaRun_keeps
    | with_reducible apply keeps_ite
    | intro _

theorem setPcie_keeps (x : Pcie) (hk : s.keeps kq km) :
    (State.setPcie s x).keeps kq km := by
  unfold State.setPcie
  repeat' first | with_reducible assumption | with_reducible apply keeps_ite | intro _ | split | with_reducible apply keeps_mk

theorem setCfg_keeps (o : Nat) (v : Word) (hk : s.keeps kq km) :
    (State.setCfg s o v).keeps kq km := by
  unfold State.setCfg
  repeat' first | with_reducible assumption | with_reducible apply setPcie_keeps

theorem aer_keeps (err : Fin 3) (hk : s.keeps kq km) :
    (State.aer s err).keeps kq km := by
  unfold State.aer
  repeat' first | with_reducible assumption | with_reducible apply orReg_keeps | with_reducible apply setCfg_keeps

theorem pcieInbound_keeps (q : PcieReq) (hk : s.keeps kq km) :
    (State.pcieInbound s q).keeps kq km := by
  unfold State.pcieInbound
  repeat' first
    | with_reducible assumption
    | with_reducible apply wakeSource_keeps
    | with_reducible apply issueReq_keeps
    | with_reducible apply setPcie_keeps
    | with_reducible apply aer_keeps
    | with_reducible apply keeps_ite
    | with_reducible apply foldl_keeps
    | with_reducible apply foldl_fst_keeps
    | with_reducible apply foldl_snd_keeps
    | intro _

theorem pcieAnswer_keeps (r : Req) (hk : s.keeps kq km) :
    (State.pcieAnswer s r).keeps kq km := by
  unfold State.pcieAnswer
  repeat' first
    | with_reducible assumption
    | with_reducible apply setPcie_keeps
    | with_reducible apply aer_keeps
    | with_reducible apply keeps_ite
    | intro _
    | split
    | dsimp only

theorem pcieOutEnd_keeps (id : Nat) (c : Resp) (bs : List Byte) (hk : s.keeps kq km) :
    (State.pcieOutEnd s id c bs).keeps kq km := by
  unfold State.pcieOutEnd
  repeat' first | with_reducible assumption | with_reducible apply modReq_keeps | with_reducible apply setPcie_keeps

theorem pcieOut_keeps (r : Req) (hk : s.keeps kq km) :
    (State.pcieOut s r).keeps kq km := by
  unfold State.pcieOut
  repeat' first
    | with_reducible assumption
    | with_reducible apply modReq_keeps
    | with_reducible apply setPcie_keeps
    | with_reducible apply keeps_ite
    | intro _

theorem pcieCompletion_keeps (c : PcieCpl) (hk : s.keeps kq km) :
    (State.pcieCompletion s c).keeps kq km := by
  unfold State.pcieCompletion
  repeat' first
    | with_reducible assumption
    | with_reducible apply orReg_keeps
    | with_reducible apply pcieOutEnd_keeps
    | with_reducible apply keeps_ite
    | intro _
    | split

theorem pcieTimeout_keeps  (hk : s.keeps kq km) :
    (State.pcieTimeout s).keeps kq km := by
  unfold State.pcieTimeout
  repeat' first
    | with_reducible assumption
    | with_reducible apply pcieOutEnd_keeps
    | with_reducible apply keeps_ite
    | intro _
    | split

theorem msiSend_keeps (v : MsiId) (hk : s.keeps kq km) :
    (State.msiSend s v).keeps kq km := by
  unfold State.msiSend
  repeat' first | with_reducible assumption | with_reducible apply setPcie_keeps

theorem msiFlush_keeps  (hk : s.keeps kq km) :
    (State.msiFlush s).keeps kq km := by
  unfold State.msiFlush
  repeat' first
    | with_reducible assumption
    | with_reducible apply forAll_keeps
    | with_reducible apply msiSend_keeps
    | with_reducible apply keeps_ite
    | with_reducible apply forAll_keeps
    | intro _

theorem msiSource_keeps (v : MsiId) (hk : s.keeps kq km) :
    (State.msiSource s v).keeps kq km := by
  unfold State.msiSource
  repeat' first
    | with_reducible assumption
    | with_reducible apply setPcie_keeps
    | with_reducible apply msiSend_keeps
    | with_reducible apply keeps_ite
    | intro _

theorem msiSee_keeps  (hk : s.keeps kq km) :
    (State.msiSee s).keeps kq km := by
  unfold State.msiSee
  repeat' first
    | with_reducible assumption
    | with_reducible apply forAll_keeps
    | with_reducible apply setPcie_keeps
    | with_reducible apply keeps_ite
    | with_reducible apply forAll_keeps
    | intro _

theorem pcieConfig_keeps (write : Bool) (off : CfgOffset) (v : Word) (hk : s.keeps kq km) :
    (State.pcieConfig s write off v).keeps kq km := by
  unfold State.pcieConfig
  repeat' first
    | with_reducible assumption
    | with_reducible apply drawWord_keeps
    | with_reducible apply setCfg_keeps
    | with_reducible apply msiFlush_keeps
    | with_reducible apply keeps_ite
    | intro _
    | split
    | with_reducible refine snd_keeps (by assumption) ?_
    | with_reducible refine thd_keeps (by assumption) ?_
    | dsimp only
    | with_reducible apply keeps_mk

theorem pcieTrained_keeps (width : Nat) (gen2 : Bool) (hk : s.keeps kq km) :
    (State.pcieTrained s width gen2).keeps kq km := by
  unfold State.pcieTrained
  repeat' first | with_reducible assumption | with_reducible apply setFld_keeps | with_reducible apply keeps_ite | intro _

theorem hostRefuse_keeps  (hk : s.keeps kq km) :
    (State.hostRefuse s).keeps kq km := by
  unfold State.hostRefuse
  repeat' first
    | with_reducible assumption
    | with_reducible apply setPcie_keeps
    | with_reducible apply keeps_ite
    | intro _
    | split
    | with_reducible apply keeps_mk

theorem pcieDown_keeps (perst : Bool) (hk : s.keeps kq km) :
    (State.pcieDown s perst).keeps kq km := by
  unfold State.pcieDown
  repeat' first
    | with_reducible assumption
    | with_reducible apply orReg_keeps
    | with_reducible apply setFld_keeps
    | with_reducible apply masterReset_keeps
    | with_reducible apply setPcie_keeps
    | with_reducible apply hostRefuse_keeps

theorem modLbp_keeps (p : PairId) (f : Lbp → Lbp) (hk : s.keeps kq km) :
    (State.modLbp s p f).keeps kq km := by
  unfold State.modLbp
  repeat' first | with_reducible assumption | with_reducible apply keeps_ite | intro _ | split | with_reducible apply keeps_mk

theorem lbpWrite_keeps (p : PairId) (a : Nat) (bs : List Byte) (ordered : Bool) (hk : s.keeps kq km) :
    (State.lbpWrite s p a bs ordered).1.keeps kq km := by
  unfold State.lbpWrite
  repeat' first | with_reducible assumption | with_reducible apply issueReq_keeps

theorem lbpOpen_keeps (p : PairId) (orphan : Bool) (hk : s.keeps kq km) :
    (State.lbpOpen s p orphan).keeps kq km := by
  unfold State.lbpOpen
  repeat' first | with_reducible assumption | with_reducible apply issueReq_keeps | with_reducible apply modLbp_keeps

theorem lbpClose_keeps (p : PairId) (short : Bool) (bits : Word) (hk : s.keeps kq km) :
    (State.lbpClose s p short bits).keeps kq km := by
  unfold State.lbpClose
  repeat' first
    | with_reducible assumption
    | with_reducible apply incReg_keeps
    | with_reducible apply modLbp_keeps
    | with_reducible apply lbpWrite_keeps
    | with_reducible apply keeps_ite
    | intro _
    | split

theorem lbpStore_keeps (p : PairId) (b : LbpBurst) (data : Word) (ts : Stamp) (seen : Nat) (hk : s.keeps kq km) :
    (State.lbpStore s p b data ts seen).keeps kq km := by
  unfold State.lbpStore
  repeat' first
    | with_reducible assumption
    | with_reducible apply modLbp_keeps
    | with_reducible apply lbpWrite_keeps
    | with_reducible apply lbpClose_keeps
    | with_reducible apply keeps_ite
    | intro _

theorem lbpGapClose_keeps (p : PairId) (hk : s.keeps kq km) :
    (State.lbpGapClose s p).keeps kq km := by
  unfold State.lbpGapClose
  repeat' first
    | with_reducible assumption
    | with_reducible apply orReg_keeps
    | with_reducible apply modLbp_keeps
    | with_reducible apply lbpClose_keeps
    | with_reducible apply keeps_ite
    | intro _

theorem lbpDo_keeps (p : PairId) (t : Nat) (ev : LbpEvent) (hk : s.keeps kq km) : (s.lbpDo p t ev).keeps kq km := by
  cases ev <;>
    unfold State.lbpDo <;>
    dsimp only <;>
    repeat' first
      | with_reducible assumption
      | with_reducible apply lbpGapClose_keeps
      | with_reducible apply lbpStore_keeps
      | with_reducible apply lbpOpen_keeps
      | with_reducible apply lbpClose_keeps
      | with_reducible apply modLbp_keeps
      | with_reducible apply keeps_ite
      | intro _
      | split

theorem lbpPost_keeps (p : PairId) (ev : LbpEvent) (hk : s.keeps kq km) :
    (State.lbpPost s p ev).keeps kq km := by
  unfold State.lbpPost
  repeat' first | with_reducible assumption | with_reducible apply modLbp_keeps

theorem lbpEvent_keeps (p : PairId) (ev : LbpEvent) (hk : s.keeps kq km) :
    (State.lbpEvent s p ev).keeps kq km := by
  unfold State.lbpEvent
  repeat' first | with_reducible assumption | with_reducible apply lbpPost_keeps | with_reducible apply keeps_ite | intro _

theorem lbpDrain_keeps (p : PairId) (lim : Nat) (kl : Nat) (hk : s.keeps kq km) :
    (State.lbpDrain s p lim kl).keeps kq km := by
  induction kl generalizing s with
  | zero => exact hk
  | succ _ ih =>
    unfold State.lbpDrain
    repeat' first
      | with_reducible assumption
      | with_reducible apply ih
      | with_reducible apply modLbp_keeps
      | with_reducible apply lbpDo_keeps
      | with_reducible apply keeps_ite
      | intro _
      | split

theorem lbpOpened_keeps (p : PairId) (orphan : Bool) (r : Req) (hk : s.keeps kq km) :
    (State.lbpOpened s p orphan r).keeps kq km := by
  unfold State.lbpOpened
  repeat' first
    | with_reducible assumption
    | with_reducible apply orReg_keeps
    | with_reducible apply incReg_keeps
    | with_reducible apply modLbp_keeps
    | with_reducible apply lbpDrain_keeps
    | with_reducible apply keeps_ite
    | intro _
    | split

theorem lbpRead_keeps (p : PairId) (a : LbpAddr) (cs : Bool) (width : Nat) (hk : s.keeps kq km) :
    (State.lbpRead s p a cs width).keeps kq km := by
  unfold State.lbpRead
  repeat' first
    | with_reducible assumption
    | with_reducible apply orReg_keeps
    | with_reducible apply issueReq_keeps
    | with_reducible apply modLbp_keeps
    | with_reducible apply keeps_ite
    | intro _
    | split

theorem lbpSlaveWrite_keeps (p : PairId) (a : LbpAddr) (cs : Bool) (data : Word) (width : Nat) (hk : s.keeps kq km) :
    (State.lbpSlaveWrite s p a cs data width).keeps kq km := by
  unfold State.lbpSlaveWrite
  repeat' first
    | with_reducible assumption
    | with_reducible apply orReg_keeps
    | with_reducible apply modLbp_keeps
    | with_reducible apply lbpWrite_keeps
    | with_reducible apply keeps_ite
    | intro _
    | split

theorem lbpAnswer_keeps (p : PairId) (r : Req) (hk : s.keeps kq km) :
    (State.lbpAnswer s p r).keeps kq km := by
  unfold State.lbpAnswer
  repeat' first
    | with_reducible assumption
    | with_reducible apply orReg_keeps
    | with_reducible apply modLbp_keeps
    | with_reducible apply lbpOpened_keeps
    | with_reducible apply keeps_ite
    | intro _
    | split

theorem lbpReply_keeps (req : Option Nat) (c : Resp) (v : Word) (hk : s.keeps kq km) :
    (State.lbpReply s req c v).keeps kq km := by
  unfold State.lbpReply
  repeat' first
    | with_reducible assumption
    | with_reducible apply modReq_keeps
    | with_reducible apply keeps_ite
    | intro _
    | split
    | with_reducible apply keeps_mk

theorem lbpIdle_keeps (p : PairId) (hk : s.keeps kq km) :
    (State.lbpIdle s p).keeps kq km := by
  unfold State.lbpIdle
  repeat' first | with_reducible assumption | with_reducible apply modLbp_keeps

theorem lbpAccess_keeps (p : PairId) (x : LbpAccess) (hk : s.keeps kq km) :
    (State.lbpAccess s p x).keeps kq km := by
  unfold State.lbpAccess
  repeat' first
    | with_reducible assumption
    | with_reducible apply modLbp_keeps
    | with_reducible apply lbpReply_keeps
    | with_reducible apply keeps_ite
    | intro _

theorem lbpCycleTick_keeps (p : PairId) (hk : s.keeps kq km) :
    (State.lbpCycleTick s p).keeps kq km := by
  unfold State.lbpCycleTick
  repeat' first
    | with_reducible assumption
    | with_reducible apply modLbp_keeps
    | with_reducible apply lbpReply_keeps
    | with_reducible apply lbpIdle_keeps
    | with_reducible apply keeps_ite
    | intro _
    | split

theorem lbpEnd_keeps (p : PairId) (hk : s.keeps kq km) :
    (State.lbpEnd s p).keeps kq km := by
  unfold State.lbpEnd
  repeat' first | with_reducible assumption | with_reducible apply lbpDrain_keeps

theorem lbpTimeout_keeps (p : PairId) (hk : s.keeps kq km) :
    (State.lbpTimeout s p).keeps kq km := by
  unfold State.lbpTimeout
  repeat' first
    | with_reducible assumption
    | with_reducible apply orReg_keeps
    | with_reducible apply lbpReply_keeps
    | with_reducible apply lbpIdle_keeps
    | with_reducible apply keeps_ite
    | intro _
    | split

theorem lbpStop_keeps (p : PairId) (old : Nat) (hk : s.keeps kq km) :
    (State.lbpStop s p old).keeps kq km := by
  unfold State.lbpStop
  repeat' first
    | with_reducible assumption
    | with_reducible apply modReq_keeps
    | with_reducible apply modLbp_keeps
    | with_reducible apply lbpPost_keeps
    | with_reducible apply keeps_ite
    | with_reducible apply foldl_keeps
    | with_reducible apply foldl_fst_keeps
    | with_reducible apply foldl_snd_keeps
    | intro _

theorem lbpConfig_keeps (p : PairId) (v : Word) (hk : s.keeps kq km) :
    (State.lbpConfig s p v).keeps kq km := by
  unfold State.lbpConfig
  repeat' first
    | with_reducible assumption
    | with_reducible apply setReg_keeps
    | with_reducible apply orReg_keeps
    | with_reducible apply setFld_keeps
    | with_reducible apply modLbp_keeps
    | with_reducible apply lbpEnd_keeps
    | with_reducible apply lbpStop_keeps
    | with_reducible apply keeps_ite
    | intro _

end Sys2Proof.Laws
end

