-- ==== Sys2Proof/Laws/KeepsChip.lean ====
section
/-! SUPPORT. What the operations of the register file, the fabric, the start-up sequence and the tick keep: canonical maps, the queue, and the engines that are present. -/

namespace Sys2Proof.Laws

open Sys2Proof.Machine

variable {kq : List Instr} {km : Half} {s : State}

theorem codeReg_keeps (a : Nat) (v : Word) (hk : s.keeps kq km) :
    (State.codeReg s a v).keeps kq km := by
  unfold State.codeReg
  repeat' first
    | with_reducible assumption
    | with_reducible apply setReg_keeps
    | with_reducible apply keeps_ite
    | intro _
    | split

theorem on_keeps (c : Bool) (f : State → State) (hk : s.keeps kq km) (hf : s.keeps kq km → (f s).keeps kq km) :
    (s.on c f).keeps kq km := by
  unfold State.on
  exact keeps_ite (fun _ => hf hk) (fun _ => hk)

theorem confirm_keeps (v : Word) (hk : s.keeps kq km) :
    (State.confirm s v).keeps kq km := by
  unfold State.confirm
  repeat' first
    | with_reducible assumption
    | with_reducible apply orReg_keeps
    | with_reducible apply setFld_keeps
    | with_reducible apply keeps_ite
    | intro _
    | split
    | with_reducible apply keeps_mk

theorem mailboxGo_keeps  (hk : s.keeps kq km) :
    (State.mailboxGo s).keeps kq km := by
  unfold State.mailboxGo
  repeat' first | with_reducible assumption | with_reducible apply keeps_ite | intro _ | split | with_reducible apply keeps_mk

theorem failedClear_keeps  (hk : s.keeps kq km) :
    (State.failedClear s).keeps kq km := by
  unfold State.failedClear
  repeat' first | with_reducible assumption | with_reducible apply setFld_keeps

theorem dmaWrite_keeps (c : ChanId) (o a : Nat) (v : Word) (hk : s.keeps kq km) :
    (State.dmaWrite s c o a v).keeps kq km := by
  unfold State.dmaWrite
  repeat' first
    | with_reducible assumption
    | with_reducible apply dmaGo_keeps
    | with_reducible apply dmaAbort_keeps
    | with_reducible apply codeReg_keeps
    | with_reducible apply keeps_ite
    | intro _

theorem sysWrite_keeps (a : Nat) (v : Word) (hk : s.keeps kq km) : (s.sysWrite a v).keeps kq km := by
  unfold State.sysWrite
  split
  · next o _ =>
    refine keeps_ite (fun _ => on_keeps _ _ (remapWrite_keeps _ hk) (fun h => orReg_keeps _ _ h)) (fun _ => ?_)
    refine keeps_ite (fun _ => confirm_keeps v hk) (fun _ => ?_)
    refine keeps_ite (fun _ => keeps_ite (fun _ => hk) (fun _ => codeReg_keeps a v hk)) (fun _ => ?_)
    refine keeps_ite (fun _ => keeps_ite (fun _ => ?_) (fun _ => hk)) (fun _ => ?_)
    · have h := on_keeps (bitOf v 1) State.failedClear hk failedClear_keeps
      extract_lets t
      exact keeps_ite (fun _ => beginDue_keeps 2 (keeps_mk h)) (fun _ => h)
    refine keeps_ite (fun _ => on_keeps _ _ hk mailboxGo_keeps) (fun _ => ?_)
    refine keeps_ite (fun _ => swiSet_keeps v hk) (fun _ => ?_)
    refine keeps_ite (fun _ => codeReg_keeps a _ hk) (fun _ => ?_)
    refine keeps_ite (fun _ => ?_) (fun _ => ?_)
    · split
      · exact on_keeps _ _ (on_keeps _ _ hk (injectCe_keeps _)) (injectUe_keeps _)
      · exact hk
    · split
      · exact dmaWrite_keeps _ _ a v hk
      · exact codeReg_keeps a v hk
  · exact hk

theorem pwrWrite_keeps (a : Nat) (v : Word) (hk : s.keeps kq km) :
    (State.pwrWrite s a v).keeps kq km := by
  unfold State.pwrWrite
  repeat' first
    | with_reducible assumption
    | with_reducible apply wakeHold_keeps
    | with_reducible apply powerRequest_keeps
    | with_reducible apply codeReg_keeps
    | with_reducible apply keeps_ite
    | intro _
    | split

theorem clkWrite_keeps (a : Nat) (v : Word) (hk : s.keeps kq km) :
    (State.clkWrite s a v).keeps kq km := by
  unfold State.clkWrite
  repeat' first
    | with_reducible assumption
    | with_reducible apply refSwitch_keeps
    | with_reducible apply codeReg_keeps
    | with_reducible apply on_keeps

theorem angWrite_keeps (a : Nat) (v : Word) (hk : s.keeps kq km) :
    (State.angWrite s a v).keeps kq km := by
  unfold State.angWrite
  repeat' first
    | with_reducible assumption
    | with_reducible apply setReg_keeps
    | with_reducible apply clrReg_keeps
    | with_reducible apply modBase_keeps
    | with_reducible apply stagedArm_keeps
    | with_reducible apply baseEnable_keeps
    | with_reducible apply baseDisable_keeps
    | with_reducible apply codeReg_keeps
    | with_reducible apply on_keeps
    | with_reducible apply keeps_ite
    | intro _
    | split

theorem ringWrite_keeps (r : BaseId) (o a : Nat) (v : Word) (hk : s.keeps kq km) :
    (State.ringWrite s r o a v).keeps kq km := by
  unfold State.ringWrite
  repeat' first
    | with_reducible assumption
    | with_reducible apply setReg_keeps
    | with_reducible apply invSafe_keeps
    | with_reducible apply ringEnable_keeps
    | with_reducible apply ringDisable_keeps
    | with_reducible apply codeReg_keeps
    | with_reducible apply on_keeps
    | with_reducible apply keeps_ite
    | intro _

theorem almWrite_keeps (a : Nat) (v : Word) (hk : s.keeps kq km) :
    (State.almWrite s a v).keeps kq km := by
  unfold State.almWrite
  repeat' first
    | with_reducible assumption
    | with_reducible apply setReg_keeps
    | with_reducible apply modPin_keeps
    | with_reducible apply setFrames_keeps
    | with_reducible apply groupJoin_keeps
    | with_reducible apply rbRelease_keeps
    | with_reducible apply almEnable_keeps
    | with_reducible apply almDisable_keeps
    | with_reducible apply codeReg_keeps
    | with_reducible apply on_keeps
    | with_reducible apply ringWrite_keeps
    | with_reducible apply keeps_ite
    | intro _
    | split
    | dsimp only
    | with_reducible apply keeps_mk

theorem wcWrite_keeps (m : WcId) (o a : Nat) (v : Word) (hk : s.keeps kq km) :
    (State.wcWrite s m o a v).keeps kq km := by
  unfold State.wcWrite
  repeat' first
    | with_reducible assumption
    | with_reducible apply reset_keeps
    | with_reducible apply clrReg_keeps
    | with_reducible apply wcKeep_keeps
    | with_reducible apply wcByWrite_keeps
    | with_reducible apply wcArmDo_keeps
    | with_reducible apply wcPeriod_keeps
    | with_reducible apply wcCompare_keeps
    | with_reducible apply wcLinkWrite_keeps
    | with_reducible apply codeReg_keeps
    | with_reducible apply on_keeps
    | with_reducible apply start_keeps
    | with_reducible apply keeps_ite
    | intro _
    | split

theorem tmrWrite_keeps (a : Nat) (v : Word) (hk : s.keeps kq km) :
    (State.tmrWrite s a v).keeps kq km := by
  unfold State.tmrWrite
  repeat' first
    | with_reducible assumption
    | with_reducible apply reset_keeps
    | with_reducible apply setReg_keeps
    | with_reducible apply clrReg_keeps
    | with_reducible apply wcMask_keeps
    | with_reducible apply almSeesAll_keeps
    | with_reducible apply codeReg_keeps
    | with_reducible apply on_keeps
    | with_reducible apply wcWrite_keeps
    | with_reducible apply start_keeps
    | with_reducible apply keeps_ite
    | intro _
    | split
    | dsimp only
    | with_reducible apply keeps_mk

theorem mtxInject_keeps (v : Word) (hk : s.keeps kq km) :
    (State.mtxInject s v).keeps kq km := by
  unfold State.mtxInject
  repeat' first
    | with_reducible assumption
    | with_reducible apply keeps_ite
    | intro _
    | split
    | dsimp only
    | with_reducible apply keeps_mk

theorem mtxWrite_keeps (a : Nat) (v : Word) (hk : s.keeps kq km) :
    (State.mtxWrite s a v).keeps kq km := by
  unfold State.mtxWrite
  repeat' first
    | with_reducible assumption
    | with_reducible apply masterReset_keeps
    | with_reducible apply codeReg_keeps
    | with_reducible apply mtxInject_keeps
    | with_reducible apply keeps_ite
    | intro _

theorem curWrite_keeps (a : Nat) (v : Word) (hk : s.keeps kq km) :
    (State.curWrite s a v).keeps kq km := by
  unfold State.curWrite
  repeat' first
    | with_reducible assumption
    | with_reducible apply neverBorrow_keeps
    | with_reducible apply codeReg_keeps
    | with_reducible apply on_keeps
    | with_reducible apply keeps_ite
    | intro _
    | split
    | with_reducible apply keeps_mk

theorem errWrite_keeps (a : Nat) (v : Word) (hk : s.keeps kq km) :
    (State.errWrite s a v).keeps kq km := by
  unfold State.errWrite
  repeat' first
    | with_reducible assumption
    | with_reducible apply errPop_keeps
    | with_reducible apply codeReg_keeps
    | with_reducible apply on_keeps
    | with_reducible apply keeps_ite
    | intro _

theorem hlWrite_keeps (a : Nat) (v : Word) (hk : s.keeps kq km) :
    (State.hlWrite s a v).keeps kq km := by
  unfold State.hlWrite
  repeat' first
    | with_reducible assumption
    | with_reducible apply setReg_keeps
    | with_reducible apply modHlPort_keeps
    | with_reducible apply hlEnable_keeps
    | with_reducible apply hlDisable_keeps
    | with_reducible apply hlRetrain_keeps
    | with_reducible apply codeReg_keeps
    | with_reducible apply on_keeps
    | with_reducible apply keeps_ite
    | intro _
    | split

theorem pcieWrite_keeps (a : Nat) (v : Word) (hk : s.keeps kq km) :
    (State.pcieWrite s a v).keeps kq km := by
  unfold State.pcieWrite
  repeat' first
    | with_reducible assumption
    | with_reducible apply pcieDown_keeps
    | with_reducible apply codeReg_keeps
    | with_reducible apply on_keeps

theorem modEth_keeps (m : PairId) (f : Eth → Eth) (hk : s.keeps kq km) :
    (State.modEth s m f).keeps kq km := by
  unfold State.modEth
  repeat' first | with_reducible assumption | with_reducible apply keeps_ite | intro _ | split | with_reducible apply keeps_mk

theorem mdio_keeps (m : PairId) (v : Word) (phy : MdioPhy) (hk : s.keeps kq km) :
    (State.mdio s m v phy).keeps kq km := by
  unfold State.mdio
  repeat' first
    | with_reducible assumption
    | with_reducible apply setReg_keeps
    | with_reducible apply modEth_keeps
    | with_reducible apply keeps_ite
    | intro _

theorem mdioEnd_keeps (m : PairId) (hk : s.keeps kq km) :
    (State.mdioEnd s m).keeps kq km := by
  unfold State.mdioEnd
  repeat' first
    | with_reducible assumption
    | with_reducible apply setReg_keeps
    | with_reducible apply modEth_keeps
    | with_reducible apply mdio_keeps
    | with_reducible apply keeps_ite
    | intro _
    | split

theorem ethWrite_keeps (a : Nat) (v : Word) (hk : s.keeps kq km) :
    (State.ethWrite s a v).keeps kq km := by
  unfold State.ethWrite
  repeat' first
    | with_reducible assumption
    | with_reducible apply drawWord_keeps
    | with_reducible apply codeReg_keeps
    | with_reducible apply modEth_keeps
    | with_reducible apply mdio_keeps
    | with_reducible apply keeps_ite
    | intro _
    | split

theorem lbpRegWrite_keeps (a : Nat) (v : Word) (hk : s.keeps kq km) :
    (State.lbpRegWrite s a v).keeps kq km := by
  unfold State.lbpRegWrite
  repeat' first
    | with_reducible assumption
    | with_reducible apply lbpConfig_keeps
    | with_reducible apply codeReg_keeps
    | with_reducible apply keeps_ite
    | intro _
    | split

theorem freeBus_keeps  (hk : s.keeps kq km) :
    (State.freeBus s).2.keeps kq km := by
  unfold State.freeBus
  repeat' first | with_reducible assumption | with_reducible apply drawWord_keeps

theorem flashFree_keeps (v : Word) (hk : s.keeps kq km) :
    (State.flashFree s v).keeps kq km := by
  unfold State.flashFree
  repeat' first
    | with_reducible assumption
    | with_reducible apply drawWord_keeps
    | with_reducible apply flashDo_keeps
    | with_reducible apply keeps_ite
    | intro _
    | split
    | with_reducible refine snd_keeps (by assumption) ?_
    | with_reducible refine thd_keeps (by assumption) ?_
    | dsimp only
    | with_reducible apply keeps_mk

theorem sioWrite_keeps (a : Nat) (v : Word) (hk : s.keeps kq km) :
    (State.sioWrite s a v).keeps kq km := by
  unfold State.sioWrite
  repeat' first
    | with_reducible assumption
    | with_reducible apply setReg_keeps
    | with_reducible apply uartStart_keeps
    | with_reducible apply uartSend_keeps
    | with_reducible apply spiWrite_keeps
    | with_reducible apply spiControl_keeps
    | with_reducible apply spiFormat_keeps
    | with_reducible apply i2cCommand_keeps
    | with_reducible apply i2cWrite_keeps
    | with_reducible apply i2cControl_keeps
    | with_reducible apply codeReg_keeps
    | with_reducible apply on_keeps
    | with_reducible apply freeBus_keeps
    | with_reducible apply flashFree_keeps
    | with_reducible apply keeps_ite
    | intro _
    | split

theorem gpioWrite_keeps (a : Nat) (v : Word) (hk : s.keeps kq km) :
    (State.gpioWrite s a v).keeps kq km := by
  unfold State.gpioWrite
  repeat' first
    | with_reducible assumption
    | with_reducible apply brkClear_keeps
    | with_reducible apply injectBrk_keeps
    | with_reducible apply gpioSampleAll_keeps
    | with_reducible apply evOut_keeps
    | with_reducible apply codeReg_keeps
    | with_reducible apply on_keeps
    | with_reducible apply keeps_ite
    | intro _
    | split
    | dsimp only

theorem perfRegWrite_keeps (a : Nat) (v : Word) (hk : s.keeps kq km) :
    (State.perfRegWrite s a v).keeps kq km := by
  unfold State.perfRegWrite
  repeat' first
    | with_reducible assumption
    | with_reducible apply perfHold_keeps
    | with_reducible apply perfWrite_keeps
    | with_reducible apply codeReg_keeps
    | with_reducible apply keeps_ite
    | intro _
    | split

theorem teWrite_keeps (a : Nat) (v : Word) (hk : s.keeps kq km) :
    (State.teWrite s a v).keeps kq km := by
  unfold State.teWrite
  repeat' first
    | with_reducible assumption
    | with_reducible apply modEng_keeps
    | with_reducible apply wdKick_keeps
    | with_reducible apply wdControl_keeps
    | with_reducible apply injectCe_keeps
    | with_reducible apply injectUe_keeps
    | with_reducible apply codeReg_keeps
    | with_reducible apply on_keeps
    | with_reducible apply keeps_ite
    | intro _

theorem csrWrite_keeps (a : Nat) (v : Word) (hk : s.keeps kq km) :
    (State.csrWrite s a v).keeps kq km := by
  unfold State.csrWrite
  repeat' first
    | with_reducible assumption
    | with_reducible apply sysWrite_keeps
    | with_reducible apply pwrWrite_keeps
    | with_reducible apply clkWrite_keeps
    | with_reducible apply angWrite_keeps
    | with_reducible apply almWrite_keeps
    | with_reducible apply tmrWrite_keeps
    | with_reducible apply mtxWrite_keeps
    | with_reducible apply curWrite_keeps
    | with_reducible apply errWrite_keeps
    | with_reducible apply hlWrite_keeps
    | with_reducible apply pcieWrite_keeps
    | with_reducible apply ethWrite_keeps
    | with_reducible apply lbpRegWrite_keeps
    | with_reducible apply sioWrite_keeps
    | with_reducible apply gpioWrite_keeps
    | with_reducible apply perfRegWrite_keeps
    | with_reducible apply teWrite_keeps
    | with_reducible apply keeps_ite
    | intro _
    | split

theorem angRead_keeps (a : Nat) (hk : s.keeps kq km) :
    (State.angRead s a).2.keeps kq km := by
  unfold State.angRead
  repeat' first
    | with_reducible assumption
    | with_reducible apply phaseRead_keeps
    | with_reducible apply keeps_ite
    | intro _
    | split

theorem tmrRead_keeps (a : Nat) (hk : s.keeps kq km) :
    (State.tmrRead s a).2.keeps kq km := by
  unfold State.tmrRead
  repeat' first
    | with_reducible assumption
    | with_reducible apply tbRead_keeps
    | with_reducible apply wcRead_keeps
    | with_reducible apply capRead_keeps
    | with_reducible apply keeps_ite
    | intro _
    | split

theorem sioRead_keeps (a : Nat) (hk : s.keeps kq km) :
    (State.sioRead s a).2.keeps kq km := by
  unfold State.sioRead
  repeat' first
    | with_reducible assumption
    | with_reducible apply uartRead_keeps
    | with_reducible apply spiRead_keeps
    | with_reducible apply i2cRead_keeps
    | with_reducible apply keeps_ite
    | intro _
    | split
    | with_reducible refine snd_keeps (by assumption) ?_
    | with_reducible refine thd_keeps (by assumption) ?_
    | dsimp only

theorem perfRegRead_keeps (a : Nat) (hk : s.keeps kq km) :
    (State.perfRegRead s a).2.keeps kq km := by
  unfold State.perfRegRead
  repeat' first
    | with_reducible assumption
    | with_reducible apply perfRead_keeps
    | with_reducible apply keeps_ite
    | intro _
    | split
    | with_reducible refine snd_keeps (by assumption) ?_
    | with_reducible refine thd_keeps (by assumption) ?_
    | dsimp only

theorem csrRead_keeps (a : Nat) (hk : s.keeps kq km) :
    (State.csrRead s a).2.keeps kq km := by
  unfold State.csrRead
  repeat' first
    | with_reducible assumption
    | with_reducible apply angRead_keeps
    | with_reducible apply tmrRead_keeps
    | with_reducible apply sioRead_keeps
    | with_reducible apply perfRegRead_keeps
    | with_reducible apply keeps_ite
    | intro _
    | split

theorem ethIssue_keeps (m : PairId) (write : Bool) (a n : Nat) (data : List Byte) (hk : s.keeps kq km) :
    (s.ethIssue m write a n data).2.keeps kq km := issueParts_keeps _ _ _ _ _ hk

theorem setTx_keeps (m : PairId) (j : Option EthJob) (hk : s.keeps kq km) :
    (State.setTx s m j).keeps kq km := by
  unfold State.setTx
  repeat' first | with_reducible assumption | with_reducible apply modEth_keeps

theorem ethTxBack_keeps (m : PairId) (j : EthJob) (err : Bool) (ts : Stamp) (hk : s.keeps kq km) :
    (State.ethTxBack s m j err ts).keeps kq km := by
  unfold State.ethTxBack
  repeat' first | with_reducible assumption | with_reducible apply ethIssue_keeps | with_reducible apply setTx_keeps

theorem ethTransmit_keeps (m : PairId) (hk : s.keeps kq km) :
    (State.ethTransmit s m).keeps kq km := by
  unfold State.ethTransmit
  repeat' first
    | with_reducible assumption
    | with_reducible apply modEth_keeps
    | with_reducible apply ethIssue_keeps
    | with_reducible apply setTx_keeps
    | with_reducible apply ethTxBack_keeps
    | with_reducible apply keeps_ite
    | intro _
    | split

theorem ethTxStep_keeps (m : PairId) (j : EthJob) (hk : s.keeps kq km) :
    (State.ethTxStep s m j).keeps kq km := by
  unfold State.ethTxStep
  repeat' first
    | with_reducible assumption
    | with_reducible apply orReg_keeps
    | with_reducible apply modEth_keeps
    | with_reducible apply ethIssue_keeps
    | with_reducible apply setTx_keeps
    | with_reducible apply ethTxBack_keeps
    | with_reducible apply keeps_ite
    | intro _
    | split

theorem setRx_keeps (m : PairId) (j : Option EthJob) (hk : s.keeps kq km) :
    (State.setRx s m j).keeps kq km := by
  unfold State.setRx
  repeat' first | with_reducible assumption | with_reducible apply modEth_keeps

theorem ethRxNext_keeps (m : PairId) (hk : s.keeps kq km) :
    (State.ethRxNext s m).keeps kq km := by
  unfold State.ethRxNext
  repeat' first
    | with_reducible assumption
    | with_reducible apply modEth_keeps
    | with_reducible apply ethIssue_keeps
    | with_reducible apply setRx_keeps
    | with_reducible apply keeps_ite
    | intro _
    | split
    | with_reducible refine snd_keeps (by assumption) ?_
    | with_reducible refine thd_keeps (by assumption) ?_
    | dsimp only

theorem ethRxBack_keeps (m : PairId) (j : EthJob) (whole : Bool) (hk : s.keeps kq km) :
    (State.ethRxBack s m j whole).keeps kq km := by
  unfold State.ethRxBack
  repeat' first
    | with_reducible assumption
    | with_reducible apply drawWord_keeps
    | with_reducible apply ethIssue_keeps
    | with_reducible apply setRx_keeps
    | with_reducible apply keeps_ite
    | intro _
    | split

theorem ethRxStep_keeps (m : PairId) (j : EthJob) (hk : s.keeps kq km) :
    (State.ethRxStep s m j).keeps kq km := by
  unfold State.ethRxStep
  repeat' first
    | with_reducible assumption
    | with_reducible apply orReg_keeps
    | with_reducible apply incReg_keeps
    | with_reducible apply modEth_keeps
    | with_reducible apply ethIssue_keeps
    | with_reducible apply setRx_keeps
    | with_reducible apply ethRxNext_keeps
    | with_reducible apply ethRxBack_keeps
    | with_reducible apply keeps_ite
    | intro _
    | split

theorem ethReceive_keeps (m : PairId) (f : EthFrame) (hk : s.keeps kq km) :
    (State.ethReceive s m f).keeps kq km := by
  unfold State.ethReceive
  repeat' first
    | with_reducible assumption
    | with_reducible apply orReg_keeps
    | with_reducible apply incReg_keeps
    | with_reducible apply modEth_keeps
    | with_reducible apply ethRxNext_keeps
    | with_reducible apply keeps_ite
    | intro _
    | split

theorem ethAnswer_keeps (m : PairId) (r : Req) (hk : s.keeps kq km) :
    (State.ethAnswer s m r).keeps kq km := by
  unfold State.ethAnswer
  repeat' first
    | with_reducible assumption
    | with_reducible apply setTx_keeps
    | with_reducible apply ethTxStep_keeps
    | with_reducible apply setRx_keeps
    | with_reducible apply ethRxStep_keeps
    | with_reducible apply keeps_ite
    | intro _
    | split

theorem ethLinkDown_keeps (m : PairId) (hk : s.keeps kq km) :
    (State.ethLinkDown s m).keeps kq km := by
  unfold State.ethLinkDown
  repeat' first
    | with_reducible assumption
    | with_reducible apply orReg_keeps
    | with_reducible apply clrReg_keeps
    | with_reducible apply modEth_keeps
    | with_reducible apply ethTxBack_keeps
    | with_reducible apply keeps_ite
    | intro _
    | split
    | dsimp only

theorem noteAccept_keeps (t : TargetId) (m : Nat) (hk : s.keeps kq km) :
    (State.noteAccept s t m).keeps kq km := by
  unfold State.noteAccept
  repeat' first | with_reducible assumption | with_reducible apply keeps_ite | intro _ | split | with_reducible apply keeps_mk

theorem accept_keeps (t : TargetId) (hk : s.keeps kq km) :
    (State.accept s t).keeps kq km := by
  unfold State.accept
  repeat' first
    | with_reducible assumption
    | with_reducible apply modReq_keeps
    | with_reducible apply noteAccept_keeps
    | with_reducible apply keeps_ite
    | intro _
    | split
    | dsimp only
    | with_reducible apply keeps_mk

theorem flashBeat_keeps (r : Req) (hk : s.keeps kq km) :
    (State.flashBeat s r).keeps kq km := by
  unfold State.flashBeat
  repeat' first | with_reducible assumption | with_reducible apply modReq_keeps | with_reducible apply keeps_ite | intro _

theorem csrBeat_keeps (r : Req) (hk : s.keeps kq km) :
    (State.csrBeat s r).keeps kq km := by
  unfold State.csrBeat
  repeat' first
    | with_reducible assumption
    | with_reducible apply modReq_keeps
    | with_reducible apply storeBeat_keeps
    | with_reducible apply csrWrite_keeps
    | with_reducible apply csrRead_keeps
    | with_reducible apply keeps_ite
    | intro _
    | split

theorem ownRemote_keeps (r : Req) (a : Word) (hk : s.keeps kq km) :
    (State.ownRemote s r a).keeps kq km := by
  unfold State.ownRemote
  repeat' first | with_reducible assumption | with_reducible apply modReq_keeps | with_reducible apply carry_keeps

theorem tableBeat_keeps (r : Req) (hk : s.keeps kq km) :
    (State.tableBeat s r).keeps kq km := by
  unfold State.tableBeat
  repeat' first
    | with_reducible assumption
    | with_reducible apply storeBeat_keeps
    | with_reducible apply keeps_ite
    | intro _
    | split
    | with_reducible apply keeps_mk

theorem mainBeat_keeps (r : Req) (hk : s.keeps kq km) :
    (State.mainBeat s r).keeps kq km := by
  unfold State.mainBeat
  repeat' first
    | with_reducible assumption
    | with_reducible apply storeBeat_keeps
    | with_reducible apply keeps_ite
    | intro _
    | split
    | dsimp only
    | with_reducible apply keeps_mk

theorem bridgeBeat_keeps {out : State} (r : Req) (hk : s.keeps kq km) (ho : out.keeps kq km) :
    (s.bridgeBeat r out).keeps kq km :=
  keeps_ite (fun _ => modReq_keeps r.id _ hk) (fun _ => ho)

theorem targetAccess_keeps (t : TargetId) (hk : s.keeps kq km) :
    (State.targetAccess s t).keeps kq km := by
  unfold State.targetAccess
  repeat' first
    | with_reducible assumption
    | with_reducible apply modReq_keeps
    | with_reducible apply remoteOut_keeps
    | with_reducible apply storeBeat_keeps
    | with_reducible apply pcieOut_keeps
    | with_reducible apply flashBeat_keeps
    | with_reducible apply csrBeat_keeps
    | with_reducible apply ownRemote_keeps
    | with_reducible apply tableBeat_keeps
    | with_reducible apply mainBeat_keeps
    | with_reducible apply bridgeBeat_keeps
    | with_reducible apply keeps_ite
    | intro _
    | split
    | dsimp only
    | with_reducible apply keeps_mk

theorem engineAnswer_keeps (e : EngId) (r : Req) (hk : s.keeps kq km) :
    (State.engineAnswer s e r).keeps kq km := by
  unfold State.engineAnswer
  repeat' first
    | with_reducible assumption
    | with_reducible apply modEng_keeps
    | with_reducible apply halt_keeps
    | with_reducible apply answer_keeps
    | with_reducible apply bmuSettle_keeps
    | with_reducible apply startHandler_keeps
    | with_reducible apply vecWord_keeps
    | with_reducible apply mrdAnswered_keeps
    | with_reducible apply keeps_ite
    | intro _
    | split
    | with_reducible refine snd_keeps (by assumption) ?_
    | with_reducible refine thd_keeps (by assumption) ?_
    | dsimp only

theorem masterAnswer_keeps (r : Req) (hk : s.keeps kq km) :
    (State.masterAnswer s r).keeps kq km := by
  unfold State.masterAnswer
  repeat' first
    | with_reducible assumption
    | with_reducible apply forAll_keeps
    | with_reducible apply monTake_keeps
    | with_reducible apply badEntry_keeps
    | with_reducible apply remoteDone_keeps
    | with_reducible apply dmaAnswer_keeps
    | with_reducible apply pcieAnswer_keeps
    | with_reducible apply lbpAnswer_keeps
    | with_reducible apply ethAnswer_keeps
    | with_reducible apply engineAnswer_keeps
    | with_reducible apply keeps_ite
    | with_reducible apply forAll_keeps
    | intro _
    | split
    | dsimp only
    | with_reducible apply keeps_mk

theorem respond_keeps (m : Nat) (hk : s.keeps kq km) :
    (State.respond s m).keeps kq km := by
  unfold State.respond
  repeat' first
    | with_reducible assumption
    | with_reducible apply dropReq_keeps
    | with_reducible apply pumpReq_keeps
    | with_reducible apply errResp_keeps
    | with_reducible apply masterAnswer_keeps
    | with_reducible apply keeps_ite
    | intro _
    | split

theorem release_keeps (m : Nat) (hk : s.keeps kq km) :
    (State.release s m).keeps kq km := by
  unfold State.release
  repeat' first
    | with_reducible assumption
    | with_reducible apply modReq_keeps
    | with_reducible apply keeps_ite
    | intro _
    | split

theorem setClasses_keeps (g : Image) (hk : s.keeps kq km) :
    (State.setClasses s g).keeps kq km := by
  unfold State.setClasses
  repeat' first | with_reducible assumption | with_reducible apply setReg_keeps

theorem recordPost_keeps (a : Nat) (bs : List Byte) (g : Nat) (hk : s.keeps kq km) :
    (State.recordPost s a bs g).keeps kq km := by
  unfold State.recordPost
  repeat' first | with_reducible assumption | with_reducible apply issueParts_keeps

theorem recordWord_keeps (a : Nat) (v : Word) (hk : s.keeps kq km) :
    (State.recordWord s a v).keeps kq km := by
  unfold State.recordWord
  repeat' first
    | with_reducible assumption
    | with_reducible apply storeBytes_keeps
    | with_reducible apply tableWrite_keeps
    | with_reducible apply csrWrite_keeps
    | with_reducible apply recordPost_keeps
    | with_reducible apply keeps_ite
    | intro _

theorem recordWords_keeps (a : Nat) (bs : List Byte) (hk : s.keeps kq km) :
    (State.recordWords s a bs).keeps kq km := by
  unfold State.recordWords
  repeat' first
    | with_reducible assumption
    | with_reducible apply recordWord_keeps
    | with_reducible apply keeps_ite
    | with_reducible apply foldl_keeps
    | with_reducible apply foldl_fst_keeps
    | with_reducible apply foldl_snd_keeps
    | intro _

theorem record_keeps (r : ImgRecord) (hk : s.keeps kq km) :
    (State.record s r).keeps kq km := by
  unfold State.record
  repeat' first
    | with_reducible assumption
    | with_reducible apply storeBytes_keeps
    | with_reducible apply recordPost_keeps
    | with_reducible apply recordWords_keeps
    | with_reducible apply keeps_ite
    | intro _
    | split

theorem loadFront_keeps (g : Image) (hk : s.keeps kq km) :
    (State.loadFront s g).keeps kq km := by
  unfold State.loadFront
  repeat' first
    | with_reducible assumption
    | with_reducible apply setCatalogues_keeps
    | with_reducible apply record_keeps
    | with_reducible apply keeps_ite
    | with_reducible apply foldl_keeps
    | with_reducible apply foldl_fst_keeps
    | with_reducible apply foldl_snd_keeps
    | intro _
    | split
    | dsimp only
    | with_reducible apply keeps_mk

theorem applyImage_keeps (g : Image) (hk : s.keeps kq km) :
    (State.applyImage s g).keeps kq km := by
  unfold State.applyImage
  repeat' first
    | with_reducible assumption
    | with_reducible apply setReg_keeps
    | with_reducible apply setFld_keeps
    | with_reducible apply modEng_keeps
    | with_reducible apply setPin_keeps
    | with_reducible apply forAll_keeps
    | with_reducible apply log_keeps
    | with_reducible apply setClasses_keeps
    | with_reducible apply keeps_ite
    | with_reducible apply forAll_keeps
    | with_reducible apply foldl_keeps
    | with_reducible apply foldl_fst_keeps
    | with_reducible apply foldl_snd_keeps
    | intro _
    | split
    | dsimp only
    | with_reducible apply keeps_mk

theorem bootCause_keeps (cause src slot sec : Nat) (hk : s.keeps kq km) :
    (State.bootCause s cause src slot sec).keeps kq km := by
  unfold State.bootCause
  repeat' first | with_reducible assumption | with_reducible apply setFld_keeps

theorem holdWrite_keeps (m : Nat) (v : Verified) (hk : s.keeps kq km) :
    (State.holdWrite s m v).keeps kq km := by
  unfold State.holdWrite
  repeat' first | with_reducible assumption | with_reducible apply keeps_ite | intro _ | split | with_reducible apply keeps_mk

theorem bootApply_keeps (v : Verified) (hk : s.keeps kq km) : (s.bootApply v).keeps kq km := by
  have h0 : State.keeps kq km { s with map := s.mapOf v.img } := keeps_mk hk
  unfold State.bootApply
  extract_lets t
  have ht : t.keeps kq km := applyImage_keeps v.img (romStop_keeps v.chk h0)
  clear_value t
  have h := bootPhase_keeps 4 v.src (clearBanks_keeps (fun k => t.dataKey k || bootArea k) 4 t.mainData ht)
  exact keeps_mk h

theorem releaseImage_keeps (v : Verified) (hk : s.keeps kq km) :
    (State.releaseImage s v).keeps kq km := by
  unfold State.releaseImage
  repeat' first
    | with_reducible assumption
    | with_reducible apply orReg_keeps
    | with_reducible apply modEng_keeps
    | with_reducible apply forAll_keeps
    | with_reducible apply resetEntry_keeps
    | with_reducible apply almEnable_keeps
    | with_reducible apply bootPhase_keeps
    | with_reducible apply bootCause_keeps
    | with_reducible apply keeps_ite
    | with_reducible apply forAll_keeps
    | intro _
    | split
    | dsimp only
    | with_reducible apply keeps_mk

theorem slotFails_keeps (cause src slot sec : Nat) (hk : s.keeps kq km) :
    (State.slotFails s cause src slot sec).keeps kq km := by
  unfold State.slotFails
  repeat' first
    | with_reducible assumption
    | with_reducible apply log_keeps
    | with_reducible apply clearBanks_keeps
    | with_reducible apply bootCause_keeps

theorem loadContents_keeps (g : Image) (hk : s.keeps kq km) : (s.loadContents g).keeps kq km := by
  have h := foldl_keeps (fun _ r h => record_keeps r h) g.records _ (loadFront_keeps g hk)
  exact keeps_mk h

theorem slotHolds_keeps (g : Image) (src slot : Nat) (hk : s.keeps kq km) : (s.slotHolds g src slot).keeps kq km :=
  bootPhase_keeps 3 src (holdWrite_keeps _ _ (orReg_keeps _ _ (loadContents_keeps g (clrReg_keeps _ _ hk))))

theorem loadSlot_keeps (o : SlotOffer) (src slot : Nat) (hk : s.keeps kq km) :
    (s.loadSlot o src slot).elim (State.keeps kq km) (State.keeps kq km) := by
  unfold State.loadSlot
  split
  · exact slotFails_keeps _ _ _ _ hk
  · exact slotHolds_keeps _ _ _ hk
  · exact hk

theorem trySlots_keeps (src : Nat) (l : List (Nat × SlotOffer)) (hk : s.keeps kq km) :
    (s.trySlots src l).elim (State.keeps kq km) (State.keeps kq km) := by
  induction l generalizing s with
  | nil => exact hk
  | cons x l ih =>
    obtain ⟨k, o⟩ := x
    unfold State.trySlots
    have h := loadSlot_keeps o src k hk
    split
    · next t ht => rw [ht] at h; exact h
    · next t ht => rw [ht] at h; exact ih h

theorem readPref_keeps  (hk : s.keeps kq km) :
    (State.readPref s).2.keeps kq km := by
  unfold State.readPref
  repeat' first | with_reducible assumption | with_reducible apply setReg_keeps | with_reducible apply keeps_ite | intro _

theorem fromFlash_keeps (o : BootOffer) (hk : s.keeps kq km) :
    (s.fromFlash o).elim (State.keeps kq km) (State.keeps kq km) := by
  unfold State.fromFlash
  split
  · exact bootCause_keeps _ _ _ _ hk
  split
  · exact bootCause_keeps _ _ _ _ hk
  dsimp only
  split
  · exact bootCause_keeps _ _ _ _ hk
  · exact trySlots_keeps 0 _ (bootPhase_keeps _ _ (readPref_keeps hk))

theorem waitPcie_keeps  (hk : s.keeps kq km) :
    (State.waitPcie s).keeps kq km := by
  unfold State.waitPcie
  repeat' first
    | with_reducible assumption
    | with_reducible apply orReg_keeps
    | with_reducible apply bootPhase_keeps
    | with_reducible apply keeps_ite
    | intro _
    | split
    | with_reducible apply keeps_mk

theorem waitLink_keeps  (hk : s.keeps kq km) :
    (State.waitLink s).keeps kq km := by
  unfold State.waitLink
  repeat' first
    | with_reducible assumption
    | with_reducible apply orReg_keeps
    | with_reducible apply forAll_keeps
    | with_reducible apply hlEnable_keeps
    | with_reducible apply bootPhase_keeps
    | with_reducible apply keeps_ite
    | with_reducible apply forAll_keeps
    | intro _
    | split
    | dsimp only
    | with_reducible apply keeps_mk

theorem startFails_keeps  (hk : s.keeps kq km) :
    (State.startFails s).keeps kq km := by
  unfold State.startFails
  repeat' first
    | with_reducible assumption
    | with_reducible apply failedStart_keeps
    | with_reducible apply begin_keeps
    | with_reducible apply keeps_ite
    | intro _
    | split
    | with_reducible refine snd_keeps (by assumption) ?_
    | with_reducible refine thd_keeps (by assumption) ?_
    | dsimp only
    | with_reducible apply keeps_mk

theorem search_keeps (o : BootOffer) (n : Nat) (hk : s.keeps kq km) : (s.search o n).keeps kq km := by
  induction n generalizing s with
  | zero => exact hk
  | succ n ih =>
    unfold State.search
    refine keeps_ite (fun _ => hk) (fun _ => ?_)
    have h : State.keeps kq km { s with boot := { s.boot with straps := o.straps, seek := false } } := keeps_mk hk
    generalize ({ s with boot := { s.boot with straps := o.straps, seek := false } } : State) = t at h
    have hf := fromFlash_keeps o h
    dsimp only
    split
    · exact waitPcie_keeps h
    · exact waitLink_keeps h
    · split
      · next u hu => rw [hu] at hf; exact hf
      · next u hu =>
        rw [hu] at hf
        have hf : u.keeps kq km := hf
        exact keeps_ite (fun _ => waitPcie_keeps hf) (fun _ => ih (startFails_keeps hf))

theorem start_keeps (origin : Nat) (o : BootOffer) (hk : s.keeps kq km) :
    (State.start s origin o).keeps kq km := by
  unfold State.start
  repeat' first | with_reducible assumption | with_reducible apply begin_keeps | with_reducible apply search_keeps

theorem sourceFails_keeps (src : Nat) (hk : s.keeps kq km) :
    (State.sourceFails s src).keeps kq km := by
  unfold State.sourceFails
  repeat' first
    | with_reducible assumption
    | with_reducible apply waitLink_keeps
    | with_reducible apply startFails_keeps
    | with_reducible apply keeps_ite
    | intro _

theorem loadOffered_keeps (src : Nat) (x : SlotOffer) (hk : s.keeps kq km) : (s.loadOffered src x).keeps kq km := by
  unfold State.loadOffered
  extract_lets b t
  have ht : t.keeps kq km := keeps_mk hk
  clear_value t
  have h := loadSlot_keeps x src 0 (bootPhase_keeps 2 src ht)
  split
  · next u hu => rw [hu] at h; exact h
  · next u hu => rw [hu] at h; exact sourceFails_keeps src h

theorem mailboxBase_keeps  (hk : s.keeps kq km) :
    (State.mailboxBase s).keeps kq km := by
  unfold State.mailboxBase
  repeat' first | with_reducible assumption | with_reducible apply setReg_keeps

theorem fromHost_keeps (o : BootOffer) (hk : s.keeps kq km) : (s.fromHost o).keeps kq km :=
  search_keeps o 4 (loadOffered_keeps 1 _ (mailboxBase_keeps hk))

theorem runDue_keeps (o : BootOffer) (hk : s.keeps kq km) :
    (State.runDue s o).keeps kq km := by
  unfold State.runDue
  repeat' first
    | with_reducible assumption
    | with_reducible apply search_keeps
    | with_reducible apply start_keeps
    | with_reducible apply fromHost_keeps
    | with_reducible apply keeps_ite
    | intro _
    | split

theorem noSource_keeps (src : Nat) (hk : s.keeps kq km) :
    (State.noSource s src).keeps kq km := by
  unfold State.noSource
  repeat' first | with_reducible assumption | with_reducible apply bootCause_keeps | with_reducible apply keeps_ite | intro _

theorem sourceTimeout_keeps (o : BootOffer) (hk : s.keeps kq km) :
    (State.sourceTimeout s o).keeps kq km := by
  unfold State.sourceTimeout
  repeat' first
    | with_reducible assumption
    | with_reducible apply search_keeps
    | with_reducible apply sourceFails_keeps
    | with_reducible apply fromHost_keeps
    | with_reducible apply noSource_keeps
    | with_reducible apply keeps_ite
    | intro _
    | split

theorem loseAlwaysOn_keeps (hk : s.keeps kq km) : (s.loseAlwaysOn).keeps kq km := by
  have h := stopDevice_keeps hk
  exact ⟨⟨h.1.1, mapWf_drop Reg.resetValue (fun a => !(List.range 4).any fun g => a == Reg.gpioIn g) _ h.1.2.1,
    Nat.zero_le 16⟩, h.2⟩

theorem originate_keeps (k : Nat) (o : BootOffer) (hk : s.keeps kq km) :
    (State.originate s k o).keeps kq km := by
  unfold State.originate
  repeat' first
    | with_reducible assumption
    | with_reducible apply stopDevice_keeps
    | with_reducible apply beginDue_keeps
    | with_reducible apply search_keeps
    | with_reducible apply keeps_ite
    | intro _
    | split
    | with_reducible apply keeps_mk

theorem baroReset_keeps (cause : BaroCause) (o : BootOffer) (hk : s.keeps kq km) :
    (State.baroReset s cause o).keeps kq km := by
  unfold State.baroReset
  repeat' first
    | with_reducible assumption
    | with_reducible apply orReg_keeps
    | with_reducible apply stopDevice_keeps
    | with_reducible apply loseAlwaysOn_keeps
    | with_reducible apply originate_keeps
    | with_reducible apply keeps_ite
    | intro _
    | split

theorem resetLow_keeps  (hk : s.keeps kq km) :
    (State.resetLow s).keeps kq km := by
  unfold State.resetLow
  repeat' first
    | with_reducible assumption
    | with_reducible apply stopDevice_keeps
    | with_reducible apply keeps_ite
    | intro _
    | split
    | dsimp only
    | with_reducible apply keeps_mk

theorem resetFall_keeps  (hk : s.keeps kq km) :
    (State.resetFall s).keeps kq km := by
  unfold State.resetFall
  repeat' first | with_reducible assumption | with_reducible apply keeps_ite | intro _ | split | with_reducible apply keeps_mk

theorem resetRise_keeps (o : BootOffer) (hk : s.keeps kq km) :
    (State.resetRise s o).keeps kq km := by
  unfold State.resetRise
  repeat' first
    | with_reducible assumption
    | with_reducible apply keeps_ite
    | intro _
    | split
    | dsimp only
    | with_reducible apply keeps_mk

theorem resetTick_keeps  (hk : s.keeps kq km) :
    (State.resetTick s).keeps kq km := by
  unfold State.resetTick
  repeat' first
    | with_reducible assumption
    | with_reducible apply start_keeps
    | with_reducible apply resetLow_keeps
    | with_reducible apply keeps_ite
    | intro _
    | split
    | dsimp only

theorem bootStep_keeps  (hk : s.keeps kq km) :
    (State.bootStep s).keeps kq km := by
  unfold State.bootStep
  repeat' first
    | with_reducible assumption
    | with_reducible apply bootApply_keeps
    | with_reducible apply releaseImage_keeps
    | with_reducible apply keeps_ite
    | intro _
    | split

theorem fetchAsk_keeps  (kl : Nat) (hk : s.keeps kq km) :
    (State.fetchAsk s kl).keeps kq km := by
  induction kl generalizing s with
  | zero => exact hk
  | succ _ ih =>
    unfold State.fetchAsk
    repeat' first
      | with_reducible assumption
      | with_reducible apply ih
      | with_reducible apply hlQueue_keeps
      | with_reducible apply keeps_ite
      | intro _
      | split
      | dsimp only
      | with_reducible apply keeps_mk

theorem fetchTick_keeps  (hk : s.keeps kq km) :
    (State.fetchTick s).keeps kq km := by
  unfold State.fetchTick
  repeat' first
    | with_reducible assumption
    | with_reducible apply bootPhase_keeps
    | with_reducible apply loadOffered_keeps
    | with_reducible apply fetchAsk_keeps
    | with_reducible apply keeps_ite
    | intro _
    | split
    | dsimp only
    | with_reducible apply keeps_mk

theorem fetchGoes_keeps (h : HlImage) (hk : s.keeps kq km) :
    (State.fetchGoes s h).keeps kq km := by
  unfold State.fetchGoes
  repeat' first
    | with_reducible assumption
    | with_reducible apply loadOffered_keeps
    | with_reducible apply fetchAsk_keeps
    | with_reducible apply keeps_ite
    | intro _
    | split
    | dsimp only
    | with_reducible apply keeps_mk

theorem fetchTake_keeps (p : PortId) (f : HlFrame) (loaded : Option ImgBody) (hk : s.keeps kq km) :
    (State.fetchTake s p f loaded).keeps kq km := by
  unfold State.fetchTake
  repeat' first
    | with_reducible assumption
    | with_reducible apply incReg_keeps
    | with_reducible apply hlError_keeps
    | with_reducible apply loadOffered_keeps
    | with_reducible apply fetchGoes_keeps
    | with_reducible apply keeps_ite
    | intro _
    | split

theorem imageRequest_keeps (p : PortId) (f : HlFrame) (hk : s.keeps kq km) :
    (State.imageRequest s p f).keeps kq km := by
  unfold State.imageRequest
  repeat' first
    | with_reducible assumption
    | with_reducible apply issueParts_keeps
    | with_reducible apply hlRespond_keeps
    | with_reducible apply keeps_ite
    | intro _
    | split
    | with_reducible refine snd_keeps (by assumption) ?_
    | with_reducible refine thd_keeps (by assumption) ?_
    | dsimp only
    | with_reducible apply keeps_mk

theorem monitor_keeps (f : State → State) (hk : s.keeps kq km) (hf : s.keeps kq km → (f s).keeps kq km) :
    (s.monitor f).keeps kq km := by
  unfold State.monitor
  exact keeps_ite (fun _ => hf hk) (fun _ => hk)

theorem monitorInfo_keeps  (hk : s.keeps kq km) :
    (State.monitorInfo s).keeps kq km := by
  unfold State.monitorInfo
  repeat' first | with_reducible assumption | with_reducible apply answer_keeps

theorem monitorRead_keeps (a : Word) (hk : s.keeps kq km) :
    (State.monitorRead s a).keeps kq km := by
  unfold State.monitorRead
  repeat' first
    | with_reducible assumption
    | with_reducible apply drawWord_keeps
    | with_reducible apply answer_keeps
    | with_reducible apply monAccess_keeps
    | with_reducible apply keeps_ite
    | intro _

theorem monitorWrite_keeps (a v : Word) (hk : s.keeps kq km) :
    (State.monitorWrite s a v).keeps kq km := by
  unfold State.monitorWrite
  repeat' first | with_reducible assumption | with_reducible apply monAccess_keeps

theorem monitorLoad_keeps (n : Word) (bs : List Byte) (crc : Word) (hk : s.keeps kq km) :
    (State.monitorLoad s n bs crc).keeps kq km := by
  unfold State.monitorLoad
  repeat' first
    | with_reducible assumption
    | with_reducible apply storeBytes_keeps
    | with_reducible apply answer_keeps
    | with_reducible apply answerErr_keeps
    | with_reducible apply keeps_ite
    | intro _
    | split
    | dsimp only
    | with_reducible apply keeps_mk

theorem monitorCheck_keeps (body : ImgBody) (hk : s.keeps kq km) :
    (State.monitorCheck s body).keeps kq km := by
  unfold State.monitorCheck
  repeat' first
    | with_reducible assumption
    | with_reducible apply answer_keeps
    | with_reducible apply answerErr_keeps
    | with_reducible apply keeps_ite
    | intro _
    | split

theorem monitorProgram_keeps (slotB flash : Bool) (hk : s.keeps kq km) :
    (State.monitorProgram s slotB flash).keeps kq km := by
  unfold State.monitorProgram
  repeat' first
    | with_reducible assumption
    | with_reducible apply flashPut_keeps
    | with_reducible apply answer_keeps
    | with_reducible apply keeps_ite
    | intro _
    | split

theorem monDo_keeps (l : MonLine) (hk : s.keeps kq km) : (s.monDo l).keeps kq km := by
  cases l with
  | info => exact monitorInfo_keeps hk
  | read a => exact monitorRead_keeps a hk
  | write a v => exact monitorWrite_keeps a v hk
  | load n => exact keeps_ite (fun _ => answerErr_keeps hk) (fun _ => keeps_mk hk)
  | wait w => exact keeps_mk hk
  | unknown => exact answer_keeps _ _ hk

theorem monChar_keeps (b : Byte) (hk : s.keeps kq km) :
    (State.monChar s b).keeps kq km := by
  unfold State.monChar
  repeat' first
    | with_reducible assumption
    | with_reducible apply monitorLoad_keeps
    | with_reducible apply monDo_keeps
    | with_reducible apply keeps_ite
    | intro _
    | split
    | dsimp only
    | with_reducible apply keeps_mk

theorem monListen_keeps  (hk : s.keeps kq km) :
    (State.monListen s).keeps kq km := by
  unfold State.monListen
  repeat' first
    | with_reducible assumption
    | with_reducible apply modUart_keeps
    | with_reducible apply monChar_keeps
    | with_reducible apply keeps_ite
    | intro _
    | split

theorem monSpeak_keeps  (hk : s.keeps kq km) :
    (State.monSpeak s).keeps kq km := by
  unfold State.monSpeak
  repeat' first
    | with_reducible assumption
    | with_reducible apply modUart_keeps
    | with_reducible apply keeps_ite
    | intro _
    | split
    | dsimp only
    | with_reducible apply keeps_mk

theorem monLineDone_keeps  (hk : s.keeps kq km) :
    (State.monLineDone s).keeps kq km := by
  unfold State.monLineDone
  repeat' first | with_reducible assumption | with_reducible apply keeps_ite | intro _ | split | with_reducible apply keeps_mk

theorem capture_keeps  (hk : s.keeps kq km) :
    (State.capture s).2.keeps kq km := by
  unfold State.capture
  repeat' first | with_reducible assumption | with_reducible apply drawn_keeps

theorem tapSelect_keeps (ir : Byte) (hk : s.keeps kq km) :
    (State.tapSelect s ir).keeps kq km := by
  unfold State.tapSelect
  repeat' first | with_reducible assumption | with_reducible apply keeps_ite | intro _ | split | with_reducible apply keeps_mk

theorem tapInstruction_keeps (ir : Byte) (bsr : Option Cells) (hk : s.keeps kq km) :
    (State.tapInstruction s ir bsr).keeps kq km := by
  unfold State.tapInstruction
  repeat' first
    | with_reducible assumption
    | with_reducible apply capture_keeps
    | with_reducible apply tapSelect_keeps
    | with_reducible apply keeps_ite
    | intro _
    | split
    | with_reducible refine snd_keeps (by assumption) ?_
    | with_reducible refine thd_keeps (by assumption) ?_
    | dsimp only
    | with_reducible apply keeps_mk

theorem tbAdvance_keeps  (hk : s.keeps kq km) :
    (State.tbAdvance s).keeps kq km := by
  unfold State.tbAdvance
  repeat' first
    | with_reducible assumption
    | with_reducible apply keeps_ite
    | intro _
    | split
    | dsimp only
    | with_reducible apply keeps_mk

theorem gustCount_keeps (e : EngId) (hk : s.keeps kq km) :
    (State.gustCount s e).keeps kq km := by
  unfold State.gustCount
  repeat' first
    | with_reducible assumption
    | with_reducible apply modEng_keeps
    | with_reducible apply setFrames_keeps
    | with_reducible apply perf_keeps
    | with_reducible apply on_keeps
    | with_reducible apply keeps_ite
    | intro _
    | split

theorem frameShow_keeps (e : EngId) (hk : s.keeps kq km) :
    (State.frameShow s e).keeps kq km := by
  unfold State.frameShow
  repeat' first
    | with_reducible assumption
    | with_reducible apply setReg_keeps
    | with_reducible apply keeps_ite
    | intro _
    | split

theorem perfIdle_keeps (e : EngId) (hk : s.keeps kq km) :
    (State.perfIdle s e).keeps kq km := by
  unfold State.perfIdle
  repeat' first
    | with_reducible assumption
    | with_reducible apply modEng_keeps
    | with_reducible apply perf_keeps
    | with_reducible apply keeps_ite
    | intro _
    | split

theorem perfSlip_keeps (e : EngId) (hk : s.keeps kq km) :
    (State.perfSlip s e).keeps kq km := by
  unfold State.perfSlip
  repeat' first | with_reducible assumption | with_reducible apply perf_keeps

theorem wdCount_keeps (e : EngId) (hk : s.keeps kq km) :
    (State.wdCount s e).keeps kq km := by
  unfold State.wdCount
  repeat' first
    | with_reducible assumption
    | with_reducible apply setReg_keeps
    | with_reducible apply modEng_keeps
    | with_reducible apply keeps_ite
    | intro _

theorem arbitrate_keeps (e : EngId) (hk : s.keeps kq km) :
    (State.arbitrate s e).keeps kq km := by
  unfold State.arbitrate
  repeat' first | with_reducible assumption | with_reducible apply modEng_keeps | with_reducible apply keeps_ite | intro _

theorem loopArrive_keeps  (hk : s.keeps kq km) :
    (State.loopArrive s).keeps kq km := by
  unfold State.loopArrive
  repeat' first
    | with_reducible assumption
    | with_reducible apply angleDeliver_keeps
    | with_reducible apply keeps_ite
    | with_reducible apply foldl_keeps
    | with_reducible apply foldl_fst_keeps
    | with_reducible apply foldl_snd_keeps
    | intro _
    | split
    | dsimp only
    | with_reducible apply keeps_mk

theorem baseInjected_keeps (b : BaseId) (hk : s.keeps kq km) :
    (State.baseInjected s b).keeps kq km := by
  unfold State.baseInjected
  repeat' first
    | with_reducible assumption
    | with_reducible apply modBase_keeps
    | with_reducible apply baseLockstep_keeps
    | with_reducible apply keeps_ite
    | intro _

theorem readbackInjected_keeps (p : PinId) (hk : s.keeps kq km) :
    (State.readbackInjected s p).keeps kq km := by
  unfold State.readbackInjected
  repeat' first
    | with_reducible assumption
    | with_reducible apply modPin_keeps
    | with_reducible apply rbError_keeps
    | with_reducible apply keeps_ite
    | intro _

theorem refRetry_keeps  (hk : s.keeps kq km) :
    (State.refRetry s).keeps kq km := by
  unfold State.refRetry
  repeat' first | with_reducible assumption | with_reducible apply refSwitch_keeps | with_reducible apply keeps_ite | intro _

theorem kick_keeps  (hk : s.keeps kq km) :
    (State.kick s).keeps kq km := by
  unfold State.kick
  repeat' first
    | with_reducible assumption
    | with_reducible apply forAll_keeps
    | with_reducible apply uartStart_keeps
    | with_reducible apply spiStart_keeps
    | with_reducible apply i2cPump_keeps
    | with_reducible apply gpioTick_keeps
    | with_reducible apply dmaRun_keeps
    | with_reducible apply lbpCycleTick_keeps
    | with_reducible apply mdioEnd_keeps
    | with_reducible apply monListen_keeps
    | with_reducible apply monSpeak_keeps
    | with_reducible apply keeps_ite
    | with_reducible apply forAll_keeps
    | intro _

theorem engineEnd_keeps (e : EngId) (hk : s.keeps kq km) :
    (State.engineEnd s e).keeps kq km := by
  unfold State.engineEnd
  repeat' first
    | with_reducible assumption
    | with_reducible apply perfSettle_keeps
    | with_reducible apply apuEval_keeps
    | with_reducible apply apuTest_keeps
    | with_reducible apply fetchStep_keeps
    | with_reducible apply microDecide_keeps
    | with_reducible apply gustCount_keeps
    | with_reducible apply perfIdle_keeps
    | with_reducible apply perfSlip_keeps
    | with_reducible apply arbitrate_keeps

theorem engineBegin_keeps (e : EngId) (hk : s.keeps kq km) :
    (State.engineBegin s e).keeps kq km := by
  unfold State.engineBegin
  repeat' first
    | with_reducible assumption
    | with_reducible apply pumpFar_keeps
    | with_reducible apply lateRun_keeps
    | with_reducible apply bmuPumpAll_keeps
    | with_reducible apply bmuFinish_keeps
    | with_reducible apply vectorDue_keeps
    | with_reducible apply pumpLines_keeps
    | with_reducible apply laneBDue_keeps
    | with_reducible apply frameShow_keeps
    | with_reducible apply wdCount_keeps
    | with_reducible apply keeps_ite
    | intro _

theorem fcBegin_keeps  (hk : s.keeps kq km) :
    (State.fcBegin s).keeps kq km := by
  unfold State.fcBegin
  repeat' first
    | with_reducible assumption
    | with_reducible apply forAll_keeps
    | with_reducible apply almSeesAll_keeps
    | with_reducible apply edgesDue_keeps
    | with_reducible apply dropsEnd_keeps
    | with_reducible apply tbAdvance_keeps
    | with_reducible apply keeps_ite
    | with_reducible apply forAll_keeps
    | intro _

theorem tick_keeps  (hk : s.keeps kq km) :
    (State.tick s).keeps kq km := by
  unfold State.tick
  repeat' first
    | with_reducible assumption
    | with_reducible apply forAll_keeps
    | with_reducible apply logEnter_keeps
    | with_reducible apply hsSample_keeps
    | with_reducible apply wcEnd_keeps
    | with_reducible apply msgOwnDue_keeps
    | with_reducible apply ringPredict_keeps
    | with_reducible apply borrowTick_keeps
    | with_reducible apply msiSee_keeps
    | with_reducible apply lbpEnd_keeps
    | with_reducible apply resetTick_keeps
    | with_reducible apply bootStep_keeps
    | with_reducible apply fetchTick_keeps
    | with_reducible apply loopArrive_keeps
    | with_reducible apply baseInjected_keeps
    | with_reducible apply readbackInjected_keeps
    | with_reducible apply refRetry_keeps
    | with_reducible apply kick_keeps
    | with_reducible apply engineEnd_keeps
    | with_reducible apply engineBegin_keeps
    | with_reducible apply fcBegin_keeps
    | with_reducible apply keeps_ite
    | with_reducible apply forAll_keeps
    | intro _

end Sys2Proof.Laws
end

