-- ==== Sys2Proof/Laws/KeepsExec.lean ====
section
/-! SUPPORT. What each meaning keeps: canonical maps, the queue, and the engines that are present. -/

namespace Sys2Proof.Laws

open Sys2Proof.Machine

variable {kq : List Instr} {km : Half} {s st : State}

theorem execPerfOverflow_keeps (e : EngId) (k : BaseId) (hk : s.keeps kq km)
    (h : execPerfOverflow e k s = .next st) : st.keeps kq km := by
  unfold execPerfOverflow at h
  obtain rfl := Host.Outcome.next.inj h
  clear h
  repeat' first | with_reducible assumption | with_reducible apply perfOverflow_keeps

theorem execPerfCountRead_keeps (e : EngId) (k : BaseId) (hk : s.keeps kq km)
    (h : execPerfCountRead e k s = .next st) : st.keeps kq km := by
  unfold execPerfCountRead at h
  obtain rfl := Host.Outcome.next.inj h
  clear h
  repeat' first
    | with_reducible assumption
    | with_reducible apply perfRead_keeps
    | with_reducible apply keeps_ite
    | intro _
    | split
    | with_reducible refine snd_keeps (by assumption) ?_
    | dsimp only
    | with_reducible apply keeps_mk

theorem execPerfCountWrite_keeps (e : EngId) (k : BaseId) (value : Word) (hk : s.keeps kq km)
    (h : execPerfCountWrite e k value s = .next st) : st.keeps kq km := by
  unfold execPerfCountWrite at h
  obtain rfl := Host.Outcome.next.inj h
  clear h
  repeat' first | with_reducible assumption | with_reducible apply perfWrite_keeps | with_reducible apply keeps_ite | intro _

theorem execInterruptInputAssert_keeps (e : EngId) (i : InputId) (hk : s.keeps kq km)
    (h : execInterruptInputAssert e i s = .next st) : st.keeps kq km := by
  unfold execInterruptInputAssert at h
  obtain rfl := Host.Outcome.next.inj h
  clear h
  repeat' first | with_reducible assumption | with_reducible apply assertInput_keeps

theorem execSoftwareSourceSet_keeps (mask : Word) (hk : s.keeps kq km)
    (h : execSoftwareSourceSet mask s = .next st) : st.keeps kq km := by
  unfold execSoftwareSourceSet at h
  obtain rfl := Host.Outcome.next.inj h
  clear h
  repeat' first | with_reducible assumption | with_reducible apply swiSet_keeps

theorem execAluAdd_keeps (e : EngId) (u : AluId) (t : Word) (hk : s.keeps kq km)
    (h : execAluAdd e u t s = .next st) : st.keeps kq km := by
  unfold execAluAdd at h
  obtain rfl := Host.Outcome.next.inj h
  clear h
  repeat' first | with_reducible assumption | with_reducible apply aluOp_keeps

theorem execAluSub_keeps (e : EngId) (u : AluId) (t : Word) (hk : s.keeps kq km)
    (h : execAluSub e u t s = .next st) : st.keeps kq km := by
  unfold execAluSub at h
  obtain rfl := Host.Outcome.next.inj h
  clear h
  repeat' first | with_reducible assumption | with_reducible apply aluOp_keeps

theorem execAluAddc_keeps (e : EngId) (u : AluId) (t : Word) (hk : s.keeps kq km)
    (h : execAluAddc e u t s = .next st) : st.keeps kq km := by
  unfold execAluAddc at h
  obtain rfl := Host.Outcome.next.inj h
  clear h
  repeat' first | with_reducible assumption | with_reducible apply aluOp_keeps

theorem execAluSubb_keeps (e : EngId) (u : AluId) (t : Word) (hk : s.keeps kq km)
    (h : execAluSubb e u t s = .next st) : st.keeps kq km := by
  unfold execAluSubb at h
  obtain rfl := Host.Outcome.next.inj h
  clear h
  repeat' first | with_reducible assumption | with_reducible apply aluOp_keeps

theorem execAluAdds_keeps (e : EngId) (u : AluId) (t : Word) (hk : s.keeps kq km)
    (h : execAluAdds e u t s = .next st) : st.keeps kq km := by
  unfold execAluAdds at h
  obtain rfl := Host.Outcome.next.inj h
  clear h
  repeat' first | with_reducible assumption | with_reducible apply aluOp_keeps

theorem execAluSubs_keeps (e : EngId) (u : AluId) (t : Word) (hk : s.keeps kq km)
    (h : execAluSubs e u t s = .next st) : st.keeps kq km := by
  unfold execAluSubs at h
  obtain rfl := Host.Outcome.next.inj h
  clear h
  repeat' first | with_reducible assumption | with_reducible apply aluOp_keeps

theorem execAluAnd_keeps (e : EngId) (u : AluId) (t : Word) (hk : s.keeps kq km)
    (h : execAluAnd e u t s = .next st) : st.keeps kq km := by
  unfold execAluAnd at h
  obtain rfl := Host.Outcome.next.inj h
  clear h
  repeat' first | with_reducible assumption | with_reducible apply aluOp_keeps

theorem execAluOr_keeps (e : EngId) (u : AluId) (t : Word) (hk : s.keeps kq km)
    (h : execAluOr e u t s = .next st) : st.keeps kq km := by
  unfold execAluOr at h
  obtain rfl := Host.Outcome.next.inj h
  clear h
  repeat' first | with_reducible assumption | with_reducible apply aluOp_keeps

theorem execAluXor_keeps (e : EngId) (u : AluId) (t : Word) (hk : s.keeps kq km)
    (h : execAluXor e u t s = .next st) : st.keeps kq km := by
  unfold execAluXor at h
  obtain rfl := Host.Outcome.next.inj h
  clear h
  repeat' first | with_reducible assumption | with_reducible apply aluOp_keeps

theorem execAluAndn_keeps (e : EngId) (u : AluId) (t : Word) (hk : s.keeps kq km)
    (h : execAluAndn e u t s = .next st) : st.keeps kq km := by
  unfold execAluAndn at h
  obtain rfl := Host.Outcome.next.inj h
  clear h
  repeat' first | with_reducible assumption | with_reducible apply aluOp_keeps

theorem execAluShl_keeps (e : EngId) (u : AluId) (t : Word) (hk : s.keeps kq km)
    (h : execAluShl e u t s = .next st) : st.keeps kq km := by
  unfold execAluShl at h
  obtain rfl := Host.Outcome.next.inj h
  clear h
  repeat' first | with_reducible assumption | with_reducible apply aluOp_keeps

theorem execAluShr_keeps (e : EngId) (u : AluId) (t : Word) (hk : s.keeps kq km)
    (h : execAluShr e u t s = .next st) : st.keeps kq km := by
  unfold execAluShr at h
  obtain rfl := Host.Outcome.next.inj h
  clear h
  repeat' first | with_reducible assumption | with_reducible apply aluOp_keeps

theorem execAluSra_keeps (e : EngId) (u : AluId) (t : Word) (hk : s.keeps kq km)
    (h : execAluSra e u t s = .next st) : st.keeps kq km := by
  unfold execAluSra at h
  obtain rfl := Host.Outcome.next.inj h
  clear h
  repeat' first | with_reducible assumption | with_reducible apply aluOp_keeps

theorem execAluRol_keeps (e : EngId) (u : AluId) (t : Word) (hk : s.keeps kq km)
    (h : execAluRol e u t s = .next st) : st.keeps kq km := by
  unfold execAluRol at h
  obtain rfl := Host.Outcome.next.inj h
  clear h
  repeat' first | with_reducible assumption | with_reducible apply aluOp_keeps

theorem execAluEq_keeps (e : EngId) (u : AluId) (t : Word) (hk : s.keeps kq km)
    (h : execAluEq e u t s = .next st) : st.keeps kq km := by
  unfold execAluEq at h
  obtain rfl := Host.Outcome.next.inj h
  clear h
  repeat' first | with_reducible assumption | with_reducible apply aluOp_keeps

theorem execAluNe_keeps (e : EngId) (u : AluId) (t : Word) (hk : s.keeps kq km)
    (h : execAluNe e u t s = .next st) : st.keeps kq km := by
  unfold execAluNe at h
  obtain rfl := Host.Outcome.next.inj h
  clear h
  repeat' first | with_reducible assumption | with_reducible apply aluOp_keeps

theorem execAluLts_keeps (e : EngId) (u : AluId) (t : Word) (hk : s.keeps kq km)
    (h : execAluLts e u t s = .next st) : st.keeps kq km := by
  unfold execAluLts at h
  obtain rfl := Host.Outcome.next.inj h
  clear h
  repeat' first | with_reducible assumption | with_reducible apply aluOp_keeps

theorem execAluLes_keeps (e : EngId) (u : AluId) (t : Word) (hk : s.keeps kq km)
    (h : execAluLes e u t s = .next st) : st.keeps kq km := by
  unfold execAluLes at h
  obtain rfl := Host.Outcome.next.inj h
  clear h
  repeat' first | with_reducible assumption | with_reducible apply aluOp_keeps

theorem execAluGts_keeps (e : EngId) (u : AluId) (t : Word) (hk : s.keeps kq km)
    (h : execAluGts e u t s = .next st) : st.keeps kq km := by
  unfold execAluGts at h
  obtain rfl := Host.Outcome.next.inj h
  clear h
  repeat' first | with_reducible assumption | with_reducible apply aluOp_keeps

theorem execAluGes_keeps (e : EngId) (u : AluId) (t : Word) (hk : s.keeps kq km)
    (h : execAluGes e u t s = .next st) : st.keeps kq km := by
  unfold execAluGes at h
  obtain rfl := Host.Outcome.next.inj h
  clear h
  repeat' first | with_reducible assumption | with_reducible apply aluOp_keeps

theorem execAluLtu_keeps (e : EngId) (u : AluId) (t : Word) (hk : s.keeps kq km)
    (h : execAluLtu e u t s = .next st) : st.keeps kq km := by
  unfold execAluLtu at h
  obtain rfl := Host.Outcome.next.inj h
  clear h
  repeat' first | with_reducible assumption | with_reducible apply aluOp_keeps

theorem execAluLeu_keeps (e : EngId) (u : AluId) (t : Word) (hk : s.keeps kq km)
    (h : execAluLeu e u t s = .next st) : st.keeps kq km := by
  unfold execAluLeu at h
  obtain rfl := Host.Outcome.next.inj h
  clear h
  repeat' first | with_reducible assumption | with_reducible apply aluOp_keeps

theorem execAluGtu_keeps (e : EngId) (u : AluId) (t : Word) (hk : s.keeps kq km)
    (h : execAluGtu e u t s = .next st) : st.keeps kq km := by
  unfold execAluGtu at h
  obtain rfl := Host.Outcome.next.inj h
  clear h
  repeat' first | with_reducible assumption | with_reducible apply aluOp_keeps

theorem execAluGeu_keeps (e : EngId) (u : AluId) (t : Word) (hk : s.keeps kq km)
    (h : execAluGeu e u t s = .next st) : st.keeps kq km := by
  unfold execAluGeu at h
  obtain rfl := Host.Outcome.next.inj h
  clear h
  repeat' first | with_reducible assumption | with_reducible apply aluOp_keeps

theorem execAluMins_keeps (e : EngId) (u : AluId) (t : Word) (hk : s.keeps kq km)
    (h : execAluMins e u t s = .next st) : st.keeps kq km := by
  unfold execAluMins at h
  obtain rfl := Host.Outcome.next.inj h
  clear h
  repeat' first | with_reducible assumption | with_reducible apply aluOp_keeps

theorem execAluMaxs_keeps (e : EngId) (u : AluId) (t : Word) (hk : s.keeps kq km)
    (h : execAluMaxs e u t s = .next st) : st.keeps kq km := by
  unfold execAluMaxs at h
  obtain rfl := Host.Outcome.next.inj h
  clear h
  repeat' first | with_reducible assumption | with_reducible apply aluOp_keeps

theorem execAluMinu_keeps (e : EngId) (u : AluId) (t : Word) (hk : s.keeps kq km)
    (h : execAluMinu e u t s = .next st) : st.keeps kq km := by
  unfold execAluMinu at h
  obtain rfl := Host.Outcome.next.inj h
  clear h
  repeat' first | with_reducible assumption | with_reducible apply aluOp_keeps

theorem execAluMaxu_keeps (e : EngId) (u : AluId) (t : Word) (hk : s.keeps kq km)
    (h : execAluMaxu e u t s = .next st) : st.keeps kq km := by
  unfold execAluMaxu at h
  obtain rfl := Host.Outcome.next.inj h
  clear h
  repeat' first | with_reducible assumption | with_reducible apply aluOp_keeps

theorem execAluAbs_keeps (e : EngId) (u : AluId) (t : Word) (hk : s.keeps kq km)
    (h : execAluAbs e u t s = .next st) : st.keeps kq km := by
  unfold execAluAbs at h
  obtain rfl := Host.Outcome.next.inj h
  clear h
  repeat' first | with_reducible assumption | with_reducible apply aluOp_keeps

theorem execMulMull_keeps (e : EngId) (u : PairId) (t : Word) (hk : s.keeps kq km)
    (h : execMulMull e u t s = .next st) : st.keeps kq km := by
  unfold execMulMull at h
  obtain rfl := Host.Outcome.next.inj h
  clear h
  repeat' first | with_reducible assumption | with_reducible apply mulOp_keeps

theorem execMulMulu_keeps (e : EngId) (u : PairId) (t : Word) (hk : s.keeps kq km)
    (h : execMulMulu e u t s = .next st) : st.keeps kq km := by
  unfold execMulMulu at h
  obtain rfl := Host.Outcome.next.inj h
  clear h
  repeat' first | with_reducible assumption | with_reducible apply mulOp_keeps

theorem execMulMulsu_keeps (e : EngId) (u : PairId) (t : Word) (hk : s.keeps kq km)
    (h : execMulMulsu e u t s = .next st) : st.keeps kq km := by
  unfold execMulMulsu at h
  obtain rfl := Host.Outcome.next.inj h
  clear h
  repeat' first | with_reducible assumption | with_reducible apply mulOp_keeps

theorem execMacMacs_keeps (e : EngId) (u : PairId) (t : Word) (hk : s.keeps kq km)
    (h : execMacMacs e u t s = .next st) : st.keeps kq km := by
  unfold execMacMacs at h
  obtain rfl := Host.Outcome.next.inj h
  clear h
  repeat' first | with_reducible assumption | with_reducible apply macOp_keeps

theorem execMacMacu_keeps (e : EngId) (u : PairId) (t : Word) (hk : s.keeps kq km)
    (h : execMacMacu e u t s = .next st) : st.keeps kq km := by
  unfold execMacMacu at h
  obtain rfl := Host.Outcome.next.inj h
  clear h
  repeat' first | with_reducible assumption | with_reducible apply macOp_keeps

theorem execMacMsbs_keeps (e : EngId) (u : PairId) (t : Word) (hk : s.keeps kq km)
    (h : execMacMsbs e u t s = .next st) : st.keeps kq km := by
  unfold execMacMsbs at h
  obtain rfl := Host.Outcome.next.inj h
  clear h
  repeat' first | with_reducible assumption | with_reducible apply macOp_keeps

theorem execMacMacss_keeps (e : EngId) (u : PairId) (t : Word) (hk : s.keeps kq km)
    (h : execMacMacss e u t s = .next st) : st.keeps kq km := by
  unfold execMacMacss at h
  obtain rfl := Host.Outcome.next.inj h
  clear h
  repeat' first | with_reducible assumption | with_reducible apply macOp_keeps

theorem execMacLdmul_keeps (e : EngId) (u : PairId) (t : Word) (hk : s.keeps kq km)
    (h : execMacLdmul e u t s = .next st) : st.keeps kq km := by
  unfold execMacLdmul at h
  obtain rfl := Host.Outcome.next.inj h
  clear h
  repeat' first | with_reducible assumption | with_reducible apply macOp_keeps

theorem execMacLerp_keeps (e : EngId) (u : PairId) (t : Word) (hk : s.keeps kq km)
    (h : execMacLerp e u t s = .next st) : st.keeps kq km := by
  unfold execMacLerp at h
  obtain rfl := Host.Outcome.next.inj h
  clear h
  repeat' first | with_reducible assumption | with_reducible apply macOp_keeps

theorem execMacLdacc_keeps (e : EngId) (u : PairId) (t : Word) (hk : s.keeps kq km)
    (h : execMacLdacc e u t s = .next st) : st.keeps kq km := by
  unfold execMacLdacc at h
  obtain rfl := Host.Outcome.next.inj h
  clear h
  repeat' first | with_reducible assumption | with_reducible apply macOp_keeps

theorem execMacRsh_keeps (e : EngId) (u : PairId) (t : Word) (hk : s.keeps kq km)
    (h : execMacRsh e u t s = .next st) : st.keeps kq km := by
  unfold execMacRsh at h
  obtain rfl := Host.Outcome.next.inj h
  clear h
  repeat' first | with_reducible assumption | with_reducible apply macOp_keeps

theorem execMacAdda_keeps (e : EngId) (u : PairId) (t : Word) (hk : s.keeps kq km)
    (h : execMacAdda e u t s = .next st) : st.keeps kq km := by
  unfold execMacAdda at h
  obtain rfl := Host.Outcome.next.inj h
  clear h
  repeat' first | with_reducible assumption | with_reducible apply macOp_keeps

theorem execDivDivs_keeps (e : EngId) (t : Word) (hk : s.keeps kq km)
    (h : execDivDivs e t s = .next st) : st.keeps kq km := by
  unfold execDivDivs at h
  obtain rfl := Host.Outcome.next.inj h
  clear h
  repeat' first | with_reducible assumption | with_reducible apply divOp_keeps

theorem execDivDivu_keeps (e : EngId) (t : Word) (hk : s.keeps kq km)
    (h : execDivDivu e t s = .next st) : st.keeps kq km := by
  unfold execDivDivu at h
  obtain rfl := Host.Outcome.next.inj h
  clear h
  repeat' first | with_reducible assumption | with_reducible apply divOp_keeps

theorem execBitExtu_keeps (e : EngId) (t : Word) (hk : s.keeps kq km)
    (h : execBitExtu e t s = .next st) : st.keeps kq km := by
  unfold execBitExtu at h
  obtain rfl := Host.Outcome.next.inj h
  clear h
  repeat' first | with_reducible assumption | with_reducible apply bitOp_keeps

theorem execBitExts_keeps (e : EngId) (t : Word) (hk : s.keeps kq km)
    (h : execBitExts e t s = .next st) : st.keeps kq km := by
  unfold execBitExts at h
  obtain rfl := Host.Outcome.next.inj h
  clear h
  repeat' first | with_reducible assumption | with_reducible apply bitOp_keeps

theorem execBitIns_keeps (e : EngId) (t : Word) (hk : s.keeps kq km)
    (h : execBitIns e t s = .next st) : st.keeps kq km := by
  unfold execBitIns at h
  obtain rfl := Host.Outcome.next.inj h
  clear h
  repeat' first | with_reducible assumption | with_reducible apply bitOp_keeps

theorem execBitClz_keeps (e : EngId) (t : Word) (hk : s.keeps kq km)
    (h : execBitClz e t s = .next st) : st.keeps kq km := by
  unfold execBitClz at h
  obtain rfl := Host.Outcome.next.inj h
  clear h
  repeat' first | with_reducible assumption | with_reducible apply bitOp_keeps

theorem execBitCtz_keeps (e : EngId) (t : Word) (hk : s.keeps kq km)
    (h : execBitCtz e t s = .next st) : st.keeps kq km := by
  unfold execBitCtz at h
  obtain rfl := Host.Outcome.next.inj h
  clear h
  repeat' first | with_reducible assumption | with_reducible apply bitOp_keeps

theorem execBitPopc_keeps (e : EngId) (t : Word) (hk : s.keeps kq km)
    (h : execBitPopc e t s = .next st) : st.keeps kq km := by
  unfold execBitPopc at h
  obtain rfl := Host.Outcome.next.inj h
  clear h
  repeat' first | with_reducible assumption | with_reducible apply bitOp_keeps

theorem execBitPerm_keeps (e : EngId) (t : Word) (hk : s.keeps kq km)
    (h : execBitPerm e t s = .next st) : st.keeps kq km := by
  unfold execBitPerm at h
  obtain rfl := Host.Outcome.next.inj h
  clear h
  repeat' first | with_reducible assumption | with_reducible apply bitOp_keeps

theorem execComputeResultComplete_keeps (e : EngId) (u : UnitId) (hk : s.keeps kq km)
    (h : execComputeResultComplete e u s = .next st) : st.keeps kq km := by
  unfold execComputeResultComplete at h
  obtain rfl := Host.Outcome.next.inj h
  clear h
  repeat' first | with_reducible assumption | with_reducible apply complete_keeps | with_reducible apply keeps_ite | intro _

theorem execLsuLdbu_keeps (e : EngId) (n : PairId) (t : Word) (hk : s.keeps kq km)
    (h : execLsuLdbu e n t s = .next st) : st.keeps kq km := by
  unfold execLsuLdbu at h
  obtain rfl := Host.Outcome.next.inj h
  clear h
  repeat' first | with_reducible assumption | with_reducible apply lsuOp_keeps

theorem execLsuLdbs_keeps (e : EngId) (n : PairId) (t : Word) (hk : s.keeps kq km)
    (h : execLsuLdbs e n t s = .next st) : st.keeps kq km := by
  unfold execLsuLdbs at h
  obtain rfl := Host.Outcome.next.inj h
  clear h
  repeat' first | with_reducible assumption | with_reducible apply lsuOp_keeps

theorem execLsuLdhu_keeps (e : EngId) (n : PairId) (t : Word) (hk : s.keeps kq km)
    (h : execLsuLdhu e n t s = .next st) : st.keeps kq km := by
  unfold execLsuLdhu at h
  obtain rfl := Host.Outcome.next.inj h
  clear h
  repeat' first | with_reducible assumption | with_reducible apply lsuOp_keeps

theorem execLsuLdhs_keeps (e : EngId) (n : PairId) (t : Word) (hk : s.keeps kq km)
    (h : execLsuLdhs e n t s = .next st) : st.keeps kq km := by
  unfold execLsuLdhs at h
  obtain rfl := Host.Outcome.next.inj h
  clear h
  repeat' first | with_reducible assumption | with_reducible apply lsuOp_keeps

theorem execLsuLdw_keeps (e : EngId) (n : PairId) (t : Word) (hk : s.keeps kq km)
    (h : execLsuLdw e n t s = .next st) : st.keeps kq km := by
  unfold execLsuLdw at h
  obtain rfl := Host.Outcome.next.inj h
  clear h
  repeat' first | with_reducible assumption | with_reducible apply lsuOp_keeps

theorem execLsuLdwx_keeps (e : EngId) (n : PairId) (t : Word) (hk : s.keeps kq km)
    (h : execLsuLdwx e n t s = .next st) : st.keeps kq km := by
  unfold execLsuLdwx at h
  obtain rfl := Host.Outcome.next.inj h
  clear h
  repeat' first | with_reducible assumption | with_reducible apply lsuOp_keeps

theorem execLsuStb_keeps (e : EngId) (n : PairId) (t : Word) (hk : s.keeps kq km)
    (h : execLsuStb e n t s = .next st) : st.keeps kq km := by
  unfold execLsuStb at h
  obtain rfl := Host.Outcome.next.inj h
  clear h
  repeat' first | with_reducible assumption | with_reducible apply lsuOp_keeps

theorem execLsuSth_keeps (e : EngId) (n : PairId) (t : Word) (hk : s.keeps kq km)
    (h : execLsuSth e n t s = .next st) : st.keeps kq km := by
  unfold execLsuSth at h
  obtain rfl := Host.Outcome.next.inj h
  clear h
  repeat' first | with_reducible assumption | with_reducible apply lsuOp_keeps

theorem execLsuStw_keeps (e : EngId) (n : PairId) (t : Word) (hk : s.keeps kq km)
    (h : execLsuStw e n t s = .next st) : st.keeps kq km := by
  unfold execLsuStw at h
  obtain rfl := Host.Outcome.next.inj h
  clear h
  repeat' first | with_reducible assumption | with_reducible apply lsuOp_keeps

theorem execLsuStwx_keeps (e : EngId) (n : PairId) (t : Word) (hk : s.keeps kq km)
    (h : execLsuStwx e n t s = .next st) : st.keeps kq km := by
  unfold execLsuStwx at h
  obtain rfl := Host.Outcome.next.inj h
  clear h
  repeat' first | with_reducible assumption | with_reducible apply lsuOp_keeps

theorem execLsuAadd_keeps (e : EngId) (n : PairId) (t : Word) (hk : s.keeps kq km)
    (h : execLsuAadd e n t s = .next st) : st.keeps kq km := by
  unfold execLsuAadd at h
  obtain rfl := Host.Outcome.next.inj h
  clear h
  repeat' first | with_reducible assumption | with_reducible apply lsuOp_keeps

theorem execLsuAswp_keeps (e : EngId) (n : PairId) (t : Word) (hk : s.keeps kq km)
    (h : execLsuAswp e n t s = .next st) : st.keeps kq km := by
  unfold execLsuAswp at h
  obtain rfl := Host.Outcome.next.inj h
  clear h
  repeat' first | with_reducible assumption | with_reducible apply lsuOp_keeps

theorem execLsuLdfbu_keeps (e : EngId) (n : PairId) (t : Word) (hk : s.keeps kq km)
    (h : execLsuLdfbu e n t s = .next st) : st.keeps kq km := by
  unfold execLsuLdfbu at h
  obtain rfl := Host.Outcome.next.inj h
  clear h
  repeat' first | with_reducible assumption | with_reducible apply lsuOp_keeps

theorem execLsuLdfbs_keeps (e : EngId) (n : PairId) (t : Word) (hk : s.keeps kq km)
    (h : execLsuLdfbs e n t s = .next st) : st.keeps kq km := by
  unfold execLsuLdfbs at h
  obtain rfl := Host.Outcome.next.inj h
  clear h
  repeat' first | with_reducible assumption | with_reducible apply lsuOp_keeps

theorem execLsuLdfhu_keeps (e : EngId) (n : PairId) (t : Word) (hk : s.keeps kq km)
    (h : execLsuLdfhu e n t s = .next st) : st.keeps kq km := by
  unfold execLsuLdfhu at h
  obtain rfl := Host.Outcome.next.inj h
  clear h
  repeat' first | with_reducible assumption | with_reducible apply lsuOp_keeps

theorem execLsuLdfhs_keeps (e : EngId) (n : PairId) (t : Word) (hk : s.keeps kq km)
    (h : execLsuLdfhs e n t s = .next st) : st.keeps kq km := by
  unfold execLsuLdfhs at h
  obtain rfl := Host.Outcome.next.inj h
  clear h
  repeat' first | with_reducible assumption | with_reducible apply lsuOp_keeps

theorem execLsuLdfw_keeps (e : EngId) (n : PairId) (t : Word) (hk : s.keeps kq km)
    (h : execLsuLdfw e n t s = .next st) : st.keeps kq km := by
  unfold execLsuLdfw at h
  obtain rfl := Host.Outcome.next.inj h
  clear h
  repeat' first | with_reducible assumption | with_reducible apply lsuOp_keeps

theorem execLsuLdfwx_keeps (e : EngId) (n : PairId) (t : Word) (hk : s.keeps kq km)
    (h : execLsuLdfwx e n t s = .next st) : st.keeps kq km := by
  unfold execLsuLdfwx at h
  obtain rfl := Host.Outcome.next.inj h
  clear h
  repeat' first | with_reducible assumption | with_reducible apply lsuOp_keeps

theorem execLsuStfb_keeps (e : EngId) (n : PairId) (t : Word) (hk : s.keeps kq km)
    (h : execLsuStfb e n t s = .next st) : st.keeps kq km := by
  unfold execLsuStfb at h
  obtain rfl := Host.Outcome.next.inj h
  clear h
  repeat' first | with_reducible assumption | with_reducible apply lsuOp_keeps

theorem execLsuStfh_keeps (e : EngId) (n : PairId) (t : Word) (hk : s.keeps kq km)
    (h : execLsuStfh e n t s = .next st) : st.keeps kq km := by
  unfold execLsuStfh at h
  obtain rfl := Host.Outcome.next.inj h
  clear h
  repeat' first | with_reducible assumption | with_reducible apply lsuOp_keeps

theorem execLsuStfw_keeps (e : EngId) (n : PairId) (t : Word) (hk : s.keeps kq km)
    (h : execLsuStfw e n t s = .next st) : st.keeps kq km := by
  unfold execLsuStfw at h
  obtain rfl := Host.Outcome.next.inj h
  clear h
  repeat' first | with_reducible assumption | with_reducible apply lsuOp_keeps

theorem execLsuStfwx_keeps (e : EngId) (n : PairId) (t : Word) (hk : s.keeps kq km)
    (h : execLsuStfwx e n t s = .next st) : st.keeps kq km := by
  unfold execLsuStfwx at h
  obtain rfl := Host.Outcome.next.inj h
  clear h
  repeat' first | with_reducible assumption | with_reducible apply lsuOp_keeps

theorem execLsuFaadd_keeps (e : EngId) (n : PairId) (t : Word) (hk : s.keeps kq km)
    (h : execLsuFaadd e n t s = .next st) : st.keeps kq km := by
  unfold execLsuFaadd at h
  obtain rfl := Host.Outcome.next.inj h
  clear h
  repeat' first | with_reducible assumption | with_reducible apply lsuOp_keeps

theorem execLsuFaswp_keeps (e : EngId) (n : PairId) (t : Word) (hk : s.keeps kq km)
    (h : execLsuFaswp e n t s = .next st) : st.keeps kq km := by
  unfold execLsuFaswp at h
  obtain rfl := Host.Outcome.next.inj h
  clear h
  repeat' first | with_reducible assumption | with_reducible apply lsuOp_keeps

theorem execLocalLoadResult_keeps (e : EngId) (n : PairId) (hk : s.keeps kq km)
    (h : execLocalLoadResult e n s = .next st) : st.keeps kq km := by
  unfold execLocalLoadResult at h
  obtain rfl := Host.Outcome.next.inj h
  clear h
  repeat' first | with_reducible assumption | with_reducible apply localResult_keeps | with_reducible apply keeps_ite | intro _

theorem execFarLoadResult_keeps (e : EngId) (n : PairId) (hk : s.keeps kq km)
    (h : execFarLoadResult e n s = .next st) : st.keeps kq km := by
  unfold execFarLoadResult at h
  obtain rfl := Host.Outcome.next.inj h
  clear h
  repeat' first | with_reducible assumption | with_reducible apply farResult_keeps | with_reducible apply keeps_ite | intro _

theorem execFarStoreCompletion_keeps (e : EngId) (n : PairId) (hk : s.keeps kq km)
    (h : execFarStoreCompletion e n s = .next st) : st.keeps kq km := by
  unfold execFarStoreCompletion at h
  obtain rfl := Host.Outcome.next.inj h
  clear h
  repeat' first
    | with_reducible assumption
    | with_reducible apply farStoreDone_keeps
    | with_reducible apply keeps_ite
    | intro _

theorem execBmuCpy_keeps (e : EngId) (t : Word) (hk : s.keeps kq km)
    (h : execBmuCpy e t s = .next st) : st.keeps kq km := by
  unfold execBmuCpy at h
  obtain rfl := Host.Outcome.next.inj h
  clear h
  repeat' first | with_reducible assumption | with_reducible apply bmuOp_keeps

theorem execBmuCpyf_keeps (e : EngId) (t : Word) (hk : s.keeps kq km)
    (h : execBmuCpyf e t s = .next st) : st.keeps kq km := by
  unfold execBmuCpyf at h
  obtain rfl := Host.Outcome.next.inj h
  clear h
  repeat' first | with_reducible assumption | with_reducible apply bmuOp_keeps

theorem execBmuFill_keeps (e : EngId) (t : Word) (hk : s.keeps kq km)
    (h : execBmuFill e t s = .next st) : st.keeps kq km := by
  unfold execBmuFill at h
  obtain rfl := Host.Outcome.next.inj h
  clear h
  repeat' first | with_reducible assumption | with_reducible apply bmuOp_keeps

theorem execBmuScan_keeps (e : EngId) (t : Word) (hk : s.keeps kq km)
    (h : execBmuScan e t s = .next st) : st.keeps kq km := by
  unfold execBmuScan at h
  obtain rfl := Host.Outcome.next.inj h
  clear h
  repeat' first | with_reducible assumption | with_reducible apply bmuOp_keeps

theorem execBmuScann_keeps (e : EngId) (t : Word) (hk : s.keeps kq km)
    (h : execBmuScann e t s = .next st) : st.keeps kq km := by
  unfold execBmuScann at h
  obtain rfl := Host.Outcome.next.inj h
  clear h
  repeat' first | with_reducible assumption | with_reducible apply bmuOp_keeps

theorem execBmuCmp_keeps (e : EngId) (t : Word) (hk : s.keeps kq km)
    (h : execBmuCmp e t s = .next st) : st.keeps kq km := by
  unfold execBmuCmp at h
  obtain rfl := Host.Outcome.next.inj h
  clear h
  repeat' first | with_reducible assumption | with_reducible apply bmuOp_keeps

theorem execBmuStop_keeps (e : EngId) (t : Word) (hk : s.keeps kq km)
    (h : execBmuStop e t s = .next st) : st.keeps kq km := by
  unfold execBmuStop at h
  obtain rfl := Host.Outcome.next.inj h
  clear h
  repeat' first | with_reducible assumption | with_reducible apply bmuOp_keeps

theorem execEdgePlace_keeps (p : PinId) (hk : s.keeps kq km)
    (h : execEdgePlace p s = .next st) : st.keeps kq km := by
  unfold execEdgePlace at h
  obtain rfl := Host.Outcome.next.inj h
  clear h
  repeat' first | with_reducible assumption | with_reducible apply edgePlace_keeps

theorem execGroupSafeRelease_keeps (g : GroupId) (hk : s.keeps kq km)
    (h : execGroupSafeRelease g s = .next st) : st.keeps kq km := by
  unfold execGroupSafeRelease at h
  obtain rfl := Host.Outcome.next.inj h
  clear h
  repeat' first | with_reducible assumption | with_reducible apply clrReg_keeps

theorem execGroupHoldRelease_keeps (g : GroupId) (hk : s.keeps kq km)
    (h : execGroupHoldRelease g s = .next st) : st.keeps kq km := by
  unfold execGroupHoldRelease at h
  obtain rfl := Host.Outcome.next.inj h
  clear h
  repeat' first | with_reducible assumption | with_reducible apply clrReg_keeps

theorem execReadbackMismatch_keeps (found : PinMismatch) (hk : s.keeps kq km)
    (h : execReadbackMismatch found s = .next st) : st.keeps kq km := by
  unfold execReadbackMismatch at h
  obtain rfl := Host.Outcome.next.inj h
  clear h
  repeat' first | with_reducible assumption | with_reducible apply rbError_keeps | with_reducible apply keeps_ite | intro _

theorem execReadbackRelease_keeps (p : PinId) (hk : s.keeps kq km)
    (h : execReadbackRelease p s = .next st) : st.keeps kq km := by
  unfold execReadbackRelease at h
  obtain rfl := Host.Outcome.next.inj h
  clear h
  repeat' first | with_reducible assumption | with_reducible apply rbRelease_keeps

theorem execAlmInjRb_keeps (p : PinId) (hk : s.keeps kq km)
    (h : execAlmInjRb p s = .next st) : st.keeps kq km := by
  unfold execAlmInjRb at h
  obtain rfl := Host.Outcome.next.inj h
  clear h
  repeat' first | with_reducible assumption | with_reducible apply modPin_keeps

theorem execTimeBaseRead_keeps  (hk : s.keeps kq km)
    (h : execTimeBaseRead s = .next st) : st.keeps kq km := by
  unfold execTimeBaseRead at h
  obtain rfl := Host.Outcome.next.inj h
  clear h
  repeat' first
    | with_reducible assumption
    | with_reducible apply tbRead_keeps
    | with_reducible apply keeps_ite
    | intro _
    | split
    | with_reducible refine snd_keeps (by assumption) ?_
    | dsimp only
    | with_reducible apply keeps_mk

theorem execTbCompareArm_keeps (hi : Word) (hk : s.keeps kq km)
    (h : execTbCompareArm hi s = .next st) : st.keeps kq km := by
  unfold execTbCompareArm at h
  obtain rfl := Host.Outcome.next.inj h
  clear h
  repeat' first
    | with_reducible assumption
    | with_reducible apply setReg_keeps
    | with_reducible apply keeps_ite
    | intro _
    | split
    | dsimp only
    | with_reducible apply keeps_mk

theorem execTbCompare_keeps  (hk : s.keeps kq km)
    (h : execTbCompare s = .next st) : st.keeps kq km := by
  unfold execTbCompare at h
  obtain rfl := Host.Outcome.next.inj h
  clear h
  repeat' first
    | with_reducible assumption
    | with_reducible apply orReg_keeps
    | with_reducible apply keeps_ite
    | intro _
    | split
    | dsimp only
    | with_reducible apply keeps_mk

theorem execWcTick_keeps (m : WcId) (hk : s.keeps kq km)
    (h : execWcTick m s = .next st) : st.keeps kq km := by
  unfold execWcTick at h
  obtain rfl := Host.Outcome.next.inj h
  clear h
  repeat' first | with_reducible assumption | with_reducible apply wcTick_keeps | with_reducible apply keeps_ite | intro _

theorem execLinkTargetAction_keeps (m : WcId) (hk : s.keeps kq km)
    (h : execLinkTargetAction m s = .next st) : st.keeps kq km := by
  unfold execLinkTargetAction at h
  obtain rfl := Host.Outcome.next.inj h
  clear h
  repeat' first
    | with_reducible assumption
    | with_reducible apply modWc_keeps
    | with_reducible apply forAll_keeps
    | with_reducible apply wcByEvent_keeps
    | with_reducible apply keeps_ite
    | intro _

theorem execWcStart_keeps (m : WcId) (hk : s.keeps kq km)
    (h : execWcStart m s = .next st) : st.keeps kq km := by
  unfold execWcStart at h
  obtain rfl := Host.Outcome.next.inj h
  clear h
  repeat' first | with_reducible assumption | with_reducible apply wcByWrite_keeps

theorem execWcStop_keeps (m : WcId) (hk : s.keeps kq km)
    (h : execWcStop m s = .next st) : st.keeps kq km := by
  unfold execWcStop at h
  obtain rfl := Host.Outcome.next.inj h
  clear h
  repeat' first | with_reducible assumption | with_reducible apply wcByWrite_keeps

theorem execWcReset_keeps (m : WcId) (hk : s.keeps kq km)
    (h : execWcReset m s = .next st) : st.keeps kq km := by
  unfold execWcReset at h
  obtain rfl := Host.Outcome.next.inj h
  clear h
  repeat' first | with_reducible assumption | with_reducible apply reset_keeps | with_reducible apply wcByWrite_keeps

theorem execWcArm_keeps (m : WcId) (hk : s.keeps kq km)
    (h : execWcArm m s = .next st) : st.keeps kq km := by
  unfold execWcArm at h
  obtain rfl := Host.Outcome.next.inj h
  clear h
  repeat' first | with_reducible assumption | with_reducible apply wcArmDo_keeps

theorem execWcCancel_keeps (m : WcId) (hk : s.keeps kq km)
    (h : execWcCancel m s = .next st) : st.keeps kq km := by
  unfold execWcCancel at h
  obtain rfl := Host.Outcome.next.inj h
  clear h
  repeat' first | with_reducible assumption | with_reducible apply clrReg_keeps

theorem execTmrGstart_keeps (mask : Word) (hk : s.keeps kq km)
    (h : execTmrGstart mask s = .next st) : st.keeps kq km := by
  unfold execTmrGstart at h
  obtain rfl := Host.Outcome.next.inj h
  clear h
  repeat' first | with_reducible assumption | with_reducible apply wcMask_keeps

theorem execTmrGstop_keeps (mask : Word) (hk : s.keeps kq km)
    (h : execTmrGstop mask s = .next st) : st.keeps kq km := by
  unfold execTmrGstop at h
  obtain rfl := Host.Outcome.next.inj h
  clear h
  repeat' first | with_reducible assumption | with_reducible apply wcMask_keeps

theorem execTmrGreset_keeps (mask : Word) (hk : s.keeps kq km)
    (h : execTmrGreset mask s = .next st) : st.keeps kq km := by
  unfold execTmrGreset at h
  obtain rfl := Host.Outcome.next.inj h
  clear h
  repeat' first | with_reducible assumption | with_reducible apply reset_keeps | with_reducible apply wcMask_keeps

theorem execArmedStart_keeps (m : WcId) (hk : s.keeps kq km)
    (h : execArmedStart m s = .next st) : st.keeps kq km := by
  unfold execArmedStart at h
  obtain rfl := Host.Outcome.next.inj h
  clear h
  repeat' first
    | with_reducible assumption
    | with_reducible apply clrReg_keeps
    | with_reducible apply wcByEvent_keeps
    | with_reducible apply start_keeps
    | with_reducible apply keeps_ite
    | intro _

theorem execPeriodWrite_keeps (m : WcId) (value : Word) (hk : s.keeps kq km)
    (h : execPeriodWrite m value s = .next st) : st.keeps kq km := by
  unfold execPeriodWrite at h
  obtain rfl := Host.Outcome.next.inj h
  clear h
  repeat' first | with_reducible assumption | with_reducible apply wcPeriod_keeps

theorem execCompareWrite_keeps (m : WcId) (k : ChId) (value : Word) (hk : s.keeps kq km)
    (h : execCompareWrite m k value s = .next st) : st.keeps kq km := by
  unfold execCompareWrite at h
  obtain rfl := Host.Outcome.next.inj h
  clear h
  repeat' first | with_reducible assumption | with_reducible apply wcCompare_keeps

theorem execLinkTargetWrite_keeps (m : WcId) (value : Word) (hk : s.keeps kq km)
    (h : execLinkTargetWrite m value s = .next st) : st.keeps kq km := by
  unfold execLinkTargetWrite at h
  obtain rfl := Host.Outcome.next.inj h
  clear h
  repeat' first | with_reducible assumption | with_reducible apply wcLinkWrite_keeps

theorem execWcCountRead_keeps (m : WcId) (hk : s.keeps kq km)
    (h : execWcCountRead m s = .next st) : st.keeps kq km := by
  unfold execWcCountRead at h
  obtain rfl := Host.Outcome.next.inj h
  clear h
  repeat' first
    | with_reducible assumption
    | with_reducible apply wcRead_keeps
    | with_reducible apply keeps_ite
    | intro _
    | split
    | with_reducible refine snd_keeps (by assumption) ?_
    | dsimp only
    | with_reducible apply keeps_mk

theorem execCaptureEdge_keeps (n : WcId) (rising : Bool) (edge : RawEdge) (hk : s.keeps kq km)
    (h : execCaptureEdge n rising edge s = .next st) : st.keeps kq km := by
  unfold execCaptureEdge at h
  obtain rfl := Host.Outcome.next.inj h
  clear h
  repeat' first | with_reducible assumption | with_reducible apply capEdge_keeps | with_reducible apply keeps_ite | intro _

theorem execCaptureRead_keeps (n : WcId) (falling : Bool) (hk : s.keeps kq km)
    (h : execCaptureRead n falling s = .next st) : st.keeps kq km := by
  unfold execCaptureRead at h
  obtain rfl := Host.Outcome.next.inj h
  clear h
  repeat' first
    | with_reducible assumption
    | with_reducible apply capRead_keeps
    | with_reducible apply keeps_ite
    | intro _
    | split
    | with_reducible refine snd_keeps (by assumption) ?_
    | dsimp only
    | with_reducible apply keeps_mk

theorem execQuadratureTransition_keeps (b : BaseId) (ev : QuadEdge) (hk : s.keeps kq km)
    (h : execQuadratureTransition b ev s = .next st) : st.keeps kq km := by
  unfold execQuadratureTransition at h
  obtain rfl := Host.Outcome.next.inj h
  clear h
  repeat' first | with_reducible assumption | with_reducible apply edgeIn_keeps

theorem execTimedT0Edge_keeps (b : BaseId) (edge : RawEdge) (t1 : Bool) (hk : s.keeps kq km)
    (h : execTimedT0Edge b edge t1 s = .next st) : st.keeps kq km := by
  unfold execTimedT0Edge at h
  obtain rfl := Host.Outcome.next.inj h
  clear h
  repeat' first | with_reducible assumption | with_reducible apply edgeIn_keeps | with_reducible apply keeps_ite | intro _

theorem execTimedT1Edge_keeps (change : T1Edge) (hk : s.keeps kq km)
    (h : execTimedT1Edge change s = .next st) : st.keeps kq km := by
  unfold execTimedT1Edge at h
  obtain rfl := Host.Outcome.next.inj h
  clear h
  repeat' first | with_reducible assumption | with_reducible apply edgeIn_keeps | with_reducible apply keeps_ite | intro _

theorem execSsiFrame_keeps (b : BaseId) (hk : s.keeps kq km)
    (h : execSsiFrame b s = .next st) : st.keeps kq km := by
  unfold execSsiFrame at h
  obtain rfl := Host.Outcome.next.inj h
  clear h
  repeat' first | with_reducible assumption | with_reducible apply ssiStart_keeps

theorem execSsiSample_keeps (b : BaseId) (raw : SsiWord) (hk : s.keeps kq km)
    (h : execSsiSample b raw s = .next st) : st.keeps kq km := by
  unfold execSsiSample at h
  obtain rfl := Host.Outcome.next.inj h
  clear h
  repeat' first | with_reducible assumption | with_reducible apply ssiSample_keeps

theorem execMainsCrossing_keeps (b : BaseId) (rising : Bool) (edge : RawEdge) (hk : s.keeps kq km)
    (h : execMainsCrossing b rising edge s = .next st) : st.keeps kq km := by
  unfold execMainsCrossing at h
  obtain rfl := Host.Outcome.next.inj h
  clear h
  repeat' first | with_reducible assumption | with_reducible apply edgeIn_keeps | with_reducible apply keeps_ite | intro _

theorem execMainsCrossingTimeout_keeps (b : BaseId) (hk : s.keeps kq km)
    (h : execMainsCrossingTimeout b s = .next st) : st.keeps kq km := by
  unfold execMainsCrossingTimeout at h
  obtain rfl := Host.Outcome.next.inj h
  clear h
  repeat' first | with_reducible assumption | with_reducible apply mainsTimeout_keeps

theorem execVelocityUpdate_keeps (b : BaseId) (hk : s.keeps kq km)
    (h : execVelocityUpdate b s = .next st) : st.keeps kq km := by
  unfold execVelocityUpdate at h
  obtain rfl := Host.Outcome.next.inj h
  clear h
  repeat' first
    | with_reducible assumption
    | with_reducible apply modBase_keeps
    | with_reducible apply keeps_ite
    | intro _
    | split

theorem execSilenceTimeout_keeps (b : BaseId) (hk : s.keeps kq km)
    (h : execSilenceTimeout b s = .next st) : st.keeps kq km := by
  unfold execSilenceTimeout at h
  obtain rfl := Host.Outcome.next.inj h
  clear h
  repeat' first | with_reducible assumption | with_reducible apply silence_keeps

theorem execAbApply_keeps (b : BaseId) (hk : s.keeps kq km)
    (h : execAbApply b s = .next st) : st.keeps kq km := by
  unfold execAbApply at h
  obtain rfl := Host.Outcome.next.inj h
  clear h
  repeat' first | with_reducible assumption | with_reducible apply stagedArm_keeps

theorem execAbCancel_keeps (b : BaseId) (hk : s.keeps kq km)
    (h : execAbCancel b s = .next st) : st.keeps kq km := by
  unfold execAbCancel at h
  obtain rfl := Host.Outcome.next.inj h
  clear h
  repeat' first | with_reducible assumption | with_reducible apply clrReg_keeps

theorem execStagedChangeApply_keeps (b : BaseId) (hk : s.keeps kq km)
    (h : execStagedChangeApply b s = .next st) : st.keeps kq km := by
  unfold execStagedChangeApply at h
  obtain rfl := Host.Outcome.next.inj h
  clear h
  repeat' first | with_reducible assumption | with_reducible apply stagedApply_keeps

theorem execBaseEnable_keeps (b : BaseId) (hk : s.keeps kq km)
    (h : execBaseEnable b s = .next st) : st.keeps kq km := by
  unfold execBaseEnable at h
  obtain rfl := Host.Outcome.next.inj h
  clear h
  repeat' first | with_reducible assumption | with_reducible apply baseEnable_keeps

theorem execBaseDisable_keeps (b : BaseId) (hk : s.keeps kq km)
    (h : execBaseDisable b s = .next st) : st.keeps kq km := by
  unfold execBaseDisable at h
  obtain rfl := Host.Outcome.next.inj h
  clear h
  repeat' first | with_reducible assumption | with_reducible apply baseDisable_keeps

theorem execAngleLockstepMismatch_keeps (b : BaseId) (hk : s.keeps kq km)
    (h : execAngleLockstepMismatch b s = .next st) : st.keeps kq km := by
  unfold execAngleLockstepMismatch at h
  obtain rfl := Host.Outcome.next.inj h
  clear h
  repeat' first | with_reducible assumption | with_reducible apply baseLockstep_keeps

theorem execAngInjSsirej_keeps (b : BaseId) (hk : s.keeps kq km)
    (h : execAngInjSsirej b s = .next st) : st.keeps kq km := by
  unfold execAngInjSsirej at h
  obtain rfl := Host.Outcome.next.inj h
  clear h
  repeat' first | with_reducible assumption | with_reducible apply modBase_keeps

theorem execAngInjIll_keeps (b : BaseId) (hk : s.keeps kq km)
    (h : execAngInjIll b s = .next st) : st.keeps kq km := by
  unfold execAngInjIll at h
  obtain rfl := Host.Outcome.next.inj h
  clear h
  repeat' first | with_reducible assumption | with_reducible apply modBase_keeps

theorem execAngInjLs_keeps (b : BaseId) (hk : s.keeps kq km)
    (h : execAngInjLs b s = .next st) : st.keeps kq km := by
  unfold execAngInjLs at h
  obtain rfl := Host.Outcome.next.inj h
  clear h
  repeat' first | with_reducible assumption | with_reducible apply modBase_keeps

theorem execPhaseRead_keeps (b : BaseId) (which : PhaseReg) (hk : s.keeps kq km)
    (h : execPhaseRead b which s = .next st) : st.keeps kq km := by
  unfold execPhaseRead at h
  obtain rfl := Host.Outcome.next.inj h
  clear h
  repeat' first
    | with_reducible assumption
    | with_reducible apply phaseRead_keeps
    | with_reducible apply keeps_ite
    | intro _
    | split
    | with_reducible refine snd_keeps (by assumption) ?_
    | dsimp only
    | with_reducible apply keeps_mk

theorem execTbSyncTimeout_keeps  (hk : s.keeps kq km)
    (h : execTbSyncTimeout s = .next st) : st.keeps kq km := by
  unfold execTbSyncTimeout at h
  obtain rfl := Host.Outcome.next.inj h
  clear h
  repeat' first
    | with_reducible assumption
    | with_reducible apply orReg_keeps
    | with_reducible apply clrReg_keeps
    | with_reducible apply almSeesAll_keeps
    | with_reducible apply keeps_ite
    | intro _
    | split
    | dsimp only
    | with_reducible apply keeps_mk

theorem execVirtualMasterAccumulation_keeps (b : BaseId) (hk : s.keeps kq km)
    (h : execVirtualMasterAccumulation b s = .next st) : st.keeps kq km := by
  unfold execVirtualMasterAccumulation at h
  obtain rfl := Host.Outcome.next.inj h
  clear h
  repeat' first | with_reducible assumption | with_reducible apply vmAccumulate_keeps

theorem execApuPhs_keeps (e : EngId) (t : Word) (hk : s.keeps kq km)
    (h : execApuPhs e t s = .next st) : st.keeps kq km := by
  unfold execApuPhs at h
  obtain rfl := Host.Outcome.next.inj h
  clear h
  repeat' first | with_reducible assumption | with_reducible apply apuOp_keeps

theorem execApuVel_keeps (e : EngId) (t : Word) (hk : s.keeps kq km)
    (h : execApuVel e t s = .next st) : st.keeps kq km := by
  unfold execApuVel at h
  obtain rfl := Host.Outcome.next.inj h
  clear h
  repeat' first | with_reducible assumption | with_reducible apply apuOp_keeps

theorem execApuEdge_keeps (e : EngId) (t : Word) (hk : s.keeps kq km)
    (h : execApuEdge e t s = .next st) : st.keeps kq km := by
  unfold execApuEdge at h
  obtain rfl := Host.Outcome.next.inj h
  clear h
  repeat' first | with_reducible assumption | with_reducible apply apuOp_keeps

theorem execApuTb_keeps (e : EngId) (t : Word) (hk : s.keeps kq km)
    (h : execApuTb e t s = .next st) : st.keeps kq km := by
  unfold execApuTb at h
  obtain rfl := Host.Outcome.next.inj h
  clear h
  repeat' first | with_reducible assumption | with_reducible apply apuOp_keeps

theorem execApuWph_keeps (e : EngId) (t : Word) (hk : s.keeps kq km)
    (h : execApuWph e t s = .next st) : st.keeps kq km := by
  unfold execApuWph at h
  obtain rfl := Host.Outcome.next.inj h
  clear h
  repeat' first | with_reducible assumption | with_reducible apply apuOp_keeps

theorem execApuWtb_keeps (e : EngId) (t : Word) (hk : s.keeps kq km)
    (h : execApuWtb e t s = .next st) : st.keeps kq km := by
  unfold execApuWtb at h
  obtain rfl := Host.Outcome.next.inj h
  clear h
  repeat' first | with_reducible assumption | with_reducible apply apuOp_keeps

theorem execApuWaitComplete_keeps (e : EngId) (hk : s.keeps kq km)
    (h : execApuWaitComplete e s = .next st) : st.keeps kq km := by
  unfold execApuWaitComplete at h
  obtain rfl := Host.Outcome.next.inj h
  clear h
  repeat' first | with_reducible assumption | with_reducible apply apuComplete_keeps | with_reducible apply keeps_ite | intro _

theorem execXioSend_keeps (e : EngId) (t : Word) (hk : s.keeps kq km)
    (h : execXioSend e t s = .next st) : st.keeps kq km := by
  unfold execXioSend at h
  obtain rfl := Host.Outcome.next.inj h
  clear h
  repeat' first | with_reducible assumption | with_reducible apply xioOp_keeps

theorem execXioAlw_keeps (e : EngId) (t : Word) (hk : s.keeps kq km)
    (h : execXioAlw e t s = .next st) : st.keeps kq km := by
  unfold execXioAlw at h
  obtain rfl := Host.Outcome.next.inj h
  clear h
  repeat' first | with_reducible assumption | with_reducible apply xioOp_keeps

theorem execXioPop_keeps (e : EngId) (x1 : Word) (hk : s.keeps kq km)
    (h : execXioPop e x1 s = .next st) : st.keeps kq km := by
  unfold execXioPop at h
  obtain rfl := Host.Outcome.next.inj h
  clear h
  repeat' first
    | with_reducible assumption
    | with_reducible apply meetSpar_keeps
    | with_reducible apply xioPop_keeps
    | with_reducible apply keeps_ite
    | intro _

theorem execCtlJmp_keeps (e : EngId) (t : Word) (hk : s.keeps kq km)
    (h : execCtlJmp e t s = .next st) : st.keeps kq km := by
  unfold execCtlJmp at h
  obtain rfl := Host.Outcome.next.inj h
  clear h
  repeat' first | with_reducible assumption | with_reducible apply ctlOp_keeps

theorem execCtlJr_keeps (e : EngId) (t : Word) (hk : s.keeps kq km)
    (h : execCtlJr e t s = .next st) : st.keeps kq km := by
  unfold execCtlJr at h
  obtain rfl := Host.Outcome.next.inj h
  clear h
  repeat' first | with_reducible assumption | with_reducible apply ctlOp_keeps

theorem execCtlCall_keeps (e : EngId) (t : Word) (hk : s.keeps kq km)
    (h : execCtlCall e t s = .next st) : st.keeps kq km := by
  unfold execCtlCall at h
  obtain rfl := Host.Outcome.next.inj h
  clear h
  repeat' first | with_reducible assumption | with_reducible apply ctlOp_keeps

theorem execCtlRet_keeps (e : EngId) (t : Word) (hk : s.keeps kq km)
    (h : execCtlRet e t s = .next st) : st.keeps kq km := by
  unfold execCtlRet at h
  obtain rfl := Host.Outcome.next.inj h
  clear h
  repeat' first | with_reducible assumption | with_reducible apply ctlOp_keeps

theorem execCtlRep_keeps (e : EngId) (t : Word) (hk : s.keeps kq km)
    (h : execCtlRep e t s = .next st) : st.keeps kq km := by
  unfold execCtlRep at h
  obtain rfl := Host.Outcome.next.inj h
  clear h
  repeat' first | with_reducible assumption | with_reducible apply ctlOp_keeps

theorem execCtlLp0_keeps (e : EngId) (t : Word) (hk : s.keeps kq km)
    (h : execCtlLp0 e t s = .next st) : st.keeps kq km := by
  unfold execCtlLp0 at h
  obtain rfl := Host.Outcome.next.inj h
  clear h
  repeat' first | with_reducible assumption | with_reducible apply ctlOp_keeps

theorem execCtlLp1_keeps (e : EngId) (t : Word) (hk : s.keeps kq km)
    (h : execCtlLp1 e t s = .next st) : st.keeps kq km := by
  unfold execCtlLp1 at h
  obtain rfl := Host.Outcome.next.inj h
  clear h
  repeat' first | with_reducible assumption | with_reducible apply ctlOp_keeps

theorem execCtlSync_keeps (e : EngId) (t : Word) (hk : s.keeps kq km)
    (h : execCtlSync e t s = .next st) : st.keeps kq km := by
  unfold execCtlSync at h
  obtain rfl := Host.Outcome.next.inj h
  clear h
  repeat' first | with_reducible assumption | with_reducible apply ctlOp_keeps

theorem execCtlTrap_keeps (e : EngId) (t : Word) (hk : s.keeps kq km)
    (h : execCtlTrap e t s = .next st) : st.keeps kq km := by
  unfold execCtlTrap at h
  obtain rfl := Host.Outcome.next.inj h
  clear h
  repeat' first | with_reducible assumption | with_reducible apply ctlOp_keeps

theorem execFrameRequestArrival_keeps (e : EngId) (hk : s.keeps kq km)
    (h : execFrameRequestArrival e s = .next st) : st.keeps kq km := by
  unfold execFrameRequestArrival at h
  obtain rfl := Host.Outcome.next.inj h
  clear h
  repeat' first | with_reducible assumption | with_reducible apply frameArrival_keeps

theorem execFrameStart_keeps (e : EngId) (hk : s.keeps kq km)
    (h : execFrameStart e s = .next st) : st.keeps kq km := by
  unfold execFrameStart at h
  obtain rfl := Host.Outcome.next.inj h
  clear h
  repeat' first | with_reducible assumption | with_reducible apply frameStart_keeps | with_reducible apply keeps_ite | intro _

theorem execBudgetMiss_keeps (e : EngId) (hk : s.keeps kq km)
    (h : execBudgetMiss e s = .next st) : st.keeps kq km := by
  unfold execBudgetMiss at h
  obtain rfl := Host.Outcome.next.inj h
  clear h
  repeat' first | with_reducible assumption | with_reducible apply budgetMiss_keeps

theorem execPhaseMiss_keeps (e : EngId) (hk : s.keeps kq km)
    (h : execPhaseMiss e s = .next st) : st.keeps kq km := by
  unfold execPhaseMiss at h
  obtain rfl := Host.Outcome.next.inj h
  clear h
  repeat' first | with_reducible assumption | with_reducible apply missFirst_keeps

theorem execGustOverrun_keeps (e : EngId) (hk : s.keeps kq km)
    (h : execGustOverrun e s = .next st) : st.keeps kq km := by
  unfold execGustOverrun at h
  obtain rfl := Host.Outcome.next.inj h
  clear h
  repeat' first | with_reducible assumption | with_reducible apply gustOverrun_keeps

theorem execAlmInjGusto_keeps (e : EngId) (hk : s.keeps kq km)
    (h : execAlmInjGusto e s = .next st) : st.keeps kq km := by
  unfold execAlmInjGusto at h
  obtain rfl := Host.Outcome.next.inj h
  clear h
  repeat' first | with_reducible assumption | with_reducible apply setFrames_keeps | with_reducible apply keeps_ite | intro _

theorem execAlmInjDlm_keeps (e : EngId) (hk : s.keeps kq km)
    (h : execAlmInjDlm e s = .next st) : st.keeps kq km := by
  unfold execAlmInjDlm at h
  obtain rfl := Host.Outcome.next.inj h
  clear h
  repeat' first | with_reducible assumption | with_reducible apply setFrames_keeps | with_reducible apply keeps_ite | intro _

theorem execExceptionEntry_keeps (e : EngId) (hk : s.keeps kq km)
    (h : execExceptionEntry e s = .next st) : st.keeps kq km := by
  unfold execExceptionEntry at h
  obtain rfl := Host.Outcome.next.inj h
  clear h
  repeat' first | with_reducible assumption | with_reducible apply entry_keeps

theorem execCtlEret_keeps (e : EngId) (x1 : Word) (hk : s.keeps kq km)
    (h : execCtlEret e x1 s = .next st) : st.keeps kq km := by
  unfold execCtlEret at h
  obtain rfl := Host.Outcome.next.inj h
  clear h
  repeat' first | with_reducible assumption | with_reducible apply eretOp_keeps

theorem execSyncComplete_keeps (e : EngId) (hk : s.keeps kq km)
    (h : execSyncComplete e s = .next st) : st.keeps kq km := by
  unfold execSyncComplete at h
  obtain rfl := Host.Outcome.next.inj h
  clear h
  repeat' first | with_reducible assumption | with_reducible apply syncComplete_keeps

theorem execVectorPrefetch_keeps (e : EngId) (hk : s.keeps kq km)
    (h : execVectorPrefetch e s = .next st) : st.keeps kq km := by
  unfold execVectorPrefetch at h
  obtain rfl := Host.Outcome.next.inj h
  clear h
  repeat' first | with_reducible assumption | with_reducible apply prefetchVector_keeps

theorem execLineFetchRequest_keeps (e : EngId) (hk : s.keeps kq km)
    (h : execLineFetchRequest e s = .next st) : st.keeps kq km := by
  unfold execLineFetchRequest at h
  obtain rfl := Host.Outcome.next.inj h
  clear h
  repeat' first | with_reducible assumption | with_reducible apply fetchLine_keeps

theorem execStoreDrain_keeps (e : EngId) (hk : s.keeps kq km)
    (h : execStoreDrain e s = .next st) : st.keeps kq km := by
  unfold execStoreDrain at h
  obtain rfl := Host.Outcome.next.inj h
  clear h
  repeat' first | with_reducible assumption | with_reducible apply storeDrain_keeps

theorem execBmuElementAccess_keeps (e : EngId) (hk : s.keeps kq km)
    (h : execBmuElementAccess e s = .next st) : st.keeps kq km := by
  unfold execBmuElementAccess at h
  obtain rfl := Host.Outcome.next.inj h
  clear h
  repeat' first | with_reducible assumption | with_reducible apply bmuElement_keeps | with_reducible apply keeps_ite | intro _

theorem execLineArrival_keeps (e : EngId) (hk : s.keeps kq km)
    (h : execLineArrival e s = .next st) : st.keeps kq km := by
  unfold execLineArrival at h
  obtain rfl := Host.Outcome.next.inj h
  clear h
  repeat' first | with_reducible assumption | with_reducible apply modEng_keeps | with_reducible apply keeps_ite | intro _

theorem execXioFend_keeps (e : EngId) (x1 : Word) (hk : s.keeps kq km)
    (h : execXioFend e x1 s = .next st) : st.keeps kq km := by
  unfold execXioFend at h
  obtain rfl := Host.Outcome.next.inj h
  clear h
  repeat' first | with_reducible assumption | with_reducible apply fendOp_keeps

theorem execXioMcall_keeps (e : EngId) (t : Word) (hk : s.keeps kq km)
    (h : execXioMcall e t s = .next st) : st.keeps kq km := by
  unfold execXioMcall at h
  obtain rfl := Host.Outcome.next.inj h
  clear h
  repeat' first | with_reducible assumption | with_reducible apply mcallOp_keeps

theorem execTeEmuinjMiss_keeps (e : EngId) (hk : s.keeps kq km)
    (h : execTeEmuinjMiss e s = .next st) : st.keeps kq km := by
  unfold execTeEmuinjMiss at h
  obtain rfl := Host.Outcome.next.inj h
  clear h
  repeat' first | with_reducible assumption | with_reducible apply modEng_keeps | with_reducible apply keeps_ite | intro _

theorem execTeEmuinjIpc_keeps (e : EngId) (hk : s.keeps kq km)
    (h : execTeEmuinjIpc e s = .next st) : st.keeps kq km := by
  unfold execTeEmuinjIpc at h
  obtain rfl := Host.Outcome.next.inj h
  clear h
  repeat' first | with_reducible assumption | with_reducible apply modEng_keeps | with_reducible apply keeps_ite | intro _

theorem execIssueGroup_keeps (e : EngId) (hk : s.keeps kq km)
    (h : execIssueGroup e s = .next st) : st.keeps kq km := by
  unfold execIssueGroup at h
  obtain rfl := Host.Outcome.next.inj h
  clear h
  repeat' first | with_reducible assumption | with_reducible apply issueGroup_keeps

theorem execMuNop_keeps (e : EngId) (stall : Stall) (hk : s.keeps kq km)
    (h : execMuNop e stall s = .next st) : st.keeps kq km := by
  unfold execMuNop at h
  obtain rfl := Host.Outcome.next.inj h
  clear h
  repeat' first
    | with_reducible assumption
    | with_reducible apply micro_keeps
    | with_reducible apply keeps_ite
    | intro _
    | split
    | with_reducible apply microMove_keeps

theorem execMuMov_keeps (e : EngId) (stall : Stall) (hk : s.keeps kq km)
    (h : execMuMov e stall s = .next st) : st.keeps kq km := by
  unfold execMuMov at h
  obtain rfl := Host.Outcome.next.inj h
  clear h
  repeat' first
    | with_reducible assumption
    | with_reducible apply setMreg_keeps
    | with_reducible apply micro_keeps
    | with_reducible apply keeps_ite
    | intro _
    | split
    | with_reducible apply microMove_keeps

theorem execMuLdi_keeps (e : EngId) (stall : Stall) (hk : s.keeps kq km)
    (h : execMuLdi e stall s = .next st) : st.keeps kq km := by
  unfold execMuLdi at h
  obtain rfl := Host.Outcome.next.inj h
  clear h
  repeat' first
    | with_reducible assumption
    | with_reducible apply setMreg_keeps
    | with_reducible apply micro_keeps
    | with_reducible apply keeps_ite
    | intro _
    | split
    | with_reducible apply microMove_keeps

theorem execMuAdd_keeps (e : EngId) (stall : Stall) (hk : s.keeps kq km)
    (h : execMuAdd e stall s = .next st) : st.keeps kq km := by
  unfold execMuAdd at h
  obtain rfl := Host.Outcome.next.inj h
  clear h
  repeat' first
    | with_reducible assumption
    | with_reducible apply micro_keeps
    | with_reducible apply keeps_ite
    | intro _
    | split
    | with_reducible apply microArith_keeps

theorem execMuAdc_keeps (e : EngId) (stall : Stall) (hk : s.keeps kq km)
    (h : execMuAdc e stall s = .next st) : st.keeps kq km := by
  unfold execMuAdc at h
  obtain rfl := Host.Outcome.next.inj h
  clear h
  repeat' first
    | with_reducible assumption
    | with_reducible apply micro_keeps
    | with_reducible apply keeps_ite
    | intro _
    | split
    | with_reducible apply microArith_keeps

theorem execMuSub_keeps (e : EngId) (stall : Stall) (hk : s.keeps kq km)
    (h : execMuSub e stall s = .next st) : st.keeps kq km := by
  unfold execMuSub at h
  obtain rfl := Host.Outcome.next.inj h
  clear h
  repeat' first
    | with_reducible assumption
    | with_reducible apply micro_keeps
    | with_reducible apply keeps_ite
    | intro _
    | split
    | with_reducible apply microArith_keeps

theorem execMuSbc_keeps (e : EngId) (stall : Stall) (hk : s.keeps kq km)
    (h : execMuSbc e stall s = .next st) : st.keeps kq km := by
  unfold execMuSbc at h
  obtain rfl := Host.Outcome.next.inj h
  clear h
  repeat' first
    | with_reducible assumption
    | with_reducible apply micro_keeps
    | with_reducible apply keeps_ite
    | intro _
    | split
    | with_reducible apply microArith_keeps

theorem execMuAnd_keeps (e : EngId) (stall : Stall) (hk : s.keeps kq km)
    (h : execMuAnd e stall s = .next st) : st.keeps kq km := by
  unfold execMuAnd at h
  obtain rfl := Host.Outcome.next.inj h
  clear h
  repeat' first
    | with_reducible assumption
    | with_reducible apply micro_keeps
    | with_reducible apply keeps_ite
    | intro _
    | split
    | with_reducible apply microArith_keeps

theorem execMuOr_keeps (e : EngId) (stall : Stall) (hk : s.keeps kq km)
    (h : execMuOr e stall s = .next st) : st.keeps kq km := by
  unfold execMuOr at h
  obtain rfl := Host.Outcome.next.inj h
  clear h
  repeat' first
    | with_reducible assumption
    | with_reducible apply micro_keeps
    | with_reducible apply keeps_ite
    | intro _
    | split
    | with_reducible apply microArith_keeps

theorem execMuXor_keeps (e : EngId) (stall : Stall) (hk : s.keeps kq km)
    (h : execMuXor e stall s = .next st) : st.keeps kq km := by
  unfold execMuXor at h
  obtain rfl := Host.Outcome.next.inj h
  clear h
  repeat' first
    | with_reducible assumption
    | with_reducible apply micro_keeps
    | with_reducible apply keeps_ite
    | intro _
    | split
    | with_reducible apply microArith_keeps

theorem execMuNot_keeps (e : EngId) (stall : Stall) (hk : s.keeps kq km)
    (h : execMuNot e stall s = .next st) : st.keeps kq km := by
  unfold execMuNot at h
  obtain rfl := Host.Outcome.next.inj h
  clear h
  repeat' first
    | with_reducible assumption
    | with_reducible apply micro_keeps
    | with_reducible apply keeps_ite
    | intro _
    | split
    | with_reducible apply microArith_keeps

theorem execMuShl_keeps (e : EngId) (stall : Stall) (hk : s.keeps kq km)
    (h : execMuShl e stall s = .next st) : st.keeps kq km := by
  unfold execMuShl at h
  obtain rfl := Host.Outcome.next.inj h
  clear h
  repeat' first
    | with_reducible assumption
    | with_reducible apply micro_keeps
    | with_reducible apply keeps_ite
    | intro _
    | split
    | with_reducible apply microArith_keeps

theorem execMuShr_keeps (e : EngId) (stall : Stall) (hk : s.keeps kq km)
    (h : execMuShr e stall s = .next st) : st.keeps kq km := by
  unfold execMuShr at h
  obtain rfl := Host.Outcome.next.inj h
  clear h
  repeat' first
    | with_reducible assumption
    | with_reducible apply micro_keeps
    | with_reducible apply keeps_ite
    | intro _
    | split
    | with_reducible apply microArith_keeps

theorem execMuSra_keeps (e : EngId) (stall : Stall) (hk : s.keeps kq km)
    (h : execMuSra e stall s = .next st) : st.keeps kq km := by
  unfold execMuSra at h
  obtain rfl := Host.Outcome.next.inj h
  clear h
  repeat' first
    | with_reducible assumption
    | with_reducible apply micro_keeps
    | with_reducible apply keeps_ite
    | intro _
    | split
    | with_reducible apply microArith_keeps

theorem execMuRlc_keeps (e : EngId) (stall : Stall) (hk : s.keeps kq km)
    (h : execMuRlc e stall s = .next st) : st.keeps kq km := by
  unfold execMuRlc at h
  obtain rfl := Host.Outcome.next.inj h
  clear h
  repeat' first
    | with_reducible assumption
    | with_reducible apply micro_keeps
    | with_reducible apply keeps_ite
    | intro _
    | split
    | with_reducible apply microArith_keeps

theorem execMuRrc_keeps (e : EngId) (stall : Stall) (hk : s.keeps kq km)
    (h : execMuRrc e stall s = .next st) : st.keeps kq km := by
  unfold execMuRrc at h
  obtain rfl := Host.Outcome.next.inj h
  clear h
  repeat' first
    | with_reducible assumption
    | with_reducible apply micro_keeps
    | with_reducible apply keeps_ite
    | intro _
    | split
    | with_reducible apply microArith_keeps

theorem execMuCmp_keeps (e : EngId) (stall : Stall) (hk : s.keeps kq km)
    (h : execMuCmp e stall s = .next st) : st.keeps kq km := by
  unfold execMuCmp at h
  obtain rfl := Host.Outcome.next.inj h
  clear h
  repeat' first
    | with_reducible assumption
    | with_reducible apply micro_keeps
    | with_reducible apply keeps_ite
    | intro _
    | split
    | with_reducible apply microArith_keeps

theorem execMuTst_keeps (e : EngId) (stall : Stall) (hk : s.keeps kq km)
    (h : execMuTst e stall s = .next st) : st.keeps kq km := by
  unfold execMuTst at h
  obtain rfl := Host.Outcome.next.inj h
  clear h
  repeat' first
    | with_reducible assumption
    | with_reducible apply micro_keeps
    | with_reducible apply keeps_ite
    | intro _
    | split
    | with_reducible apply microArith_keeps

theorem execMuInc_keeps (e : EngId) (stall : Stall) (hk : s.keeps kq km)
    (h : execMuInc e stall s = .next st) : st.keeps kq km := by
  unfold execMuInc at h
  obtain rfl := Host.Outcome.next.inj h
  clear h
  repeat' first
    | with_reducible assumption
    | with_reducible apply micro_keeps
    | with_reducible apply keeps_ite
    | intro _
    | split
    | with_reducible apply microArith_keeps

theorem execMuDec_keeps (e : EngId) (stall : Stall) (hk : s.keeps kq km)
    (h : execMuDec e stall s = .next st) : st.keeps kq km := by
  unfold execMuDec at h
  obtain rfl := Host.Outcome.next.inj h
  clear h
  repeat' first
    | with_reducible assumption
    | with_reducible apply micro_keeps
    | with_reducible apply keeps_ite
    | intro _
    | split
    | with_reducible apply microArith_keeps

theorem execMuAddi_keeps (e : EngId) (stall : Stall) (hk : s.keeps kq km)
    (h : execMuAddi e stall s = .next st) : st.keeps kq km := by
  unfold execMuAddi at h
  obtain rfl := Host.Outcome.next.inj h
  clear h
  repeat' first
    | with_reducible assumption
    | with_reducible apply micro_keeps
    | with_reducible apply keeps_ite
    | intro _
    | split
    | with_reducible apply microWide_keeps

theorem execMuAdda_keeps (e : EngId) (stall : Stall) (hk : s.keeps kq km)
    (h : execMuAdda e stall s = .next st) : st.keeps kq km := by
  unfold execMuAdda at h
  obtain rfl := Host.Outcome.next.inj h
  clear h
  repeat' first
    | with_reducible assumption
    | with_reducible apply micro_keeps
    | with_reducible apply keeps_ite
    | intro _
    | split
    | with_reducible apply microWide_keeps

theorem execMuShla_keeps (e : EngId) (stall : Stall) (hk : s.keeps kq km)
    (h : execMuShla e stall s = .next st) : st.keeps kq km := by
  unfold execMuShla at h
  obtain rfl := Host.Outcome.next.inj h
  clear h
  repeat' first
    | with_reducible assumption
    | with_reducible apply micro_keeps
    | with_reducible apply keeps_ite
    | intro _
    | split
    | with_reducible apply microWide_keeps

theorem execMuExf_keeps (e : EngId) (stall : Stall) (hk : s.keeps kq km)
    (h : execMuExf e stall s = .next st) : st.keeps kq km := by
  unfold execMuExf at h
  obtain rfl := Host.Outcome.next.inj h
  clear h
  repeat' first
    | with_reducible assumption
    | with_reducible apply micro_keeps
    | with_reducible apply keeps_ite
    | intro _
    | split
    | with_reducible apply exf_keeps

theorem execMuLdmir_keeps (e : EngId) (stall : Stall) (hk : s.keeps kq km)
    (h : execMuLdmir e stall s = .next st) : st.keeps kq km := by
  unfold execMuLdmir at h
  obtain rfl := Host.Outcome.next.inj h
  clear h
  repeat' first
    | with_reducible assumption
    | with_reducible apply setMreg_keeps
    | with_reducible apply micro_keeps
    | with_reducible apply keeps_ite
    | intro _
    | split
    | with_reducible apply microMove_keeps

theorem execMuMrd_keeps (e : EngId) (stall : Stall) (hk : s.keeps kq km)
    (h : execMuMrd e stall s = .next st) : st.keeps kq km := by
  unfold execMuMrd at h
  obtain rfl := Host.Outcome.next.inj h
  clear h
  repeat' first
    | with_reducible assumption
    | with_reducible apply micro_keeps
    | with_reducible apply keeps_ite
    | intro _
    | split
    | with_reducible apply mrd_keeps

theorem execMuMwr_keeps (e : EngId) (stall : Stall) (hk : s.keeps kq km)
    (h : execMuMwr e stall s = .next st) : st.keeps kq km := by
  unfold execMuMwr at h
  obtain rfl := Host.Outcome.next.inj h
  clear h
  repeat' first
    | with_reducible assumption
    | with_reducible apply micro_keeps
    | with_reducible apply keeps_ite
    | intro _
    | split
    | with_reducible apply mwr_keeps

theorem execMuMfetch_keeps (e : EngId) (stall : Stall) (hk : s.keeps kq km)
    (h : execMuMfetch e stall s = .next st) : st.keeps kq km := by
  unfold execMuMfetch at h
  obtain rfl := Host.Outcome.next.inj h
  clear h
  repeat' first
    | with_reducible assumption
    | with_reducible apply micro_keeps
    | with_reducible apply keeps_ite
    | intro _
    | split
    | with_reducible apply mfetch_keeps

theorem execMuMpcw_keeps (e : EngId) (stall : Stall) (hk : s.keeps kq km)
    (h : execMuMpcw e stall s = .next st) : st.keeps kq km := by
  unfold execMuMpcw at h
  obtain rfl := Host.Outcome.next.inj h
  clear h
  repeat' first
    | with_reducible assumption
    | with_reducible apply setPort_keeps
    | with_reducible apply micro_keeps
    | with_reducible apply keeps_ite
    | intro _
    | split
    | with_reducible apply microMove_keeps

theorem execMuMpcr_keeps (e : EngId) (stall : Stall) (hk : s.keeps kq km)
    (h : execMuMpcr e stall s = .next st) : st.keeps kq km := by
  unfold execMuMpcr at h
  obtain rfl := Host.Outcome.next.inj h
  clear h
  repeat' first
    | with_reducible assumption
    | with_reducible apply setMreg_keeps
    | with_reducible apply micro_keeps
    | with_reducible apply keeps_ite
    | intro _
    | split
    | with_reducible apply microMove_keeps

theorem execMuLdf_keeps (e : EngId) (stall : Stall) (hk : s.keeps kq km)
    (h : execMuLdf e stall s = .next st) : st.keeps kq km := by
  unfold execMuLdf at h
  obtain rfl := Host.Outcome.next.inj h
  clear h
  repeat' first
    | with_reducible assumption
    | with_reducible apply setMreg_keeps
    | with_reducible apply micro_keeps
    | with_reducible apply keeps_ite
    | intro _
    | split
    | with_reducible apply microMove_keeps

theorem execMuStf_keeps (e : EngId) (stall : Stall) (hk : s.keeps kq km)
    (h : execMuStf e stall s = .next st) : st.keeps kq km := by
  unfold execMuStf at h
  obtain rfl := Host.Outcome.next.inj h
  clear h
  repeat' first
    | with_reducible assumption
    | with_reducible apply setPort_keeps
    | with_reducible apply micro_keeps
    | with_reducible apply keeps_ite
    | intro _
    | split
    | with_reducible apply microMove_keeps

theorem execMuSetf_keeps (e : EngId) (stall : Stall) (hk : s.keeps kq km)
    (h : execMuSetf e stall s = .next st) : st.keeps kq km := by
  unfold execMuSetf at h
  obtain rfl := Host.Outcome.next.inj h
  clear h
  repeat' first
    | with_reducible assumption
    | with_reducible apply setPort_keeps
    | with_reducible apply micro_keeps
    | with_reducible apply keeps_ite
    | intro _
    | split
    | with_reducible apply microMove_keeps

theorem execMuClrf_keeps (e : EngId) (stall : Stall) (hk : s.keeps kq km)
    (h : execMuClrf e stall s = .next st) : st.keeps kq km := by
  unfold execMuClrf at h
  obtain rfl := Host.Outcome.next.inj h
  clear h
  repeat' first
    | with_reducible assumption
    | with_reducible apply setPort_keeps
    | with_reducible apply micro_keeps
    | with_reducible apply keeps_ite
    | intro _
    | split
    | with_reducible apply microMove_keeps

theorem execMuLdcnt_keeps (e : EngId) (stall : Stall) (hk : s.keeps kq km)
    (h : execMuLdcnt e stall s = .next st) : st.keeps kq km := by
  unfold execMuLdcnt at h
  obtain rfl := Host.Outcome.next.inj h
  clear h
  repeat' first
    | with_reducible assumption
    | with_reducible apply setReg_keeps
    | with_reducible apply micro_keeps
    | with_reducible apply keeps_ite
    | intro _
    | split
    | with_reducible apply microMove_keeps

theorem execMuLdcntr_keeps (e : EngId) (stall : Stall) (hk : s.keeps kq km)
    (h : execMuLdcntr e stall s = .next st) : st.keeps kq km := by
  unfold execMuLdcntr at h
  obtain rfl := Host.Outcome.next.inj h
  clear h
  repeat' first
    | with_reducible assumption
    | with_reducible apply setReg_keeps
    | with_reducible apply micro_keeps
    | with_reducible apply keeps_ite
    | intro _
    | split
    | with_reducible apply microMove_keeps

theorem execMuWaitc_keeps (e : EngId) (stall : Stall) (hk : s.keeps kq km)
    (h : execMuWaitc e stall s = .next st) : st.keeps kq km := by
  unfold execMuWaitc at h
  obtain rfl := Host.Outcome.next.inj h
  clear h
  repeat' first | with_reducible assumption | with_reducible apply waitc_keeps

theorem execMuSync_keeps (e : EngId) (stall : Stall) (hk : s.keeps kq km)
    (h : execMuSync e stall s = .next st) : st.keeps kq km := by
  unfold execMuSync at h
  obtain rfl := Host.Outcome.next.inj h
  clear h
  repeat' first
    | with_reducible assumption
    | with_reducible apply micro_keeps
    | with_reducible apply keeps_ite
    | intro _
    | split
    | with_reducible apply microSync_keeps

theorem execMuTrap_keeps (e : EngId) (stall : Stall) (hk : s.keeps kq km)
    (h : execMuTrap e stall s = .next st) : st.keeps kq km := by
  unfold execMuTrap at h
  obtain rfl := Host.Outcome.next.inj h
  clear h
  repeat' first
    | with_reducible assumption
    | with_reducible apply modEng_keeps
    | with_reducible apply micro_keeps
    | with_reducible apply keeps_ite
    | intro _
    | split
    | with_reducible apply microMove_keeps

theorem execMuExit_keeps (e : EngId) (stall : Stall) (hk : s.keeps kq km)
    (h : execMuExit e stall s = .next st) : st.keeps kq km := by
  unfold execMuExit at h
  obtain rfl := Host.Outcome.next.inj h
  clear h
  repeat' first
    | with_reducible assumption
    | with_reducible apply micro_keeps
    | with_reducible apply keeps_ite
    | intro _
    | split
    | with_reducible apply microMove_keeps

theorem execMuNano_keeps (e : EngId) (stall : Stall) (hk : s.keeps kq km)
    (h : execMuNano e stall s = .next st) : st.keeps kq km := by
  unfold execMuNano at h
  obtain rfl := Host.Outcome.next.inj h
  clear h
  repeat' first
    | with_reducible assumption
    | with_reducible apply micro_keeps
    | with_reducible apply keeps_ite
    | intro _
    | split
    | with_reducible apply nano_keeps

theorem execMicroOpUndefined_keeps (e : EngId) (x1 : Stall) (hk : s.keeps kq km)
    (h : execMicroOpUndefined e x1 s = .next st) : st.keeps kq km := by
  unfold execMicroOpUndefined at h
  obtain rfl := Host.Outcome.next.inj h
  clear h
  repeat' first
    | with_reducible assumption
    | with_reducible apply microFault_keeps
    | with_reducible apply micro_keeps
    | with_reducible apply keeps_ite
    | intro _
    | split
    | dsimp only [didKeeps]

theorem execEmuDispatch_keeps (e : EngId) (hk : s.keeps kq km)
    (h : execEmuDispatch e s = .next st) : st.keeps kq km := by
  unfold execEmuDispatch at h
  obtain rfl := Host.Outcome.next.inj h
  clear h
  repeat' first | with_reducible assumption | with_reducible apply dispatch_keeps

theorem execWalkerRead_keeps (r : BaseId) (hk : s.keeps kq km)
    (h : execWalkerRead r s = .next st) : st.keeps kq km := by
  unfold execWalkerRead at h
  obtain rfl := Host.Outcome.next.inj h
  clear h
  repeat' first | with_reducible assumption | with_reducible apply walkerRead_keeps

theorem execEntryPerform_keeps (r : BaseId) (hk : s.keeps kq km)
    (h : execEntryPerform r s = .next st) : st.keeps kq km := by
  unfold execEntryPerform at h
  obtain rfl := Host.Outcome.next.inj h
  clear h
  repeat' first | with_reducible assumption | with_reducible apply entryPerform_keeps

theorem execEdgeCommit_keeps (r : BaseId) (hk : s.keeps kq km)
    (h : execEdgeCommit r s = .next st) : st.keeps kq km := by
  unfold execEdgeCommit at h
  obtain rfl := Host.Outcome.next.inj h
  clear h
  repeat' first | with_reducible assumption | with_reducible apply edgeCommit_keeps

theorem execTableWrite_keeps (slot : Slot) (off : SlotOffset) (size : TableSize) (data : Quad) (hk : s.keeps kq km)
    (h : execTableWrite slot off size data s = .next st) : st.keeps kq km := by
  unfold execTableWrite at h
  obtain rfl := Host.Outcome.next.inj h
  clear h
  repeat' first
    | with_reducible assumption
    | with_reducible apply drawWord_keeps
    | with_reducible apply tableStore_keeps
    | with_reducible apply keeps_ite
    | intro _

theorem execRingEnable_keeps (r : BaseId) (hk : s.keeps kq km)
    (h : execRingEnable r s = .next st) : st.keeps kq km := by
  unfold execRingEnable at h
  obtain rfl := Host.Outcome.next.inj h
  clear h
  repeat' first | with_reducible assumption | with_reducible apply ringEnable_keeps

theorem execRingDisable_keeps (r : BaseId) (hk : s.keeps kq km)
    (h : execRingDisable r s = .next st) : st.keeps kq km := by
  unfold execRingDisable at h
  obtain rfl := Host.Outcome.next.inj h
  clear h
  repeat' first | with_reducible assumption | with_reducible apply ringDisable_keeps

theorem execAlmanacEnable_keeps  (hk : s.keeps kq km)
    (h : execAlmanacEnable s = .next st) : st.keeps kq km := by
  unfold execAlmanacEnable at h
  obtain rfl := Host.Outcome.next.inj h
  clear h
  repeat' first | with_reducible assumption | with_reducible apply almEnable_keeps

theorem execAlmanacDisable_keeps  (hk : s.keeps kq km)
    (h : execAlmanacDisable s = .next st) : st.keeps kq km := by
  unfold execAlmanacDisable at h
  obtain rfl := Host.Outcome.next.inj h
  clear h
  repeat' first | with_reducible assumption | with_reducible apply almDisable_keeps

theorem execAlmanacLockstepMismatch_keeps  (hk : s.keeps kq km)
    (h : execAlmanacLockstepMismatch s = .next st) : st.keeps kq km := by
  unfold execAlmanacLockstepMismatch at h
  obtain rfl := Host.Outcome.next.inj h
  clear h
  repeat' first | with_reducible assumption | with_reducible apply almLockstep_keeps

theorem execAlmInjLs_keeps  (hk : s.keeps kq km)
    (h : execAlmInjLs s = .next st) : st.keeps kq km := by
  unfold execAlmInjLs at h
  obtain rfl := Host.Outcome.next.inj h
  clear h
  repeat' first
    | with_reducible assumption
    | with_reducible apply keeps_ite
    | intro _
    | split
    | dsimp only
    | with_reducible apply keeps_mk

theorem execOutboundDelivery_keeps (e : EngId) (hk : s.keeps kq km)
    (h : execOutboundDelivery e s = .next st) : st.keeps kq km := by
  unfold execOutboundDelivery at h
  obtain rfl := Host.Outcome.next.inj h
  clear h
  repeat' first | with_reducible assumption | with_reducible apply outbound_keeps

theorem execPortEnable_keeps (p : PortId) (hk : s.keeps kq km)
    (h : execPortEnable p s = .next st) : st.keeps kq km := by
  unfold execPortEnable at h
  obtain rfl := Host.Outcome.next.inj h
  clear h
  repeat' first | with_reducible assumption | with_reducible apply hlEnable_keeps

theorem execPortRetrain_keeps (p : PortId) (hk : s.keeps kq km)
    (h : execPortRetrain p s = .next st) : st.keeps kq km := by
  unfold execPortRetrain at h
  obtain rfl := Host.Outcome.next.inj h
  clear h
  repeat' first | with_reducible assumption | with_reducible apply hlRetrain_keeps

theorem execTrainingFailure_keeps (p : PortId) (why : TrainingEnd) (hk : s.keeps kq km)
    (h : execTrainingFailure p why s = .next st) : st.keeps kq km := by
  unfold execTrainingFailure at h
  obtain rfl := Host.Outcome.next.inj h
  clear h
  repeat' first | with_reducible assumption | with_reducible apply hlTrainFail_keeps

theorem execTrainingRetry_keeps (p : PortId) (hk : s.keeps kq km)
    (h : execTrainingRetry p s = .next st) : st.keeps kq km := by
  unfold execTrainingRetry at h
  obtain rfl := Host.Outcome.next.inj h
  clear h
  repeat' first
    | with_reducible assumption
    | with_reducible apply hlTrain_keeps
    | with_reducible apply keeps_ite
    | intro _
    | split

theorem execDelayMeasurement_keeps (p : PortId) (delay : LinkDelay) (hk : s.keeps kq km)
    (h : execDelayMeasurement p delay s = .next st) : st.keeps kq km := by
  unfold execDelayMeasurement at h
  obtain rfl := Host.Outcome.next.inj h
  clear h
  repeat' first | with_reducible assumption | with_reducible apply setFld_keeps | with_reducible apply keeps_ite | intro _

theorem execLinkDown_keeps (p : PortId) (hk : s.keeps kq km)
    (h : execLinkDown p s = .next st) : st.keeps kq km := by
  unfold execLinkDown at h
  obtain rfl := Host.Outcome.next.inj h
  clear h
  repeat' first | with_reducible assumption | with_reducible apply hlDown_keeps | with_reducible apply keeps_ite | intro _

theorem execFrameSend_keeps (p : PortId) (hk : s.keeps kq km)
    (h : execFrameSend p s = .next st) : st.keeps kq km := by
  unfold execFrameSend at h
  obtain rfl := Host.Outcome.next.inj h
  clear h
  repeat' first | with_reducible assumption | with_reducible apply frameOut_keeps

theorem execLinkFrameError_keeps (p : PortId) (bad : BadFrame) (hk : s.keeps kq km)
    (h : execLinkFrameError p bad s = .next st) : st.keeps kq km := by
  unfold execLinkFrameError at h
  obtain rfl := Host.Outcome.next.inj h
  clear h
  repeat' first | with_reducible assumption | with_reducible apply hlBad_keeps

theorem execViolationWindow_keeps (p : PortId) (hk : s.keeps kq km)
    (h : execViolationWindow p s = .next st) : st.keeps kq km := by
  unfold execViolationWindow at h
  obtain rfl := Host.Outcome.next.inj h
  clear h
  repeat' first | with_reducible assumption | with_reducible apply hlRoll_keeps

theorem execAckReceive_keeps (p : PortId) (seq : Byte) (cred : Byte) (hk : s.keeps kq km)
    (h : execAckReceive p seq cred s = .next st) : st.keeps kq km := by
  unfold execAckReceive at h
  obtain rfl := Host.Outcome.next.inj h
  clear h
  repeat' first | with_reducible assumption | with_reducible apply hlAckIn_keeps

theorem execNakReceive_keeps (p : PortId) (seq : Byte) (cred : Byte) (hk : s.keeps kq km)
    (h : execNakReceive p seq cred s = .next st) : st.keeps kq km := by
  unfold execNakReceive at h
  obtain rfl := Host.Outcome.next.inj h
  clear h
  repeat' first | with_reducible assumption | with_reducible apply hlNakIn_keeps

theorem execAckTimeout_keeps (p : PortId) (hk : s.keeps kq km)
    (h : execAckTimeout p s = .next st) : st.keeps kq km := by
  unfold execAckTimeout at h
  obtain rfl := Host.Outcome.next.inj h
  clear h
  repeat' first | with_reducible assumption | with_reducible apply hlAckTimeout_keeps

theorem execTsyncSend_keeps  (hk : s.keeps kq km)
    (h : execTsyncSend s = .next st) : st.keeps kq km := by
  unfold execTsyncSend at h
  obtain rfl := Host.Outcome.next.inj h
  clear h
  repeat' first | with_reducible assumption | with_reducible apply tsyncSend_keeps

theorem execTsyncReceive_keeps (p : PortId) (f : HlFrame) (rx : Stamp) (hk : s.keeps kq km)
    (h : execTsyncReceive p f rx s = .next st) : st.keeps kq km := by
  unfold execTsyncReceive at h
  obtain rfl := Host.Outcome.next.inj h
  clear h
  repeat' first
    | with_reducible assumption
    | with_reducible apply hlReceive_keeps
    | with_reducible apply tsyncUse_keeps
    | with_reducible apply keeps_ite
    | intro _

theorem execAngleReceive_keeps (p : PortId) (f : HlFrame) (hk : s.keeps kq km)
    (h : execAngleReceive p f s = .next st) : st.keeps kq km := by
  unfold execAngleReceive at h
  obtain rfl := Host.Outcome.next.inj h
  clear h
  repeat' first
    | with_reducible assumption
    | with_reducible apply hlReceive_keeps
    | with_reducible apply angleDeliver_keeps
    | with_reducible apply keeps_ite
    | intro _

theorem execMsgReceive_keeps (p : PortId) (f : HlFrame) (hk : s.keeps kq km)
    (h : execMsgReceive p f s = .next st) : st.keeps kq km := by
  unfold execMsgReceive at h
  obtain rfl := Host.Outcome.next.inj h
  clear h
  repeat' first
    | with_reducible assumption
    | with_reducible apply msgDeliver_keeps
    | with_reducible apply hlRespond_keeps
    | with_reducible apply hlReceive_keeps
    | with_reducible apply keeps_ite
    | intro _

theorem execMsgResponse_keeps (p : PortId) (f : HlFrame) (hk : s.keeps kq km)
    (h : execMsgResponse p f s = .next st) : st.keeps kq km := by
  unfold execMsgResponse at h
  obtain rfl := Host.Outcome.next.inj h
  clear h
  repeat' first
    | with_reducible assumption
    | with_reducible apply incReg_keeps
    | with_reducible apply msgAnswer_keeps
    | with_reducible apply hlReceive_keeps
    | with_reducible apply keeps_ite
    | intro _

theorem execMsgResend_keeps (tag : Byte) (hk : s.keeps kq km)
    (h : execMsgResend tag s = .next st) : st.keeps kq km := by
  unfold execMsgResend at h
  obtain rfl := Host.Outcome.next.inj h
  clear h
  repeat' first
    | with_reducible assumption
    | with_reducible apply msgSend_keeps
    | with_reducible apply keeps_ite
    | intro _
    | split

theorem execRreadRequest_keeps (p : PortId) (f : HlFrame) (hk : s.keeps kq km)
    (h : execRreadRequest p f s = .next st) : st.keeps kq km := by
  unfold execRreadRequest at h
  obtain rfl := Host.Outcome.next.inj h
  clear h
  repeat' first
    | with_reducible assumption
    | with_reducible apply hlReceive_keeps
    | with_reducible apply remoteIn_keeps
    | with_reducible apply keeps_ite
    | intro _

theorem execRwriteRequest_keeps (p : PortId) (f : HlFrame) (hk : s.keeps kq km)
    (h : execRwriteRequest p f s = .next st) : st.keeps kq km := by
  unfold execRwriteRequest at h
  obtain rfl := Host.Outcome.next.inj h
  clear h
  repeat' first
    | with_reducible assumption
    | with_reducible apply hlReceive_keeps
    | with_reducible apply remoteIn_keeps
    | with_reducible apply keeps_ite
    | intro _

theorem execRatomRequest_keeps (p : PortId) (f : HlFrame) (hk : s.keeps kq km)
    (h : execRatomRequest p f s = .next st) : st.keeps kq km := by
  unfold execRatomRequest at h
  obtain rfl := Host.Outcome.next.inj h
  clear h
  repeat' first
    | with_reducible assumption
    | with_reducible apply hlReceive_keeps
    | with_reducible apply remoteIn_keeps
    | with_reducible apply keeps_ite
    | intro _

theorem execRemoteResponse_keeps (p : PortId) (f : HlFrame) (hk : s.keeps kq km)
    (h : execRemoteResponse p f s = .next st) : st.keeps kq km := by
  unfold execRemoteResponse at h
  obtain rfl := Host.Outcome.next.inj h
  clear h
  repeat' first
    | with_reducible assumption
    | with_reducible apply hlReceive_keeps
    | with_reducible apply remoteResponse_keeps
    | with_reducible apply keeps_ite
    | intro _

theorem execTransactionTimeout_keeps (tag : Byte) (hk : s.keeps kq km)
    (h : execTransactionTimeout tag s = .next st) : st.keeps kq km := by
  unfold execTransactionTimeout at h
  obtain rfl := Host.Outcome.next.inj h
  clear h
  repeat' first | with_reducible assumption | with_reducible apply tagTimeout_keeps

theorem execAngleSnapshot_keeps (b : BaseId) (hk : s.keeps kq km)
    (h : execAngleSnapshot b s = .next st) : st.keeps kq km := by
  unfold execAngleSnapshot at h
  obtain rfl := Host.Outcome.next.inj h
  clear h
  repeat' first | with_reducible assumption | with_reducible apply angleSnapshot_keeps

theorem execHlInjDropack_keeps (p : PortId) (hk : s.keeps kq km)
    (h : execHlInjDropack p s = .next st) : st.keeps kq km := by
  unfold execHlInjDropack at h
  obtain rfl := Host.Outcome.next.inj h
  clear h
  repeat' first | with_reducible assumption | with_reducible apply modHlPort_keeps

theorem execHlInjRxnode_keeps (p : PortId) (hk : s.keeps kq km)
    (h : execHlInjRxnode p s = .next st) : st.keeps kq km := by
  unfold execHlInjRxnode at h
  obtain rfl := Host.Outcome.next.inj h
  clear h
  repeat' first | with_reducible assumption | with_reducible apply modHlPort_keeps

theorem execHlInjRxunk_keeps (p : PortId) (hk : s.keeps kq km)
    (h : execHlInjRxunk p s = .next st) : st.keeps kq km := by
  unfold execHlInjRxunk at h
  obtain rfl := Host.Outcome.next.inj h
  clear h
  repeat' first | with_reducible assumption | with_reducible apply modHlPort_keeps

theorem execHlInjRxseq_keeps (p : PortId) (hk : s.keeps kq km)
    (h : execHlInjRxseq p s = .next st) : st.keeps kq km := by
  unfold execHlInjRxseq at h
  obtain rfl := Host.Outcome.next.inj h
  clear h
  repeat' first | with_reducible assumption | with_reducible apply modHlPort_keeps

theorem execHlInjRxcrc_keeps (p : PortId) (hk : s.keeps kq km)
    (h : execHlInjRxcrc p s = .next st) : st.keeps kq km := by
  unfold execHlInjRxcrc at h
  obtain rfl := Host.Outcome.next.inj h
  clear h
  repeat' first | with_reducible assumption | with_reducible apply modHlPort_keeps

theorem execPortUp_keeps (p : PortId) (partner : NodeId) (nextSeq : Byte) (hk : s.keeps kq km)
    (h : execPortUp p partner nextSeq s = .next st) : st.keeps kq km := by
  unfold execPortUp at h
  obtain rfl := Host.Outcome.next.inj h
  clear h
  repeat' first | with_reducible assumption | with_reducible apply hlUp_keeps

theorem execVitrineBorrow_keeps (fail : MarchResult) (hk : s.keeps kq km)
    (h : execVitrineBorrow fail s = .next st) : st.keeps kq km := by
  unfold execVitrineBorrow at h
  obtain rfl := Host.Outcome.next.inj h
  clear h
  repeat' first | with_reducible assumption | with_reducible apply borrowStart_keeps

theorem execScrubRead_keeps  (hk : s.keeps kq km)
    (h : execScrubRead s = .next st) : st.keeps kq km := by
  unfold execScrubRead at h
  obtain rfl := Host.Outcome.next.inj h
  clear h
  repeat' first | with_reducible assumption | with_reducible apply scrub_keeps

theorem execNeverBorrowMark_keeps (w : NbWord) (value : Word) (hk : s.keeps kq km)
    (h : execNeverBorrowMark w value s = .next st) : st.keeps kq km := by
  unfold execNeverBorrowMark at h
  obtain rfl := Host.Outcome.next.inj h
  clear h
  repeat' first | with_reducible assumption | with_reducible apply neverBorrow_keeps

theorem execCurInjMfail_keeps  (hk : s.keeps kq km)
    (h : execCurInjMfail s = .next st) : st.keeps kq km := by
  unfold execCurInjMfail at h
  obtain rfl := Host.Outcome.next.inj h
  clear h
  repeat' first
    | with_reducible assumption
    | with_reducible apply keeps_ite
    | intro _
    | split
    | dsimp only
    | with_reducible apply keeps_mk

theorem execTeInjCe_keeps (e : EngId) (emu : Bool) (hk : s.keeps kq km)
    (h : execTeInjCe e emu s = .next st) : st.keeps kq km := by
  unfold execTeInjCe at h
  obtain rfl := Host.Outcome.next.inj h
  clear h
  repeat' first | with_reducible assumption | with_reducible apply injectCe_keeps | with_reducible apply keeps_ite | intro _

theorem execTeInjUe_keeps (e : EngId) (emu : Bool) (hk : s.keeps kq km)
    (h : execTeInjUe e emu s = .next st) : st.keeps kq km := by
  unfold execTeInjUe at h
  obtain rfl := Host.Outcome.next.inj h
  clear h
  repeat' first | with_reducible assumption | with_reducible apply injectUe_keeps | with_reducible apply keeps_ite | intro _

theorem execTeInjSpar_keeps (e : EngId) (hk : s.keeps kq km)
    (h : execTeInjSpar e s = .next st) : st.keeps kq km := by
  unfold execTeInjSpar at h
  obtain rfl := Host.Outcome.next.inj h
  clear h
  repeat' first | with_reducible assumption | with_reducible apply modEng_keeps | with_reducible apply keeps_ite | intro _

theorem execTeInjBpar_keeps (e : EngId) (bus : BaseId) (hk : s.keeps kq km)
    (h : execTeInjBpar e bus s = .next st) : st.keeps kq km := by
  unfold execTeInjBpar at h
  obtain rfl := Host.Outcome.next.inj h
  clear h
  repeat' first | with_reducible assumption | with_reducible apply modEng_keeps | with_reducible apply keeps_ite | intro _

theorem execTeInjWdg_keeps (e : EngId) (hk : s.keeps kq km)
    (h : execTeInjWdg e s = .next st) : st.keeps kq km := by
  unfold execTeInjWdg at h
  obtain rfl := Host.Outcome.next.inj h
  clear h
  repeat' first | with_reducible assumption | with_reducible apply modEng_keeps | with_reducible apply keeps_ite | intro _

theorem execSysInjCe_keeps (store : StoreSel) (hk : s.keeps kq km)
    (h : execSysInjCe store s = .next st) : st.keeps kq km := by
  unfold execSysInjCe at h
  obtain rfl := Host.Outcome.next.inj h
  clear h
  repeat' first
    | with_reducible assumption
    | with_reducible apply injectCe_keeps
    | with_reducible apply keeps_ite
    | intro _
    | split

theorem execSysInjUe_keeps (store : StoreSel) (hk : s.keeps kq km)
    (h : execSysInjUe store s = .next st) : st.keeps kq km := by
  unfold execSysInjUe at h
  obtain rfl := Host.Outcome.next.inj h
  clear h
  repeat' first
    | with_reducible assumption
    | with_reducible apply injectUe_keeps
    | with_reducible apply keeps_ite
    | intro _
    | split

theorem execPwrInjThw_keeps (on : Bool) (hk : s.keeps kq km)
    (h : execPwrInjThw on s = .next st) : st.keeps kq km := by
  unfold execPwrInjThw at h
  obtain rfl := Host.Outcome.next.inj h
  clear h
  repeat' first | with_reducible assumption | with_reducible apply putBit_keeps

theorem execPwrInjWarn_keeps (on : Bool) (hk : s.keeps kq km)
    (h : execPwrInjWarn on s = .next st) : st.keeps kq km := by
  unfold execPwrInjWarn at h
  obtain rfl := Host.Outcome.next.inj h
  clear h
  repeat' first | with_reducible assumption | with_reducible apply putBit_keeps

theorem execGpioInjBrk_keeps (r : RcvId) (hk : s.keeps kq km)
    (h : execGpioInjBrk r s = .next st) : st.keeps kq km := by
  unfold execGpioInjBrk at h
  obtain rfl := Host.Outcome.next.inj h
  clear h
  repeat' first | with_reducible assumption | with_reducible apply injectBrk_keeps

theorem execLineBreak_keeps (found : LongBreak) (hk : s.keeps kq km)
    (h : execLineBreak found s = .next st) : st.keeps kq km := by
  unfold execLineBreak at h
  obtain rfl := Host.Outcome.next.inj h
  clear h
  repeat' first | with_reducible assumption | with_reducible apply lineBreak_keeps

theorem execWatchdogExpiry_keeps (e : EngId) (hk : s.keeps kq km)
    (h : execWatchdogExpiry e s = .next st) : st.keeps kq km := by
  unfold execWatchdogExpiry at h
  obtain rfl := Host.Outcome.next.inj h
  clear h
  repeat' first | with_reducible assumption | with_reducible apply wdExpire_keeps

theorem execWatchdogKick_keeps (e : EngId) (hk : s.keeps kq km)
    (h : execWatchdogKick e s = .next st) : st.keeps kq km := by
  unfold execWatchdogKick at h
  obtain rfl := Host.Outcome.next.inj h
  clear h
  repeat' first | with_reducible assumption | with_reducible apply wdKick_keeps | with_reducible apply keeps_ite | intro _

theorem execErrorLogAccept_keeps  (hk : s.keeps kq km)
    (h : execErrorLogAccept s = .next st) : st.keeps kq km := by
  unfold execErrorLogAccept at h
  obtain rfl := Host.Outcome.next.inj h
  clear h
  repeat' first | with_reducible assumption | with_reducible apply errAccept_keeps

theorem execErrorLogPop_keeps  (hk : s.keeps kq km)
    (h : execErrorLogPop s = .next st) : st.keeps kq km := by
  unfold execErrorLogPop at h
  obtain rfl := Host.Outcome.next.inj h
  clear h
  repeat' first | with_reducible assumption | with_reducible apply errPop_keeps

theorem execEccWriteback_keeps (unit : Word) (hk : s.keeps kq km)
    (h : execEccWriteback unit s = .next st) : st.keeps kq km := by
  unfold execEccWriteback at h
  obtain rfl := Host.Outcome.next.inj h
  clear h
  repeat' first
    | with_reducible assumption
    | with_reducible apply keeps_ite
    | intro _
    | split
    | dsimp only
    | with_reducible apply keeps_mk

theorem execRemapWrite_keeps (remap : Bool) (hk : s.keeps kq km)
    (h : execRemapWrite remap s = .next st) : st.keeps kq km := by
  unfold execRemapWrite at h
  obtain rfl := Host.Outcome.next.inj h
  clear h
  repeat' first | with_reducible assumption | with_reducible apply remapWrite_keeps

theorem execLockSet_keeps  (hk : s.keeps kq km)
    (h : execLockSet s = .next st) : st.keeps kq km := by
  unfold execLockSet at h
  obtain rfl := Host.Outcome.next.inj h
  clear h
  repeat' first | with_reducible assumption | with_reducible apply orReg_keeps

theorem execCancelRequest_keeps  (hk : s.keeps kq km)
    (h : execCancelRequest s = .next st) : st.keeps kq km := by
  unfold execCancelRequest at h
  obtain rfl := Host.Outcome.next.inj h
  clear h
  repeat' first | with_reducible assumption | with_reducible apply powerRequest_keeps

theorem execRequestHold_keeps  (hk : s.keeps kq km)
    (h : execRequestHold s = .next st) : st.keeps kq km := by
  unfold execRequestHold at h
  obtain rfl := Host.Outcome.next.inj h
  clear h
  repeat' first | with_reducible assumption | with_reducible apply powerRequest_keeps

theorem execRequestRetain_keeps  (hk : s.keeps kq km)
    (h : execRequestRetain s = .next st) : st.keeps kq km := by
  unfold execRequestRetain at h
  obtain rfl := Host.Outcome.next.inj h
  clear h
  repeat' first | with_reducible assumption | with_reducible apply powerRequest_keeps

theorem execRequestOff_keeps  (hk : s.keeps kq km)
    (h : execRequestOff s = .next st) : st.keeps kq km := by
  unfold execRequestOff at h
  obtain rfl := Host.Outcome.next.inj h
  clear h
  repeat' first | with_reducible assumption | with_reducible apply powerRequest_keeps

theorem execWakeRequest_keeps  (hk : s.keeps kq km)
    (h : execWakeRequest s = .next st) : st.keeps kq km := by
  unfold execWakeRequest at h
  obtain rfl := Host.Outcome.next.inj h
  clear h
  repeat' first | with_reducible assumption | with_reducible apply wakeHold_keeps

theorem execHoldEntry_keeps  (hk : s.keeps kq km)
    (h : execHoldEntry s = .next st) : st.keeps kq km := by
  unfold execHoldEntry at h
  obtain rfl := Host.Outcome.next.inj h
  clear h
  repeat' first | with_reducible assumption | with_reducible apply enterHold_keeps

theorem execRetainOffEntry_keeps  (hk : s.keeps kq km)
    (h : execRetainOffEntry s = .next st) : st.keeps kq km := by
  unfold execRetainOffEntry at h
  obtain rfl := Host.Outcome.next.inj h
  clear h
  repeat' first | with_reducible assumption | with_reducible apply enterRetainOff_keeps

theorem execBarometerSample_keeps (vin vcore : Half) (hk : s.keeps kq km)
    (h : execBarometerSample vin vcore s = .next st) : st.keeps kq km := by
  unfold execBarometerSample at h
  obtain rfl := Host.Outcome.next.inj h
  clear h
  repeat' first | with_reducible assumption | with_reducible apply baroSample_keeps

theorem execBarometerRecover_keeps  (hk : s.keeps kq km)
    (h : execBarometerRecover s = .next st) : st.keeps kq km := by
  unfold execBarometerRecover at h
  obtain rfl := Host.Outcome.next.inj h
  clear h
  repeat' first | with_reducible assumption | with_reducible apply baroRecover_keeps

theorem execThermalSample_keeps (temp : Half) (hk : s.keeps kq km)
    (h : execThermalSample temp s = .next st) : st.keeps kq km := by
  unfold execThermalSample at h
  obtain rfl := Host.Outcome.next.inj h
  clear h
  repeat' first | with_reducible assumption | with_reducible apply thermal_keeps

theorem execReferenceSwitch_keeps (src : Bool) (hk : s.keeps kq km)
    (h : execReferenceSwitch src s = .next st) : st.keeps kq km := by
  unfold execReferenceSwitch at h
  obtain rfl := Host.Outcome.next.inj h
  clear h
  repeat' first | with_reducible assumption | with_reducible apply refSwitch_keeps

theorem execRecoveredClockLoss_keeps  (hk : s.keeps kq km)
    (h : execRecoveredClockLoss s = .next st) : st.keeps kq km := by
  unfold execRecoveredClockLoss at h
  obtain rfl := Host.Outcome.next.inj h
  clear h
  repeat' first | with_reducible assumption | with_reducible apply refRevert_keeps

theorem execXinLoss_keeps  (hk : s.keeps kq km)
    (h : execXinLoss s = .next st) : st.keeps kq km := by
  unfold execXinLoss at h
  obtain rfl := Host.Outcome.next.inj h
  clear h
  repeat' first | with_reducible assumption | with_reducible apply xinLost_keeps

theorem execXinReturn_keeps  (hk : s.keeps kq km)
    (h : execXinReturn s = .next st) : st.keeps kq km := by
  unfold execXinReturn at h
  obtain rfl := Host.Outcome.next.inj h
  clear h
  repeat' first | with_reducible assumption | with_reducible apply xinBack_keeps

theorem execMasterReset_keeps (m : MasterNum) (hk : s.keeps kq km)
    (h : execMasterReset m s = .next st) : st.keeps kq km := by
  unfold execMasterReset at h
  obtain rfl := Host.Outcome.next.inj h
  clear h
  repeat' first | with_reducible assumption | with_reducible apply masterReset_keeps | with_reducible apply keeps_ite | intro _

theorem execUartReceive_keeps (u : PortId) (ch : UartChar) (hk : s.keeps kq km)
    (h : execUartReceive u ch s = .next st) : st.keeps kq km := by
  unfold execUartReceive at h
  obtain rfl := Host.Outcome.next.inj h
  clear h
  repeat' first | with_reducible assumption | with_reducible apply uartReceive_keeps

theorem execUartSend_keeps (u : PortId) (value : Word) (hk : s.keeps kq km)
    (h : execUartSend u value s = .next st) : st.keeps kq km := by
  unfold execUartSend at h
  obtain rfl := Host.Outcome.next.inj h
  clear h
  repeat' first | with_reducible assumption | with_reducible apply uartSend_keeps

theorem execUartDataRead_keeps (u : PortId) (hk : s.keeps kq km)
    (h : execUartDataRead u s = .next st) : st.keeps kq km := by
  unfold execUartDataRead at h
  obtain rfl := Host.Outcome.next.inj h
  clear h
  repeat' first
    | with_reducible assumption
    | with_reducible apply uartRead_keeps
    | with_reducible apply keeps_ite
    | intro _
    | split
    | with_reducible refine snd_keeps (by assumption) ?_
    | dsimp only
    | with_reducible apply keeps_mk

theorem execUartCharacterSent_keeps (u : PortId) (hk : s.keeps kq km)
    (h : execUartCharacterSent u s = .next st) : st.keeps kq km := by
  unfold execUartCharacterSent at h
  obtain rfl := Host.Outcome.next.inj h
  clear h
  repeat' first | with_reducible assumption | with_reducible apply uartSent_keeps

theorem execCtsChange_keeps (u : PortId) (asserted : Bool) (hk : s.keeps kq km)
    (h : execCtsChange u asserted s = .next st) : st.keeps kq km := by
  unfold execCtsChange at h
  obtain rfl := Host.Outcome.next.inj h
  clear h
  repeat' first | with_reducible assumption | with_reducible apply ctsChange_keeps

theorem execSpiWord_keeps (k : SpiId) (rx : SpiShift) (hk : s.keeps kq km)
    (h : execSpiWord k rx s = .next st) : st.keeps kq km := by
  unfold execSpiWord at h
  obtain rfl := Host.Outcome.next.inj h
  clear h
  repeat' first | with_reducible assumption | with_reducible apply spiWord_keeps

theorem execSpiDataWrite_keeps (k : SpiId) (value : Word) (hk : s.keeps kq km)
    (h : execSpiDataWrite k value s = .next st) : st.keeps kq km := by
  unfold execSpiDataWrite at h
  obtain rfl := Host.Outcome.next.inj h
  clear h
  repeat' first | with_reducible assumption | with_reducible apply spiWrite_keeps

theorem execSpiDataRead_keeps (k : SpiId) (hk : s.keeps kq km)
    (h : execSpiDataRead k s = .next st) : st.keeps kq km := by
  unfold execSpiDataRead at h
  obtain rfl := Host.Outcome.next.inj h
  clear h
  repeat' first
    | with_reducible assumption
    | with_reducible apply spiRead_keeps
    | with_reducible apply keeps_ite
    | intro _
    | split
    | with_reducible refine snd_keeps (by assumption) ?_
    | dsimp only
    | with_reducible apply keeps_mk

theorem execSpiSelectEnd_keeps (k : SpiId) (hk : s.keeps kq km)
    (h : execSpiSelectEnd k s = .next st) : st.keeps kq km := by
  unfold execSpiSelectEnd at h
  obtain rfl := Host.Outcome.next.inj h
  clear h
  repeat' first | with_reducible assumption | with_reducible apply spiPart_keeps

theorem execQspiCommand_keeps (x0 : Word) (op : FlashOp) (hk : s.keeps kq km)
    (h : execQspiCommand x0 op s = .next st) : st.keeps kq km := by
  unfold execQspiCommand at h
  obtain rfl := Host.Outcome.next.inj h
  clear h
  repeat' first | with_reducible assumption | with_reducible apply flashDo_keeps | with_reducible apply keeps_ite | intro _

theorem execI2cCommand_keeps (i : PairId) (value : Word) (bus : I2cBus) (hk : s.keeps kq km)
    (h : execI2cCommand i value bus s = .next st) : st.keeps kq km := by
  unfold execI2cCommand at h
  obtain rfl := Host.Outcome.next.inj h
  clear h
  repeat' first | with_reducible assumption | with_reducible apply i2cCommand_keeps

theorem execI2cDataWrite_keeps (i : PairId) (value : Word) (hk : s.keeps kq km)
    (h : execI2cDataWrite i value s = .next st) : st.keeps kq km := by
  unfold execI2cDataWrite at h
  obtain rfl := Host.Outcome.next.inj h
  clear h
  repeat' first | with_reducible assumption | with_reducible apply i2cWrite_keeps

theorem execI2cDataRead_keeps (i : PairId) (hk : s.keeps kq km)
    (h : execI2cDataRead i s = .next st) : st.keeps kq km := by
  unfold execI2cDataRead at h
  obtain rfl := Host.Outcome.next.inj h
  clear h
  repeat' first
    | with_reducible assumption
    | with_reducible apply i2cRead_keeps
    | with_reducible apply keeps_ite
    | intro _
    | split
    | with_reducible refine snd_keeps (by assumption) ?_
    | dsimp only
    | with_reducible apply keeps_mk

theorem execI2cTargetAddressed_keeps (i : PairId) (bus : I2cTarget) (hk : s.keeps kq km)
    (h : execI2cTargetAddressed i bus s = .next st) : st.keeps kq km := by
  unfold execI2cTargetAddressed at h
  obtain rfl := Host.Outcome.next.inj h
  clear h
  repeat' first | with_reducible assumption | with_reducible apply i2cTarget_keeps

theorem execI2cClockTimeout_keeps (i : PairId) (hk : s.keeps kq km)
    (h : execI2cClockTimeout i s = .next st) : st.keeps kq km := by
  unfold execI2cClockTimeout at h
  obtain rfl := Host.Outcome.next.inj h
  clear h
  repeat' first
    | with_reducible assumption
    | with_reducible apply orReg_keeps
    | with_reducible apply i2cFree_keeps
    | with_reducible apply keeps_ite
    | intro _

theorem execGpioInputEvent_keeps (pin : GpioId) (level : Bool) (hk : s.keeps kq km)
    (h : execGpioInputEvent pin level s = .next st) : st.keeps kq km := by
  unfold execGpioInputEvent at h
  obtain rfl := Host.Outcome.next.inj h
  clear h
  repeat' first
    | with_reducible assumption
    | with_reducible apply putBit_keeps
    | with_reducible apply gpioSample_keeps
    | with_reducible apply keeps_ite
    | intro _

theorem execDmaGo_keeps (c : ChanId) (value : Word) (hk : s.keeps kq km)
    (h : execDmaGo c value s = .next st) : st.keeps kq km := by
  unfold execDmaGo at h
  obtain rfl := Host.Outcome.next.inj h
  clear h
  repeat' first | with_reducible assumption | with_reducible apply dmaGo_keeps

theorem execDmaAbort_keeps (c : ChanId) (hk : s.keeps kq km)
    (h : execDmaAbort c s = .next st) : st.keeps kq km := by
  unfold execDmaAbort at h
  obtain rfl := Host.Outcome.next.inj h
  clear h
  repeat' first | with_reducible assumption | with_reducible apply dmaAbort_keeps

theorem execDmaPeripheralRequest_keeps (c : ChanId) (hk : s.keeps kq km)
    (h : execDmaPeripheralRequest c s = .next st) : st.keeps kq km := by
  unfold execDmaPeripheralRequest at h
  obtain rfl := Host.Outcome.next.inj h
  clear h
  repeat' first | with_reducible assumption | with_reducible apply dmaPace_keeps

theorem execDmaChain_keeps (c : ChanId) (hk : s.keeps kq km)
    (h : execDmaChain c s = .next st) : st.keeps kq km := by
  unfold execDmaChain at h
  obtain rfl := Host.Outcome.next.inj h
  clear h
  repeat' first | with_reducible assumption | with_reducible apply dmaChain_keeps

theorem execPcieInboundRequest_keeps (req : PcieReq) (hk : s.keeps kq km)
    (h : execPcieInboundRequest req s = .next st) : st.keeps kq km := by
  unfold execPcieInboundRequest at h
  obtain rfl := Host.Outcome.next.inj h
  clear h
  repeat' first | with_reducible assumption | with_reducible apply pcieInbound_keeps

theorem execPcieCompletion_keeps (cpl : PcieCpl) (hk : s.keeps kq km)
    (h : execPcieCompletion cpl s = .next st) : st.keeps kq km := by
  unfold execPcieCompletion at h
  obtain rfl := Host.Outcome.next.inj h
  clear h
  repeat' first
    | with_reducible assumption
    | with_reducible apply pcieCompletion_keeps
    | with_reducible apply keeps_ite
    | intro _

theorem execPcieCompletionTimeout_keeps  (hk : s.keeps kq km)
    (h : execPcieCompletionTimeout s = .next st) : st.keeps kq km := by
  unfold execPcieCompletionTimeout at h
  obtain rfl := Host.Outcome.next.inj h
  clear h
  repeat' first | with_reducible assumption | with_reducible apply pcieTimeout_keeps

theorem execMsiSend_keeps (v : MsiId) (hk : s.keeps kq km)
    (h : execMsiSend v s = .next st) : st.keeps kq km := by
  unfold execMsiSend at h
  obtain rfl := Host.Outcome.next.inj h
  clear h
  repeat' first | with_reducible assumption | with_reducible apply msiSource_keeps | with_reducible apply keeps_ite | intro _

theorem execPcieLinkReset_keeps (perst : Bool) (hk : s.keeps kq km)
    (h : execPcieLinkReset perst s = .next st) : st.keeps kq km := by
  unfold execPcieLinkReset at h
  obtain rfl := Host.Outcome.next.inj h
  clear h
  repeat' first | with_reducible assumption | with_reducible apply pcieDown_keeps | with_reducible apply keeps_ite | intro _

theorem execPcieLinkUp_keeps (width : Fin 4) (gen2 : Bool) (hk : s.keeps kq km)
    (h : execPcieLinkUp width gen2 s = .next st) : st.keeps kq km := by
  unfold execPcieLinkUp at h
  obtain rfl := Host.Outcome.next.inj h
  clear h
  repeat' first | with_reducible assumption | with_reducible apply pcieTrained_keeps

theorem execPcieConfigRequest_keeps (write : Bool) (off : CfgOffset) (value : Word) (hk : s.keeps kq km)
    (h : execPcieConfigRequest write off value s = .next st) : st.keeps kq km := by
  unfold execPcieConfigRequest at h
  obtain rfl := Host.Outcome.next.inj h
  clear h
  repeat' first | with_reducible assumption | with_reducible apply pcieConfig_keeps

theorem execLbpWindowAccess_keeps (p : PairId) (acc : LbpAccess) (hk : s.keeps kq km)
    (h : execLbpWindowAccess p acc s = .next st) : st.keeps kq km := by
  unfold execLbpWindowAccess at h
  obtain rfl := Host.Outcome.next.inj h
  clear h
  repeat' first | with_reducible assumption | with_reducible apply lbpAccess_keeps

theorem execLbpReadyTimeout_keeps (p : PairId) (hk : s.keeps kq km)
    (h : execLbpReadyTimeout p s = .next st) : st.keeps kq km := by
  unfold execLbpReadyTimeout at h
  obtain rfl := Host.Outcome.next.inj h
  clear h
  repeat' first | with_reducible assumption | with_reducible apply lbpTimeout_keeps

theorem execLbpSlaveRead_keeps (p : PairId) (addr : LbpCall) (width : Stall) (hk : s.keeps kq km)
    (h : execLbpSlaveRead p addr width s = .next st) : st.keeps kq km := by
  unfold execLbpSlaveRead at h
  obtain rfl := Host.Outcome.next.inj h
  clear h
  repeat' first | with_reducible assumption | with_reducible apply lbpRead_keeps

theorem execLbpSlaveWrite_keeps (p : PairId) (addr : LbpCall) (data : Word) (width : Stall) (hk : s.keeps kq km)
    (h : execLbpSlaveWrite p addr data width s = .next st) : st.keeps kq km := by
  unfold execLbpSlaveWrite at h
  obtain rfl := Host.Outcome.next.inj h
  clear h
  repeat' first | with_reducible assumption | with_reducible apply lbpSlaveWrite_keeps

theorem execLbpStartStrobe_keeps (p : PairId) (hk : s.keeps kq km)
    (h : execLbpStartStrobe p s = .next st) : st.keeps kq km := by
  unfold execLbpStartStrobe at h
  obtain rfl := Host.Outcome.next.inj h
  clear h
  repeat' first | with_reducible assumption | with_reducible apply lbpEvent_keeps

theorem execLbpBeat_keeps (p : PairId) (data : Word) (ts : Stamp) (hk : s.keeps kq km)
    (h : execLbpBeat p data ts s = .next st) : st.keeps kq km := by
  unfold execLbpBeat at h
  obtain rfl := Host.Outcome.next.inj h
  clear h
  repeat' first | with_reducible assumption | with_reducible apply lbpEvent_keeps

theorem execLbpEndStrobe_keeps (p : PairId) (hk : s.keeps kq km)
    (h : execLbpEndStrobe p s = .next st) : st.keeps kq km := by
  unfold execLbpEndStrobe at h
  obtain rfl := Host.Outcome.next.inj h
  clear h
  repeat' first | with_reducible assumption | with_reducible apply lbpEvent_keeps

theorem execLbpGapTimeout_keeps (p : PairId) (hk : s.keeps kq km)
    (h : execLbpGapTimeout p s = .next st) : st.keeps kq km := by
  unfold execLbpGapTimeout at h
  obtain rfl := Host.Outcome.next.inj h
  clear h
  repeat' first | with_reducible assumption | with_reducible apply lbpEvent_keeps

theorem execLbpModeChange_keeps (p : PairId) (value : Word) (hk : s.keeps kq km)
    (h : execLbpModeChange p value s = .next st) : st.keeps kq km := by
  unfold execLbpModeChange at h
  obtain rfl := Host.Outcome.next.inj h
  clear h
  repeat' first | with_reducible assumption | with_reducible apply lbpConfig_keeps

theorem execRegisterWrite_keeps (addr value : Word) (hk : s.keeps kq km)
    (h : execRegisterWrite addr value s = .next st) : st.keeps kq km := by
  unfold execRegisterWrite at h
  obtain rfl := Host.Outcome.next.inj h
  clear h
  repeat' first
    | with_reducible assumption
    | with_reducible apply issueReq_keeps
    | with_reducible apply vitrines_keeps
    | with_reducible apply storeWrite_keeps
    | with_reducible apply csrWrite_keeps
    | with_reducible apply keeps_ite
    | intro _
    | split

theorem execMtxInj_keeps (value : Word) (hk : s.keeps kq km)
    (h : execMtxInj value s = .next st) : st.keeps kq km := by
  unfold execMtxInj at h
  obtain rfl := Host.Outcome.next.inj h
  clear h
  repeat' first | with_reducible assumption | with_reducible apply mtxInject_keeps

theorem execMdioAccess_keeps (m : PairId) (value : Word) (phy : MdioPhy) (hk : s.keeps kq km)
    (h : execMdioAccess m value phy s = .next st) : st.keeps kq km := by
  unfold execMdioAccess at h
  obtain rfl := Host.Outcome.next.inj h
  clear h
  repeat' first | with_reducible assumption | with_reducible apply mdio_keeps | with_reducible apply keeps_ite | intro _

theorem execStartConfirm_keeps (value : Word) (hk : s.keeps kq km)
    (h : execStartConfirm value s = .next st) : st.keeps kq km := by
  unfold execStartConfirm at h
  obtain rfl := Host.Outcome.next.inj h
  clear h
  repeat' first | with_reducible assumption | with_reducible apply confirm_keeps

theorem execFailedStartClear_keeps  (hk : s.keeps kq km)
    (h : execFailedStartClear s = .next st) : st.keeps kq km := by
  unfold execFailedStartClear at h
  obtain rfl := Host.Outcome.next.inj h
  clear h
  repeat' first | with_reducible assumption | with_reducible apply failedClear_keeps

theorem execEthTransmitFrame_keeps (m : PairId) (hk : s.keeps kq km)
    (h : execEthTransmitFrame m s = .next st) : st.keeps kq km := by
  unfold execEthTransmitFrame at h
  obtain rfl := Host.Outcome.next.inj h
  clear h
  repeat' first | with_reducible assumption | with_reducible apply ethTransmit_keeps

theorem execEthReceiveFrame_keeps (m : PairId) (frame : EthFrame) (hk : s.keeps kq km)
    (h : execEthReceiveFrame m frame s = .next st) : st.keeps kq km := by
  unfold execEthReceiveFrame at h
  obtain rfl := Host.Outcome.next.inj h
  clear h
  repeat' first | with_reducible assumption | with_reducible apply ethReceive_keeps

theorem execEthLinkDown_keeps (m : PairId) (hk : s.keeps kq km)
    (h : execEthLinkDown m s = .next st) : st.keeps kq km := by
  unfold execEthLinkDown at h
  obtain rfl := Host.Outcome.next.inj h
  clear h
  repeat' first | with_reducible assumption | with_reducible apply ethLinkDown_keeps

theorem execEthLinkUp_keeps (m : EthUp) (hk : s.keeps kq km)
    (h : execEthLinkUp m s = .next st) : st.keeps kq km := by
  unfold execEthLinkUp at h
  obtain rfl := Host.Outcome.next.inj h
  clear h
  repeat' first
    | with_reducible assumption
    | with_reducible apply orReg_keeps
    | with_reducible apply modEth_keeps
    | with_reducible apply keeps_ite
    | intro _

theorem execMatrixRequest_keeps (m : MasterId) (req : ReqSpec) (hk : s.keeps kq km)
    (h : execMatrixRequest m req s = .next st) : st.keeps kq km := by
  unfold execMatrixRequest at h
  obtain rfl := Host.Outcome.next.inj h
  clear h
  repeat' first | with_reducible assumption | with_reducible apply issueReq_keeps | with_reducible apply keeps_ite | intro _

theorem execOrderedRelease_keeps (m : MasterId) (hk : s.keeps kq km)
    (h : execOrderedRelease m s = .next st) : st.keeps kq km := by
  unfold execOrderedRelease at h
  obtain rfl := Host.Outcome.next.inj h
  clear h
  repeat' first | with_reducible assumption | with_reducible apply release_keeps

theorem execTargetAccept_keeps (t : TargetId) (hk : s.keeps kq km)
    (h : execTargetAccept t s = .next st) : st.keeps kq km := by
  unfold execTargetAccept at h
  obtain rfl := Host.Outcome.next.inj h
  clear h
  repeat' first | with_reducible assumption | with_reducible apply accept_keeps

theorem execTargetAccess_keeps (t : TargetId) (hk : s.keeps kq km)
    (h : execTargetAccess t s = .next st) : st.keeps kq km := by
  unfold execTargetAccess at h
  obtain rfl := Host.Outcome.next.inj h
  clear h
  repeat' first | with_reducible assumption | with_reducible apply targetAccess_keeps

theorem execResponse_keeps (m : MasterId) (hk : s.keeps kq km)
    (h : execResponse m s = .next st) : st.keeps kq km := by
  unfold execResponse at h
  obtain rfl := Host.Outcome.next.inj h
  clear h
  repeat' first | with_reducible assumption | with_reducible apply respond_keeps

theorem execConfigImageRequest_keeps (p : PortId) (f : HlFrame) (hk : s.keeps kq km)
    (h : execConfigImageRequest p f s = .next st) : st.keeps kq km := by
  unfold execConfigImageRequest at h
  obtain rfl := Host.Outcome.next.inj h
  clear h
  repeat' first
    | with_reducible assumption
    | with_reducible apply hlReceive_keeps
    | with_reducible apply imageRequest_keeps
    | with_reducible apply keeps_ite
    | intro _

theorem execConfigResponse_keeps (p : PortId) (f : HlFrame) (loaded : Option ImgBody) (hk : s.keeps kq km)
    (h : execConfigResponse p f loaded s = .next st) : st.keeps kq km := by
  unfold execConfigResponse at h
  obtain rfl := Host.Outcome.next.inj h
  clear h
  repeat' first
    | with_reducible assumption
    | with_reducible apply hlReceive_keeps
    | with_reducible apply fetchTake_keeps
    | with_reducible apply keeps_ite
    | intro _

theorem execPowerOn_keeps (offer : BootOffer) (hk : s.keeps kq km)
    (h : execPowerOn offer s = .next st) : st.keeps kq km := by
  unfold execPowerOn at h
  obtain rfl := Host.Outcome.next.inj h
  clear h
  repeat' first | with_reducible assumption | with_reducible apply loseAlwaysOn_keeps | with_reducible apply originate_keeps

theorem execResetAssert_keeps  (hk : s.keeps kq km)
    (h : execResetAssert s = .next st) : st.keeps kq km := by
  unfold execResetAssert at h
  obtain rfl := Host.Outcome.next.inj h
  clear h
  repeat' first | with_reducible assumption | with_reducible apply resetFall_keeps

theorem execResetRelease_keeps (offer : BootOffer) (hk : s.keeps kq km)
    (h : execResetRelease offer s = .next st) : st.keeps kq km := by
  unfold execResetRelease at h
  obtain rfl := Host.Outcome.next.inj h
  clear h
  repeat' first | with_reducible assumption | with_reducible apply resetRise_keeps

theorem execDeviceReset_keeps (offer : BootOffer) (hk : s.keeps kq km)
    (h : execDeviceReset offer s = .next st) : st.keeps kq km := by
  unfold execDeviceReset at h
  obtain rfl := Host.Outcome.next.inj h
  clear h
  repeat' first
    | with_reducible assumption
    | with_reducible apply start_keeps
    | with_reducible apply runDue_keeps
    | with_reducible apply keeps_ite
    | intro _

theorem execBootMailboxGo_keeps (offer : BootOffer) (hk : s.keeps kq km)
    (h : execBootMailboxGo offer s = .next st) : st.keeps kq km := by
  unfold execBootMailboxGo at h
  obtain rfl := Host.Outcome.next.inj h
  clear h
  repeat' first
    | with_reducible assumption
    | with_reducible apply fromHost_keeps
    | with_reducible apply runDue_keeps
    | with_reducible apply keeps_ite
    | intro _
    | split

theorem execBootSourceTimeout_keeps (offer : BootOffer) (hk : s.keeps kq km)
    (h : execBootSourceTimeout offer s = .next st) : st.keeps kq km := by
  unfold execBootSourceTimeout at h
  obtain rfl := Host.Outcome.next.inj h
  clear h
  repeat' first
    | with_reducible assumption
    | with_reducible apply runDue_keeps
    | with_reducible apply sourceTimeout_keeps
    | with_reducible apply keeps_ite
    | intro _
    | split

theorem execConfirmationWindowExpiry_keeps (offer : BootOffer) (hk : s.keeps kq km)
    (h : execConfirmationWindowExpiry offer s = .next st) : st.keeps kq km := by
  unfold execConfirmationWindowExpiry at h
  obtain rfl := Host.Outcome.next.inj h
  clear h
  repeat' first
    | with_reducible assumption
    | with_reducible apply start_keeps
    | with_reducible apply runDue_keeps
    | with_reducible apply keeps_ite
    | intro _
    | split

theorem execBarometerReset_keeps (cause : BaroCause) (offer : BootOffer) (hk : s.keeps kq km)
    (h : execBarometerReset cause offer s = .next st) : st.keeps kq km := by
  unfold execBarometerReset at h
  obtain rfl := Host.Outcome.next.inj h
  clear h
  repeat' first | with_reducible assumption | with_reducible apply baroReset_keeps

theorem execXinLossTimeout_keeps (offer : BootOffer) (hk : s.keeps kq km)
    (h : execXinLossTimeout offer s = .next st) : st.keeps kq km := by
  unfold execXinLossTimeout at h
  obtain rfl := Host.Outcome.next.inj h
  clear h
  repeat' first
    | with_reducible assumption
    | with_reducible apply runDue_keeps
    | with_reducible apply baroReset_keeps
    | with_reducible apply keeps_ite
    | intro _
    | split
    | dsimp only
    | with_reducible apply keeps_mk

theorem execWakePinEdge_keeps (offer : BootOffer) (hk : s.keeps kq km)
    (h : execWakePinEdge offer s = .next st) : st.keeps kq km := by
  unfold execWakePinEdge at h
  obtain rfl := Host.Outcome.next.inj h
  clear h
  repeat' first
    | with_reducible assumption
    | with_reducible apply wake_keeps
    | with_reducible apply runDue_keeps
    | with_reducible apply keeps_ite
    | intro _

theorem execPwrAlarm_keeps (offer : BootOffer) (hk : s.keeps kq km)
    (h : execPwrAlarm offer s = .next st) : st.keeps kq km := by
  unfold execPwrAlarm at h
  obtain rfl := Host.Outcome.next.inj h
  clear h
  repeat' first
    | with_reducible assumption
    | with_reducible apply wake_keeps
    | with_reducible apply runDue_keeps
    | with_reducible apply keeps_ite
    | intro _

theorem execMonitorInfo_keeps  (hk : s.keeps kq km)
    (h : execMonitorInfo s = .next st) : st.keeps kq km := by
  unfold execMonitorInfo at h
  obtain rfl := Host.Outcome.next.inj h
  clear h
  repeat' first | with_reducible assumption | with_reducible apply monitor_keeps | with_reducible apply monitorInfo_keeps

theorem execMonitorRead_keeps (addr : Word) (hk : s.keeps kq km)
    (h : execMonitorRead addr s = .next st) : st.keeps kq km := by
  unfold execMonitorRead at h
  obtain rfl := Host.Outcome.next.inj h
  clear h
  repeat' first | with_reducible assumption | with_reducible apply monitor_keeps | with_reducible apply monitorRead_keeps

theorem execMonitorWrite_keeps (addr value : Word) (hk : s.keeps kq km)
    (h : execMonitorWrite addr value s = .next st) : st.keeps kq km := by
  unfold execMonitorWrite at h
  obtain rfl := Host.Outcome.next.inj h
  clear h
  repeat' first | with_reducible assumption | with_reducible apply monitor_keeps | with_reducible apply monitorWrite_keeps

theorem execMonitorLoad_keeps (n : Word) (bytes : List Byte) (crc : Word) (hk : s.keeps kq km)
    (h : execMonitorLoad n bytes crc s = .next st) : st.keeps kq km := by
  unfold execMonitorLoad at h
  obtain rfl := Host.Outcome.next.inj h
  clear h
  repeat' first | with_reducible assumption | with_reducible apply monitor_keeps | with_reducible apply monitorLoad_keeps

theorem execMonitorCheck_keeps (body : ImgBody) (hk : s.keeps kq km)
    (h : execMonitorCheck body s = .next st) : st.keeps kq km := by
  unfold execMonitorCheck at h
  obtain rfl := Host.Outcome.next.inj h
  clear h
  repeat' first
    | with_reducible assumption
    | with_reducible apply monitor_keeps
    | with_reducible apply monitorCheck_keeps
    | with_reducible apply monLineDone_keeps
    | with_reducible apply keeps_ite
    | intro _

theorem execMonitorProgram_keeps (slotB flash : Bool) (hk : s.keeps kq km)
    (h : execMonitorProgram slotB flash s = .next st) : st.keeps kq km := by
  unfold execMonitorProgram at h
  obtain rfl := Host.Outcome.next.inj h
  clear h
  repeat' first
    | with_reducible assumption
    | with_reducible apply monitor_keeps
    | with_reducible apply monitorProgram_keeps
    | with_reducible apply monLineDone_keeps
    | with_reducible apply keeps_ite
    | intro _

theorem execMonitorBoot_keeps (offer : BootOffer) (hk : s.keeps kq km)
    (h : execMonitorBoot offer s = .next st) : st.keeps kq km := by
  unfold execMonitorBoot at h
  obtain rfl := Host.Outcome.next.inj h
  clear h
  repeat' first
    | with_reducible assumption
    | with_reducible apply failedClear_keeps
    | with_reducible apply start_keeps
    | with_reducible apply monitor_keeps
    | with_reducible apply keeps_ite
    | intro _

theorem execMonitorUnknownCommand_keeps  (hk : s.keeps kq km)
    (h : execMonitorUnknownCommand s = .next st) : st.keeps kq km := by
  unfold execMonitorUnknownCommand at h
  obtain rfl := Host.Outcome.next.inj h
  clear h
  repeat' first | with_reducible assumption | with_reducible apply answer_keeps | with_reducible apply monitor_keeps

theorem execTapInstruction_keeps (ir : Byte) (bsr : Option Cells) (hk : s.keeps kq km)
    (h : execTapInstruction ir bsr s = .next st) : st.keeps kq km := by
  unfold execTapInstruction at h
  obtain rfl := Host.Outcome.next.inj h
  clear h
  repeat' first | with_reducible assumption | with_reducible apply tapInstruction_keeps

theorem execTestLogicReset_keeps  (hk : s.keeps kq km)
    (h : execTestLogicReset s = .next st) : st.keeps kq km := by
  unfold execTestLogicReset at h
  obtain rfl := Host.Outcome.next.inj h
  clear h
  repeat' first
    | with_reducible assumption
    | with_reducible apply keeps_ite
    | intro _
    | split
    | dsimp only
    | with_reducible apply keeps_mk

theorem execTimeBaseSlew_keeps  (hk : s.keeps kq km)
    (h : execTimeBaseSlew s = .next st) : st.keeps kq km := by
  unfold execTimeBaseSlew at h
  obtain rfl := Host.Outcome.next.inj h
  clear h
  repeat' first | with_reducible assumption | with_reducible apply tick_keeps | with_reducible apply keeps_ite | intro _

end Sys2Proof.Laws
end

