-- ==== Sys2Proof/Laws/Units.lean ====
section
/-! SUPPORT. What a trigger and a completion do to a unit, its result ports and the in-flight table (R104, R106, R136). -/

namespace Sys2Proof.Laws

open Sys2Proof.Machine

variable (s : State)

/-! Units -/

@[simp] theorem unit_setUnit_same (e : EngId) (u : Fin 16) (x : UnitRes) : (s.setUnit e u x).unit e u = x := by
  simp [State.unit, State.setUnit, modEng_eq]

theorem unit_setUnit_other {e f : EngId} {u v : Fin 16} (x : UnitRes) (h : f ≠ e ∨ v ≠ u) :
    (s.setUnit e u x).unit f v = s.unit f v := by
  unfold State.unit State.setUnit
  rw [modEng_eq]
  by_cases hf : f = e
  · subst hf
    have hv : u.val ≠ v.val := fun q => (h.resolve_left (by simp)) (Fin.ext q.symm)
    simp [hv]
  · rw [eng_setEng_other _ _ hf]

theorem eng_setUnit_other {e f : EngId} (u : Fin 16) (x : UnitRes) (h : f ≠ e) : (s.setUnit e u x).eng f = s.eng f := by
  unfold State.setUnit
  rw [modEng_eq, eng_setEng_other _ _ h]

theorem eng_setUnit_same (e : EngId) (u : Fin 16) (x : UnitRes) :
    (s.setUnit e u x).eng e = { s.eng e with units := (s.eng e).units.set u.val x u.isLt } := by
  unfold State.setUnit
  rw [modEng_eq, eng_setEng_same]

@[simp] theorem reg_setUnit (e : EngId) (u : Fin 16) (x : UnitRes) (a : Nat) : (s.setUnit e u x).reg a = s.reg a := rfl
@[simp] theorem unit_setReg (a : Nat) (v : Word) (e : EngId) (u : Fin 16) : (s.setReg a v).unit e u = s.unit e u := rfl
@[simp] theorem readByte_setUnit (e : EngId) (u : Fin 16) (x : UnitRes) (a : Nat) : (s.setUnit e u x).readByte a = s.readByte a := rfl
@[simp] theorem port_setUnit (e f : EngId) (u : Fin 16) (x : UnitRes) (k : Nat) : (s.setUnit e u x).port f k = s.port f k := by
  unfold State.port
  by_cases h : f = e
  · subst h; rw [eng_setUnit_same]; rfl
  · rw [eng_setUnit_other s u x h]

theorem setUnit_eq (e : EngId) (u : Fin 16) (x : UnitRes) : s.setUnit e u x = { s with engines := (s.setUnit e u x).engines } := rfl

/-- A register write outside the map's switch leaves every byte of memory as it reads. -/
theorem readByte_setReg {a : Nat} (v : Word) (h : a ≠ Reg.sysCtl) (c : Nat) : (s.setReg a v).readByte c = s.readByte c := by
  have hr : (s.setReg a v).region c = s.region c := by
    unfold State.region State.rbit
    rw [reg_setReg_other s v (Ne.symm h)]
  unfold State.readByte
  rw [hr]
  rfl

/-! The in-flight table -/

theorem iftUsed_iftTake (e : EngId) (n : Nat) (h : s.iftUsed e + n < 512) : (s.iftTake e n).iftUsed e = s.iftUsed e + n := by
  unfold State.iftTake State.iftUsed State.rfld at *
  simp only [State.setFld, reg_setReg_same]
  split <;> simp only [reg_setReg_same] <;> (try rw [fldOf_putFld_other _ _ _ _ _ _ (by omega)]) <;>
    rw [fldOf_putFld_same _ _ _ _ (by omega), Nat.mod_eq_of_lt (by omega)]

theorem iftMark_iftTake (e : EngId) (n : Nat) (h : s.iftUsed e + n < 512) :
    (s.iftTake e n).rfld (Reg.teIft e) 16 9 = max (s.rfld (Reg.teIft e) 16 9) (s.iftUsed e + n) := by
  unfold State.iftTake State.iftUsed State.rfld at *
  simp only [State.setFld, reg_setReg_same]
  have h0 : fldOf (putFld (s.reg (Reg.teIft e)) 0 9 (fldOf (s.reg (Reg.teIft e)) 0 9 + n)) 16 9 = fldOf (s.reg (Reg.teIft e)) 16 9 :=
    fldOf_putFld_other _ _ _ _ _ _ (by omega)
  rw [h0]
  split
  · next hlt =>
    simp only [reg_setReg_same]
    rw [fldOf_putFld_same _ _ _ _ (by omega), Nat.mod_eq_of_lt (by omega), max_eq_right (by omega)]
  · next hge =>
    rw [reg_setReg_same, h0, max_eq_left (by omega)]

theorem reg_iftTake_other (e : EngId) (n a : Nat) (h : a ≠ Reg.teIft e) : (s.iftTake e n).reg a = s.reg a := by
  unfold State.iftTake
  dsimp only
  split_ifs <;> simp only [setFld_eq, reg_setReg_other _ _ h]

theorem iftTake_frame (e : EngId) (n : Nat) : s.iftTake e n = { s with csr := (s.iftTake e n).csr } := by
  unfold State.iftTake
  dsimp only
  split_ifs <;> rfl

theorem readByte_iftTake (e : EngId) (n a : Nat) : (s.iftTake e n).readByte a = s.readByte a := by
  have hne : Reg.teIft e.val ≠ Reg.sysCtl := by unfold Reg.teIft Reg.sysCtl; omega
  unfold State.iftTake
  dsimp only
  split_ifs <;> simp only [setFld_eq, readByte_setReg _ _ hne]

theorem reg_iftFree_other (e : EngId) (n a : Nat) (h : a ≠ Reg.teIft e) : (s.iftFree e n).reg a = s.reg a := by
  unfold State.iftFree State.setFld
  exact reg_setReg_other _ _ h

theorem iftUsed_iftFree (e : EngId) (n : Nat) : (s.iftFree e n).iftUsed e = s.iftUsed e - n := by
  unfold State.iftFree State.iftUsed State.rfld State.setFld
  rw [reg_setReg_same, fldOf_putFld_same _ _ _ _ (by omega), Nat.mod_eq_of_lt]
  have := fldOf_lt (s.reg (Reg.teIft e)) 0 9
  omega

/-! Result ports -/

/-- With every completed result dropped, only operations still running are left. -/
theorem mem_onTrigger {u : UnitRes} {r : Res} (h : r ∈ u.onTrigger.ops) : r.done = false := by
  unfold UnitRes.onTrigger at h
  simp only [List.mem_filter, List.mem_map] at h
  obtain ⟨⟨r', -, rfl⟩, ha⟩ := h
  by_cases hd : r'.done = true
  · rw [if_pos hd] at ha; simp [Res.alive, Res.drop, hd] at ha
  · rw [if_neg hd]; simpa using hd

/-- An injection that does not wait changes nothing. -/
theorem meetSpar_none (e : EngId) (k : Nat) (h : (s.eng e).injSpar = false) : s.meetSpar e k = s := by
  simp [State.meetSpar, h]

/-- A trigger with a latency of 1 fc: the unit's results are the running ones, dropped, and its own, complete. -/
theorem trigger_one (e : EngId) (u : Fin 16) (t occ : Nat) (q q1 : Word) (two : Bool) (flag : Word) :
    s.trigger e u t 1 occ q q1 two flag =
      s.setUnit e u { (s.unit e u).onTrigger with
        ops := ((s.unit e u).onTrigger.ops.map Res.drop).filter Res.alive ++
          [{ due := t + 1, done := true, q := q, q1 := q1, uq := true, uq1 := two, flag := flag, ift := false }]
        free := t + occ } := by
  simp [State.trigger]

/-- A trigger with a longer latency: its operation runs, the completed results are discarded, and one in-flight entry is taken. -/
theorem trigger_long (e : EngId) (u : Fin 16) (t lat occ : Nat) (q q1 : Word) (two : Bool) (flag : Word) (h : 1 < lat) :
    s.trigger e u t lat occ q q1 two flag =
      (s.setUnit e u { (s.unit e u).onTrigger with
        ops := (s.unit e u).onTrigger.ops ++
          [{ due := t + lat, done := false, q := q, q1 := q1, uq := true, uq1 := two, flag := flag, ift := true }]
        free := t + occ }).iftTake e 1 := by
  have h' : ¬ lat ≤ 1 := by omega
  simp [State.trigger, h, h']

/-- Dropped results owe nothing. -/
theorem find_dropped (l : List Res) (r : Res) (hr : r.uq = true) :
    (((l.map Res.drop).filter Res.alive) ++ [r]).find? (fun x => x.uq) = some r := by
  rw [List.find?_append]
  have : ((l.map Res.drop).filter Res.alive).find? (fun x => x.uq) = none := by
    rw [List.find?_eq_none]
    intro x hx
    simp only [List.mem_filter, List.mem_map] at hx
    obtain ⟨⟨y, -, rfl⟩, -⟩ := hx
    simp [Res.drop]
  simp [this, hr]

end Sys2Proof.Laws
end

