-- ==== Sys2Proof/WellFormed.lean ====
section
/-! DEFINITION. Which commands are well formed: what the operand types leave open and the rules fix. A meaning is total and says itself
what an ill-formed command does; these checks say what a sender may send. -/

namespace Sys2Proof

/-- A word-aligned register or store address (R7). -/
def wordAligned (a : Word) : Bool := a.toNat % 4 == 0

/-- The width of an Almanac table access in bytes (R57). -/
def TableSize.bytes : TableSize → Nat
  | .w32 => 4 | .w64 => 8 | .w128 => 16

/-- R304: 1 to 256 bytes within one 256-byte block, at most 32 from an engine; a write carries its bytes; an atomic is one aligned
word. -/
def ReqSpec.sendable (q : ReqSpec) (m : MasterId) : Bool :=
  decide (1 ≤ q.len) && decide (q.addr.toNat % 256 + q.len ≤ 256) && (decide (16 ≤ m.val) || decide (q.len ≤ 32)) &&
  (match q.kind with
   | .read => q.data.isEmpty
   | .write => q.data.length == q.len
   | .atomAdd => q.len == 4 && wordAligned q.addr && q.data.length == 4
   | .atomSwap => q.len == 4 && wordAligned q.addr && q.data.length == 4)

/-- A frame of a type and direction: at most 256 bytes of payload and 64 hops (R324, R325). -/
def HlFrame.fits (f : HlFrame) (typ : Nibble) (rsp : Bool) : Bool :=
  f.typ == typ && f.rsp == rsp && decide (f.payload.length ≤ 256) && decide (f.hops.toNat ≤ 64)

/-- An inbound PCIe request carries data exactly when it writes, 1 to 256 bytes (R352). -/
def PcieReq.fits (r : PcieReq) : Bool :=
  decide (1 ≤ r.len) && decide (r.len ≤ 256) && (if r.write then r.data.length == r.len else r.data.isEmpty)

/-- A well-formed command. -/
def Instr.wellFormed : Instr → Bool
  | .registerWrite addr _ => wordAligned addr
  | .tableWrite _ off size _ => off.val % size.bytes == 0
  | .matrixRequest m q => q.sendable m
  | .masterReset m => decide (m.toNat < 33)
  | .tsyncReceive _ f _ => f.fits 1 false
  | .angleReceive _ f => f.fits 2 false
  | .msgReceive _ f => f.fits 3 false
  | .msgResponse _ f => f.fits 3 true
  | .rreadRequest _ f => f.fits 4 false
  | .rwriteRequest _ f => f.fits 5 false
  | .ratomRequest _ f => f.fits 6 false
  | .remoteResponse _ f => f.rsp && decide (f.payload.length ≤ 256)
  | .configImageRequest _ f => f.fits 7 false
  | .configResponse _ f _ => f.fits 7 true
  | .pcieInboundRequest r => r.fits
  | .sysInjCe st => decide (st.toNat < 3)
  | .sysInjUe st => decide (st.toNat < 3)
  | .qspiCommand _ (.erase off len) => decide (off + len ≤ 0x800_0000)
  | .qspiCommand _ (.program off bs) => decide (off + bs.length ≤ 0x800_0000)
  | .i2cTargetAddressed _ b => decide (b.wr.length ≤ 65536)
  | .monitorRead a => wordAligned a
  | .monitorWrite a _ => wordAligned a
  | .monitorLoad n bs _ => n.toNat == bs.length
  | _ => true

end Sys2Proof
end

