-- ==== Sys2Proof/Tests/Slice0.lean ====
section
/-! SUPPORT. Small tests: ill-formed commands are refused, one step of a few commands with values of the spec, and for the hypotheses of
the obligations states and operands that meet them. -/

open Sys2Proof Sys2Proof.Machine

section

set_option maxRecDepth 20000
set_option Elab.async false

/-! Builders -/

/-- The reset state with some registers set. -/
def tstRegs (rs : List (Nat × Word)) : State := rs.foldl (fun s r => s.setReg r.1 r.2) State.reset

/-- Engine 0 of a released device is `x`, and some registers are set. -/
def tstEng (x : Engine) (rs : List (Nat × Word) := []) : State :=
  { tstRegs rs with released := true, engines := State.reset.engines.set 0 x }

/-- An engine that runs. -/
def tstRun : Engine := { Engine.zero with clocked := true }

/-- An engine that runs, with words of its own. -/
def tstPorts (ps : List (Nat × Word)) : Engine := { tstRun with ports := ps }

/-- An engine that runs in compact addressing with BANK at its own Tile Store. -/
def tstOwn : Engine := tstPorts [(sBANK, 0x2000)]

/-! Engines: compute and load-store units -/

def tstAlu : State := tstEng (tstPorts [(opO 0, 7)])

theorem test_wit_alu_mul : tstAlu.canTrigger 0 (aluU 0) tstAlu.now 1 = true ∧ (tstAlu.eng 0).injSpar = false ∧
    tstAlu.canTrigger 0 (mulU 1) tstAlu.now 3 = true := by decide

theorem test_wit_mac : tstAlu.canTrigger 0 (macU 1) tstAlu.now 4 = true ∧ (tstAlu.eng 0).injSpar = false := by decide

theorem test_wit_div : tstAlu.canTrigger 0 8 tstAlu.now 18 = true ∧ (tstAlu.eng 0).injSpar = false := by decide

theorem test_wit_bit : tstAlu.canTrigger 0 9 tstAlu.now 2 = true ∧ tstAlu.canTrigger 0 9 tstAlu.now 1 = true ∧
    (tstAlu.eng 0).injSpar = false := by decide

/-- Test of R166: 0x80000000 divided by −1 gives DOV. -/
theorem test_div_overflow : (match exec (.divDivs 0 0xFFFF_FFFF) (tstEng (tstPorts [(opO 8, 0x8000_0000)])) with
    | .next t => (t.unit 0 8).ops.map (fun r => (r.q, r.q1, r.flag, r.due))
    | _ => []) = [(0x8000_0000, 0, 2, 18)] := by decide

/-- Test of the table of R166: −7 divided by 2. -/
theorem test_div_signed : (match exec (.divDivs 0 2) (tstEng (tstPorts [(opO 8, 0xFFFF_FFF9)])) with
    | .next t => (t.unit 0 8).ops.map (fun r => (r.q, r.q1, r.flag))
    | _ => []) = [(0xFFFF_FFFD, 0xFFFF_FFFF, 0)] := by decide

/-- Test of the worked case of R164: the accumulator after lerp at u = 0.25. -/
theorem test_mac_lerp : (match exec (.macLerp 0 0 0x4000_0000) (tstEng (tstPorts [(opO 6, 0x3E8), (opO1 6, 0x7D0)])) with
    | .next t => t.acc 0 0
    | _ => 0) = 0x0000_04E2_0000_0000 := by decide

/-- The last word that a local access reaches without crossing the mirrored half. -/
def tstLsu : State := tstEng tstOwn

theorem test_wit_local_store : lsuFree tstLsu 0 ∧ (tstLsu.access 0 (lsuAsks tstLsu 0 1 false .write 4 false false 0xFFFC)).cause = 0 ∧
    (tstLsu.eng 0).sbuf[1].length < 4 ∧ (tstLsu.eng 0).lwait = [] ∧ tstLsu.wildSeg 0 0xFFFC = false := by unfold lsuFree; decide

def tstDrain : State :=
  { tstEng { tstOwn with sbuf := Vector.replicate 2 [] |>.set 0 [⟨0, false, 0x2000_0010, [1, 2, 3, 4], 0, none⟩], hold := some .sync } with now := 1 }

theorem test_wit_drain : tstDrain.live 0 = true ∧ storesQuiet tstDrain 0 ∧ tstDrain.nearFree 0 = true ∧
    tstDrain.fetchFirst 0 = false ∧ (tstDrain.eng 0).oldestLocal = some (0, ⟨0, false, 0x2000_0010, [1, 2, 3, 4], 0, none⟩) ∧
    (∀ i, i < 4 → ownWindow 0 (0x2000_0010 + i) = true) := by unfold storesQuiet; decide

theorem test_wit_local_load : lsuFree tstLsu 0 ∧ storesQuiet tstLsu 0 ∧
    (tstLsu.access 0 (lsuAsks tstLsu 0 0 false .read 4 false false 0x16)).cause = 0 ∧
    (tstLsu.access 0 (lsuAsks tstLsu 0 0 false .read 4 false false 0x16)).split = true ∧ tstLsu.nearFree 0 = true ∧
    (tstLsu.eng 0).lwait = [] ∧ tstLsu.wildSeg 0 0x16 = false ∧ (tstLsu.eng 0).overlap (keysOf 0x2000_0016 4) = [] := by unfold lsuFree storesQuiet; decide

theorem test_wit_forward : lsuFree { tstDrain with engines := tstDrain.engines.set 0 { tstDrain.eng 0 with hold := none } } 0 ∧
    tstDrain.cur.borrow = none ∧ tstDrain.wildSeg 0 0x12 = false ∧ (tstDrain.access 0 (lsuAsks tstDrain 0 0 false .read 2 false false 0x12)).cause = 0 ∧
    (tstDrain.access 0 (lsuAsks tstDrain 0 0 false .read 2 false false 0x12)).sys = 0x2000_0012 ∧
    youngest ((tstDrain.eng 0).overlap (keysOf 0x2000_0012 2)) = some ⟨0, false, 0x2000_0010, [1, 2, 3, 4], 0, none⟩ ∧
    (∀ i, i < 4 → memKey (0x2000_0010 + i) = memKey 0x2000_0010 + i) := by unfold lsuFree; decide

theorem test_wit_local_atomic : lsuFree tstLsu 0 ∧ storesQuiet tstLsu 0 ∧
    (tstLsu.access 0 (lsuAsks tstLsu 0 0 false .atomAdd 4 false false 0x10)).cause = 0 ∧
    tstLsu.wildSeg 0 0x10 = false ∧ (tstLsu.eng 0).overlap (keysOf 0x2000_0010 4) = [] := by unfold lsuFree storesQuiet; decide

theorem test_wit_far : lsuFree tstLsu 0 ∧ (tstLsu.access 0 (lsuAsks tstLsu 0 0 true .write 4 false false 0x16)).cause = 0 ∧
    (tstLsu.eng 0).overlap (keysOf 0x2000_0016 4) = [] ∧ tstLsu.iftUsed 0 < 256 ∧ (tstLsu.eng 0).farOwed 0 < 96 ∧
    (tstLsu.eng 0).farq = [] ∧ (tstLsu.eng 0).sbuf[0].length < 4 ∧ tstLsu.wildSeg 0 0x16 = false := by
  unfold lsuFree; decide

def tstRes : Res := ⟨3, false, 4, 5, true, true, 1, true⟩

def tstLoad : FarOp := ⟨1, 0, .read, 2, true, 0, 0, [⟨0, 0, some .okay, [1, 2]⟩], 1, 0, none, none, none⟩
def tstStore : FarOp := ⟨2, 0, .write, 4, false, 0, 0, [⟨1, 0, some .okay, []⟩], 1, 0, none, none, none⟩

def tstOwed : State :=
  { tstEng { tstOwn with
      units := Vector.replicate 16 { UnitRes.zero with ops := [tstRes] }
      lq := Vector.replicate 2 [⟨3, 9, false, 0, 0, false⟩]
      far := [tstLoad, tstStore] }
    [(Reg.teIft 0, 3)] with now := 3 }

theorem test_wit_results : (tstOwed.eng 0).clocked = true ∧ (tstOwed.unit 0 4).running = some tstRes ∧ 0 < tstOwed.iftUsed 0 ∧
    tstOwed.live 0 = true ∧ (tstOwed.eng 0).lq[1] = [⟨3, 9, false, 0, 0, false⟩] ∧
    (tstOwed.eng 0).far.find? (fun f => f.lsu == 0 && f.kind != .write && f.micro.isNone) = some tstLoad ∧
    tstLoad.halves.length = tstLoad.parts ∧ tstLoad.bytes.length = tstLoad.size ∧
    (tstOwed.eng 0).far.find? (fun f => f.lsu == 0 && f.kind == .write && f.ready) = some tstStore := by decide

/-- Segmented addressing, with one descriptor of 16 bytes for reads. -/
def tstSeg : State :=
  tstEng (tstPorts [(keySeg 1 0, 0x2000_0000), (keySeg 1 1, 15), (keySeg 1 3, 3)]) [(Reg.teCfg 0, 0x100)]

theorem test_wit_address : tstLsu.rbit (Reg.teCfg 0) 8 = false ∧ tstSeg.rbit (Reg.teCfg 0) 8 = true ∧
    tstSeg.rbit (Reg.teMemctl 0) 0 = true ∧ (tstSeg.xlatNow 0 0x0000_0000 0 4 1).2 = 1 ∧ (tstSeg.xlatNow 0 0x2000_000D 0 4 1).2 = 2 ∧
    (tstSeg.xlatNow 0 0x2000_000C 0 4 2).2 = 3 ∧ (tstSeg.xlatNow 0 0x2000_000C 0 4 1).2 = 0 ∧ tstSeg.runs 0 = true ∧
    (tstSeg.eng 0).sync = none ∧ (tstSeg.access 0 (lsuAsks tstSeg 0 0 false .read 4 false false 0x2000_000D)).cause ≠ 0 := by decide

/-- A local store, a local atomic and a far load that fail the alignment check or the checks of a descriptor. -/
theorem test_wit_fault : tstSeg.runs 0 = true ∧ (tstSeg.eng 0).sync = none ∧
    (tstSeg.access 0 (lsuAsks tstSeg 0 1 false .write 4 false false 0x2000_000D)).cause ≠ 0 ∧
    (tstSeg.access 0 (lsuAsks tstSeg 0 0 false .atomAdd 4 false false 0x2000_0002)).cause ≠ 0 ∧
    (tstSeg.access 0 (lsuAsks tstSeg 0 0 true .read 4 false false 0x4000_0000)).cause ≠ 0 := by decide

theorem test_wit_bmu : lsuFree tstLsu 0 ∧ (tstLsu.eng 0).bmu = none ∧ (tstLsu.eng 0).stores = [] ∧ tstLsu.iftUsed 0 < 256 := by
  unfold lsuFree; decide

def tstBmuOp : BmuOp :=
  { code := 2, size := 4, desc := false, meets := false, wild := false, bank := 0x2000, segs := List.replicate 32 0, mask := 0,
    next := 0, stop := false, elems := [], fin := none, due := 0, frame := none }

/-- A result that is due. -/
def tstDue : Res := ⟨1, false, 4, 5, true, true, 1, true⟩

def tstBmu : State :=
  tstEng { tstPorts [(sBCNT, 1), (sBDST, 0x20)] with
    units := Vector.replicate 16 { UnitRes.zero with ops := [tstDue] }
    bmu := some tstBmuOp, fetchAt := 9 } [(Reg.teIft 0, 1)]

theorem test_wit_bmu_runs : lsuFree tstBmu 0 ∧ (tstBmu.eng 0).bmu = some tstBmuOp ∧ tstBmu.iftUsed 0 = 1 ∧
    tstBmu.canTrigger 0 12 tstBmu.now 2 = true ∧ (tstBmu.unit 0 12).ops = [tstDue] ∧ tstBmu.live 0 = true ∧ tstBmu.port 0 sBCNT ≠ 0 ∧
    (tstBmu.bmuXlat 0 tstBmuOp (tstBmu.port 0 sBDST) 4 permW).2 = 0 ∧
    (∀ i, i < 4 → ownWindow 0 ((tstBmu.bmuXlat 0 tstBmuOp (tstBmu.port 0 sBDST) 4 permW).1 + i) = true) ∧ storesQuiet tstBmu 0 ∧
    tstBmu.nearFree 0 = true ∧ tstBmu.bmuWraps 0 tstBmuOp (tstBmu.port 0 sBDST) = false ∧
    tstBmu.drainWaits 0 = false ∧ tstBmu.fetchFirst 0 = false := by unfold lsuFree storesQuiet; decide

/-- An operation that is decided with status 2. -/
def tstBmuFin : State :=
  tstEng { tstRun with units := Vector.replicate 16 { UnitRes.zero with ops := [tstRes] }, bmu := some { tstBmuOp with fin := some 2 } }
    [(Reg.teIft 0, 1)]

theorem test_wit_bmu_finish : (tstBmuFin.eng 0).bmu = some { tstBmuOp with fin := some 2 } ∧ tstBmuOp.outstanding = 0 ∧
    (tstBmuFin.unit 0 12).ops = [tstRes] ∧ 0 < tstBmuFin.iftUsed 0 := by decide

/-- An operation of code `c` on words with `n` elements left, and elements in hand. -/
def tstBmuAt (c : Nat) (n src : Word) (els : List BmuElem) : State :=
  (tstEng { tstPorts [(sBCNT, n), (sBSRC, src), (sBDST, 0x40), (sBANK, 0x2000)] with
    bmu := some { tstBmuOp with code := c, elems := els }, fetchAt := 9 }).writeBytes 0x2000_0020 [1, 2, 3, 4]

def tstBmuElem : BmuElem := ⟨4, 0x20, 0x40, some [1, 2, 3, 4], none, [], [], none⟩

theorem test_wit_bmu_read : ∀ c ∈ [0, 1, 3, 4, 5],
    let s := tstBmuAt c 2 0x20 []
    let o : BmuOp := { tstBmuOp with code := c }
    bmuRuns s 0 o ∧ s.bmuWraps 0 o 0x20 = false ∧ s.port 0 sBCNT = 2 ∧ s.port 0 sBSRC = 0x20 ∧ (s.bmuXlat 0 o 0x20 4 permR).2 = 0 ∧
    s.bmuSpan 0 o 0x20 0x40 8 = 4 ∧ ownWindow 0 (s.bmuXlat 0 o 0x20 4 permR).1 = true ∧ bmuPortFree s 0 := by
  unfold bmuRuns bmuPortFree storesQuiet; decide +kernel

theorem test_wit_bmu_second : ∀ c ∈ [0, 1, 5],
    let s := tstBmuAt c 1 0x20 [tstBmuElem]
    let o : BmuOp := { tstBmuOp with code := c, elems := [tstBmuElem] }
    bmuRuns s 0 o ∧ bmuHolds o tstBmuElem [1, 2, 3, 4] ∧ s.bmuWraps 0 o 0x40 = false ∧ (s.bmuXlat 0 o 0x40 4 permW).2 = 0 ∧
    (∀ i, i < 4 → ownWindow 0 ((s.bmuXlat 0 o 0x40 4 permW).1 + i) = true) ∧ bmuPortFree s 0 := by
  unfold bmuRuns bmuHolds bmuPortFree storesQuiet; decide +kernel

/-- An element of fill in Main Store whose address is 6 modulo 8 becomes two requests. -/
def tstBmuFar : State :=
  tstEng { tstPorts [(sBCNT, 2), (sBDST, 0x0006), (sBANK, 0x8000)] with bmu := some { tstBmuOp with bank := 0x8000 }, fetchAt := 9 }

theorem test_wit_bmu_far : bmuRuns tstBmuFar 0 { tstBmuOp with bank := 0x8000 } ∧
    tstBmuFar.bmuNext 0 { tstBmuOp with bank := 0x8000 } = some ⟨4, 0, 0x0006, none, none, [], [], none⟩ ∧
    tstBmuFar.bmuWraps 0 { tstBmuOp with bank := 0x8000 } 0x0006 = false ∧
    (tstBmuFar.bmuXlat 0 { tstBmuOp with bank := 0x8000 } 0x0006 4 permW).2 = 0 ∧
    ownWindow 0 (tstBmuFar.bmuXlat 0 { tstBmuOp with bank := 0x8000 } 0x0006 4 permW).1 = false := by
  unfold bmuRuns; decide +kernel
/-! Engines: control, exceptions, ports, fetch -/

def tstCtl : State := tstEng { tstOwn with hold := some .sync, pend := some (sUPC, 5), rep := 3 }

theorem test_wit_control : runsFree tstLsu 0 ∧ tstCtl.runs 0 = true ∧ tstCtl.storesDone 0 = true ∧ (tstCtl.eng 0).hold = some .sync ∧
    (tstCtl.eng 0).pend = some (sUPC, 5) ∧ runsFree tstCtl 0 ∧ (tstCtl.eng 0).rep ≠ 0 := by unfold runsFree; decide

/-- Test of R138: a jump's target is aligned and two delay groups follow. -/
theorem test_jump : (match exec (.ctlJmp 0 0x123) tstLsu with
    | .next t => ((t.eng 0).tgt, (t.eng 0).dly)
    | _ => (0, 0)) = (0x120, 2) := by decide +kernel

def tstTrap : State := tstEng { tstOwn with trap := some (7, 0) }
def tstAsync : State := { tstEng { tstOwn with apend := [(13, 0)] } with now := 4 }
def tstSync : State := tstEng { tstOwn with sync := some ⟨3, 0, 0⟩ }
def tstInput : State :=
  { tstEng { tstOwn with inputs := [(5, 0)] } [(Reg.teIntrt 0 5, 0x8300_00E1), (Reg.sysSwi, 2), (Reg.teIntctl 0, 1)] with now := 4 }

theorem test_wit_entry_trap : entryStands tstTrap 0 160 7 0 ∧ tstTrap.runs 0 = true ∧ (tstTrap.eng 0).vecWait = false ∧ tstTrap.hnd 0 = false ∧
    tstTrap.inSeq 0 = false ∧ (tstTrap.eng 0).rep ≠ 2 :=
  ⟨.inl ⟨0, by decide +kernel⟩, by decide +kernel⟩

theorem test_wit_entry_async : entryStands tstAsync 0 13 0 0 ∧ tstAsync.runs 0 = true ∧ tstAsync.hnd 0 = false :=
  ⟨.inr (.inl ⟨by decide, by decide, by decide +kernel, .inr (by decide +kernel), by decide⟩), by decide +kernel⟩

theorem test_wit_entry_sync : entryStands tstSync 0 3 0 0 ∧ tstSync.runs 0 = true ∧ tstSync.hnd 0 = false := by
  refine ⟨.inr (.inr (.inl ⟨0, by decide, fun _ _ n h => ?_, by decide⟩)), by decide +kernel⟩
  rcases h with h | ⟨-, h⟩
  · exact absurd h (by simp [tstSync, tstEng, State.eng, tstOwn, tstPorts, tstRun, Engine.zero])
  · have hn : tstSync.asyncReady 0 4 false = none := by decide
    exact absurd (hn.symm.trans h) (by simp)

theorem test_wit_entry_input : entryStands tstInput 0 37 0xE1 3 ∧ tstInput.runs 0 = true ∧ tstInput.hnd 0 = false :=
  ⟨.inr (.inr (.inr ⟨5, by decide, by decide, by decide +kernel, by decide, .inr (by decide +kernel), by decide +kernel⟩)), by decide +kernel⟩

def tstVector : State := tstEng { tstOwn with vecRd := some (0, 160) }

theorem test_wit_vector : tstVector.live 0 = true ∧ (tstVector.eng 0).vecRd = some (0, 160) ∧ tstVector.rbit (Reg.teCfg 0) 8 = false ∧
    (∀ i, i < 4 → ownWindow 0 (vectorAt tstVector 0 160 + i) = true) ∧ storesQuiet tstVector 0 ∧ tstVector.nearFree 0 = true := by
  unfold storesQuiet; decide

def tstHandler : State :=
  { tstEng { tstOwn with apend := [(11, 0)] } [(Reg.teExcstat 0, 1)] with now := 4 }

theorem test_wit_inputs : tstInput.live 0 = true ∧ tstInput.asserted 0 5 = true ∧
    (∀ p ∈ ({ tstInput with engines := tstLsu.engines }.eng 0).inputs, p.1 ≠ 5) ∧ tstHandler.runs 0 = true ∧ tstHandler.hnd 0 = true ∧
    (tstHandler.eng 0).vecWait = false ∧ (tstHandler.eng 0).vreq = none ∧ tstHandler.waitingEntry 0 4 = some (.async 11) ∧
    (tstHandler.eng 0).ahead = none ∧ tstHandler.rbit (Reg.teCfg 0) 8 = false ∧
    (∀ i, i < 4 → ownWindow 0 (vectorAt tstHandler 0 11 + i) = true) ∧ storesQuiet tstHandler 0 ∧
    tstHandler.nearFree 0 = true := by unfold storesQuiet; decide +kernel

theorem test_wit_apu : runsFree tstLsu 0 ∧ (tstLsu.eng 0).apu = none ∧ tstLsu.iftUsed 0 < 256 ∧ (tstLsu.eng 0).outq.length < 8 := by
  unfold runsFree; decide

/-- A phase read that the present fc evaluates. -/
def tstApu : State :=
  tstEng { tstOwn with units := Vector.replicate 16 { UnitRes.zero with ops := [⟨1, false, 0, 0, true, true, 0, true⟩] }, apuR := [(0, 0, 2)] }

theorem test_wit_apu_eval : (tstApu.eng 0).apuR = [(tstApu.now, 0, 2)] ∧
    (tstApu.unit 0 14).ops = [⟨tstApu.now + 1, false, 0, 0, true, true, 0, true⟩] := by decide

def tstWait : State :=
  { tstEng { tstOwn with
      units := Vector.replicate 16 { UnitRes.zero with ops := [tstRes] }
      apu := some ⟨true, 0, 0, 0, 5, none⟩ } [(Reg.teIft 0, 1)] with now := 8 }

/-- The bound of 5 fc of a wait triggered at fc 0 has passed in fc 8, the last value of its range. -/
theorem test_wit_wait : tstWait.live 0 = true ∧ (tstWait.eng 0).apu = some ⟨true, 0, 0, 0, 5, none⟩ ∧ (tstWait.unit 0 14).ops = [tstRes] ∧
    0 < tstWait.iftUsed 0 ∧ 0 + 3 + 5 ≤ tstWait.now := by decide

def tstReturn : State :=
  tstEng (tstPorts [(sBANK, 0x2000), (sESTAT, 0x61E), (sEPC, 0x40)]) [(Reg.teExcstat 0, 1), (Reg.sysCtl, 2)]

theorem test_wit_return : runsFree tstReturn 0 ∧ tstReturn.hnd 0 = true ∧ tstReturn.storesDone 0 = true ∧ (tstReturn.eng 0).pend = none ∧
    (tstReturn.eng 0).apend = [] ∧ (tstReturn.eng 0).chosen = none ∧ (tstReturn.eng 0).inputs = [] ∧
    (tstReturn.port 0 sESTAT).toNat < 2 ^ 11 ∧ (tstReturn.port 0 sESTAT).toNat % 4 ≠ 3 ∧ (tstReturn.port 0 sESTAT).toNat / 2 ^ 4 % 8 < 5 ∧
    (tstReturn.port 0 sESTAT).getLsbD 7 = false ∧ (tstReturn.port 0 sESTAT).getLsbD 8 = tstReturn.segm 0 ∧
    (tstReturn.port 0 sESTAT).getLsbD 10 = true ∧ (tstReturn.port 0 sESTAT).getLsbD 9 = tstReturn.segchk 0 := by unfold runsFree; decide

def tstFreq : FReq :=
  { desc := 5, entry := 0x100, budget := 5000, dloff := 0, policy := 0, arg := 0, phase := 0, time := 0, fire := 0, base := 0, gust := 0,
    missed := false, gover := false, start := 0, late := false }

def tstShadow : FrameShadow := { pc := 0x80, tgt := 0, dly := 0, rep := 0, owe := none, regs := [1, 2, 3, 4, 5, 6, 7], emu := false, hold := none }

def tstFrame : State :=
  (tstEng { tstOwn with shadow := some tstShadow, inFrame := true }).setFrames 0 { Frames.zero with run := some tstFreq }

theorem test_wit_frame_end : runsFree tstFrame 0 ∧ (tstFrame.frames 0).run = some tstFreq ∧ tstFrame.hnd 0 = false ∧
    (tstFrame.eng 0).shadow = some tstShadow ∧ tstShadow.regs.length = 7 := by unfold runsFree; decide

theorem test_wit_fetch : (tstLsu.eng 0).lines = [] ∧ tstLsu.canFetch 0 = true ∧ tstLsu.segm 0 = false ∧ storesQuiet tstLsu 0 ∧
    tstLsu.nearBusy 0 = false ∧ (tstLsu.eng 0).owesNear = false ∧ tstLsu.lineWaits 0 0 = false := by unfold storesQuiet; decide

def tstLine (here : Bool) (w : Quad) : Line :=
  ⟨0, [⟨none, none, 0, 16, 0, 0, some (bytesOf 16 w.toNat), none, here⟩,
       ⟨none, none, 16, 16, 0, 0, some (List.replicate 16 0), none, here⟩]⟩

def tstGroup : State := tstEng { tstOwn with lines := [tstLine true (swapWord 1 2)] }

theorem test_wit_arrival : (tstLine false 0).whole = false ∧ (∀ p ∈ (tstLine false 0).parts, p.settled = true ∧ p.due ≤ 0) := by decide

theorem test_wit_group : groupStands tstGroup 0 ∧ wordIn (tstGroup.eng 0).lines (tstGroup.eng 0).pc = .word (swapWord 1 2) ∧
    (tstGroup.eng 0).stale = [] ∧ plainWord (swapWord 1 2) := by
  unfold groupStands plainWord; decide +kernel

/-- A pair: V1 to V2 where V3 is not zero, and the long immediate 0x5000_0007 to V2, in one group of 2 fc. -/
def tstPairA : Quad := BitVec.ofNat 128 (2 ^ 126 + 3 * 2 ^ 24 + 1 * 2 ^ 12 + 2)
def tstPairB : Quad := BitVec.ofNat 128 (2 ^ 127 + 2 ^ 124 + 5 * 2 ^ 120 + 7 * 2 ^ 84 + 0x080 * 2 ^ 12 + 2)

def tstPair : State := tstEng { tstOwn with lines := [⟨0, [⟨none, none, 0, 16, 0, 0, some (bytesOf 16 tstPairA.toNat), none, true⟩,
  ⟨none, none, 16, 16, 0, 0, some (bytesOf 16 tstPairB.toNat), none, true⟩]⟩] }

theorem test_wit_pair : groupStands tstPair 0 ∧ wordIn (tstPair.eng 0).lines 0 = .word tstPairA ∧ wordIn (tstPair.eng 0).lines 16 = .word tstPairB ∧
    (tstPair.eng 0).pc = 0 ∧ (tstPair.eng 0).stale = [] ∧ tstPairA.getLsbD 127 = false ∧ tstPairA.getLsbD 126 = true ∧
    tstPairB.getLsbD 127 = true ∧ plainWord tstPairA ∧ plainWord tstPairB ∧ slotsOf tstPairB = [(0, 0x080, 2, some 0x5000_0007)] := by
  unfold groupStands plainWord; decide +kernel

/-- The first and the last undefined socket of a range, as source and as destination. -/
theorem test_wit_undef : ∀ k ∈ [0x081, 0x3FF], ∀ w ∈ [k * 2 ^ 12 + 5, 5 * 2 ^ 12 + k],
    let s := tstEng { tstOwn with lines := [tstLine true (BitVec.ofNat 128 w)] }
    groupStands s 0 ∧ wordIn (s.eng 0).lines (s.eng 0).pc = .word (BitVec.ofNat 128 w) ∧ (s.eng 0).stale = [] := by
  unfold groupStands; decide +kernel

/-- V1 to ALU0.o and V2 to ALU0.t:add, on an engine whose connectivity has these connections. -/
theorem test_wit_trigger :
    let w : Quad := BitVec.ofNat 128 ((2 * 2 ^ 12 + 0x400) * 2 ^ 28 + (1 * 2 ^ 12 + 0x420))
    let s := tstEng { tstOwn with lines := [tstLine true w], conn := [(0x400, 0xFFFF), (0x420, 0xFFFF)] }
    groupStands s 0 ∧ wordIn (s.eng 0).lines (s.eng 0).pc = .word w ∧ (s.eng 0).stale = [] ∧
    ((s.eng 0).connWord 0x420).testBit 8 = true ∧ ((s.eng 0).connWord 0x400).testBit 9 = true ∧ (s.unit 0 (aluU 0)).accepts s.now 1 = true := by
  unfold groupStands; decide +kernel

/-! Emulation -/

/-- An engine in emulation mode before the microword `w`, with room in the micro stack. -/
def tstMicro (w : Word) (depth : Word := 0) : State :=
  (tstEng { tstOwn with useq := { Useq.zero with run := true } } [(Reg.teEmustat 0, 1 + depth * 2 ^ 8)]).writeBytes (microAddr 0 0)
    (bytesOf 4 w.toNat)

theorem test_micro_depth : (tstMicro 0).microDepth 0 = 0 ∧ (tstMicro 0 8).microDepth 0 = 8 := by decide

theorem test_wit_micro : ∀ op, op < 4 → microStands (tstMicro (BitVec.ofNat 32 (op * 2 ^ 26))) 0 (BitVec.ofNat 32 (op * 2 ^ 26)) op := by
  unfold microStands storesQuiet; decide +kernel

theorem test_wit_micro_ops : ∀ op ∈ [0x14, 0x1F, 0x22, 0x24, 0x25, 0x26, 0x27, 0x28, 0x37], microStands (tstMicro (BitVec.ofNat 32 (op * 2 ^ 26))) 0
    (BitVec.ofNat 32 (op * 2 ^ 26)) op := by
  unfold microStands storesQuiet; decide +kernel

theorem test_wit_micro_extras : (tstMicro 0x5C00_0000).canTrigger 0 9 (tstMicro 0x5C00_0000).now 2 = true ∧
    (tstMicro 0x9400_0000).storesDone 0 = true ∧ (tstMicro 0).microCond 0 0 = true ∧ (tstMicro 0x9000_8000).microCond 0 1 = false := by
  decide

/-- The micro stack at its ends: a call with seven entries and with eight, a return with one, with eight and with none. -/
theorem test_wit_micro_stack : (∀ d ∈ [0, 7, 8], (tstMicro 0x3000 (BitVec.ofNat 32 d)).microReady 0 false = true ∧ mwNxt 0x3000 = 3 ∧
    (tstMicro 0x3000 (BitVec.ofNat 32 d)).microDepth 0 = d) ∧
    (∀ d ∈ [0, 1, 8], mwNxt 0x4000 = 4 ∧ (tstMicro 0x4000 (BitVec.ofNat 32 d)).microReady 0 false = true ∧
      (tstMicro 0x4000 (BitVec.ofNat 32 d)).microDepth 0 = d) ∧
    microStands (tstMicro 0x3000 7) 0 0x3000 0 ∧ microStands (tstMicro 0x4000 1) 0 0x4000 0 := by
  unfold microStands storesQuiet; decide +kernel

/-- A microword before its end, with what a fault of the micro stack takes back. -/
def tstUndo : MicroUndo :=
  { ports := ((tstMicro 0).eng 0).ports, mcnt := 0, mir := 0, slips := 0, slip := false, units := ((tstMicro 0).eng 0).units, ift := 0,
    noBmu := true, seq := 0, outN := 0, inq := [] }

def tstFin (w : Word) (depth : Word) (wait : Bool) (undo : Option MicroUndo) : State :=
  (tstMicro w depth).modEng 0 fun x => { x with useq := { x.useq with fin := some ⟨w, 0, some 0, wait, undo⟩ } }

/-- Every next-address code on a condition that holds. -/
theorem test_wit_micro_decide : ∀ x, x < 8 →
    let w := BitVec.ofNat 32 (x * 2 ^ 12)
    let s := tstFin w 4 false none
    mwNxt w = x ∧ mwOp w ≠ 0x27 ∧ (s.eng 0).useq.fin = some ⟨w, 0, some 0, false, none⟩ ∧ (s.eng 0).useq.lpend = false ∧
    s.microDepth 0 = 4 ∧ s.microCond 0 (mwCond w) = true ∧ s.call 0 = false := by decide +kernel

/-- A WAITC on a condition that does not hold, and an EXIT. -/
theorem test_wit_micro_wait : ((tstFin 0x9000_8000 0 true none).eng 0).useq.fin = some ⟨0x9000_8000, 0, some 0, true, none⟩ ∧
    mwOp 0x9000_8000 ≠ 0x27 ∧ (tstFin 0x9000_8000 0 true none).microCond 0 (mwCond 0x9000_8000) = false ∧
    ((tstFin 0x9C00_0000 0 false none).eng 0).useq.fin = some ⟨0x9C00_0000, 0, some 0, false, none⟩ ∧ mwOp 0x9C00_0000 = 0x27 ∧
    ((tstFin 0x9C00_0000 0 false none).eng 0).useq.lpend = false := by decide +kernel

/-- A call that meets a full stack, and a return that meets an empty one. -/
theorem test_wit_micro_fault : ((tstFin 0x3000 8 false (some tstUndo)).eng 0).useq.fin = some ⟨0x3000, 0, some 0, false, some tstUndo⟩ ∧
    (tstFin 0x3000 8 false (some tstUndo)).microDepth 0 = 8 ∧ (tstFin 0x3000 8 false (some tstUndo)).microCond 0 (mwCond 0x3000) = true ∧
    ((tstFin 0x4000 0 false (some tstUndo)).eng 0).useq.fin = some ⟨0x4000, 0, some 0, false, some tstUndo⟩ ∧
    (tstFin 0x4000 0 false (some tstUndo)).microDepth 0 = 0 ∧ (tstFin 0x4000 0 false (some tstUndo)).microCond 0 (mwCond 0x4000) = true := by
  decide +kernel

theorem test_wit_micro_loads : microStands (tstMicro 0x6400_0000) 0 0x6400_0000 0x19 ∧ microStands (tstMicro 0x6800_0000) 0 0x6800_0000 0x1A ∧
    microStands (tstMicro 0x6C00_0002) 0 0x6C00_0002 0x1B := by unfold microStands storesQuiet; decide +kernel

theorem test_wit_micro_access : microLoads tstLsu 0 0x16 4 (tstLsu.access 0 ⟨0, false, .read, 4, false, 0x16, 0, none⟩) := by
  unfold microLoads; decide

theorem test_wit_mcall : lsuFree tstLsu 0 ∧ (tstLsu.eng 0).useq.run = false ∧ (tstLsu.eng 0).dly = 0 ∧ (tstLsu.eng 0).rep = 0 ∧
    (0xFFF : Word).getLsbD 31 = false ∧ storesQuiet tstLsu 0 ∧ tstLsu.hnd 0 = false ∧ (tstLsu.frames 0).run = none ∧ tstLsu.emu 0 = false ∧
    ofBytes ((tstLsu.writeBytes (catAddr 0 0xFFF) [0x34, 0x12]).readBytes (catAddr 0 0xFFF) 2) ≠ 0xFFFF := by
  unfold lsuFree storesQuiet; decide

/-- The first and the last nanoword operation. -/
theorem test_wit_nano : ∀ op ∈ [0x38, 0x3F], microStands ((tstMicro (BitVec.ofNat 32 (op * 2 ^ 26 + 63))).writeBytes (nanoAddr 0 ((op - 0x38) * 64 + 63))
    (bytesOf 32 (swapWord 1 2).toNat)) 0 (BitVec.ofNat 32 (op * 2 ^ 26 + 63)) op ∧
    ofBytes (((tstMicro (BitVec.ofNat 32 (op * 2 ^ 26 + 63))).writeBytes (nanoAddr 0 ((op - 0x38) * 64 + 63))
      (bytesOf 32 (swapWord 1 2).toNat)).readBytes (nanoAddr 0 ((op - 0x38) * 64 + 63)) 32) = (swapWord 1 2).toNat := by
  unfold microStands storesQuiet; decide +kernel

def tstDisp : State :=
  (tstEng { tstOwn with useq := { Useq.zero with run := true, disp := true } } [(Reg.teEmustat 0, 1)]).writeBytes (catAddr 0 0) [5, 0x20]

theorem test_wit_dispatch : tstDisp.microReady 0 true = true ∧ (tstDisp.eng 0).useq.dirty = false ∧ (tstDisp.eng 0).useq.injM = false ∧
    storesQuiet tstDisp 0 ∧ microLoads tstDisp 0 (tstDisp.port 0 sMPC) 4 (tstDisp.access 0 ⟨0, false, .read, 4, false, 0, 0, none⟩) ∧
    ofBytes (tstDisp.readBytes (catAddr 0 0) 2) = 0x2005 ∧ tstDisp.present 0 = true := by unfold storesQuiet microLoads; decide

/-! Angle Bases -/

/-- Base 0 on, with source `src`, further bits of AB_CFG and AB_SRC1, 16 counts per turn, VALID. -/
def tstBase (src : Nat) (cfg s1 : Nat := 0) (x : Base := Base.zero) : State :=
  { tstRegs [(Reg.abCtl 0, 1), (Reg.abCfg 0, BitVec.ofNat 32 (src + cfg)), (Reg.abCpt 0, 16), (Reg.abStat 0, 1),
      (Reg.abSrc1 0, BitVec.ofNat 32 s1)] with bases := State.reset.bases.set 0 x, tb := 800, now := 100 }

theorem test_wit_quadrature : (tstBase 1).takes 0 1 = true ∧ ((tstBase 1).base 0).injIll = false ∧ ((tstBase 1).base 0).a = false ∧
    (tstBase 1).zmode 0 = 0 ∧ (tstBase 1 0x80).takes 0 1 = true ∧ (tstBase 1 0x80).zmode 0 = 2 ∧ (tstBase 1 0x20).takes 0 1 = true ∧
    (tstBase 3).takes 0 3 = true ∧ (tstBase 3).zmode 0 = 0 ∧ ((tstBase 3).reg (Reg.abCfg 0)).toNat / 2 ^ 4 % 4 ≠ 1 := by decide

/-- With FILT 2: two samples are too few; three are enough, and the fc 6 after the transition's has come, or has not. -/
theorem test_wit_edges : let s := tstBase 1 0x20000
    edgeNow s 0 752 3 ∧ 2 ≤ s.abFilt 0 ∧ s.abFilt 0 < 3 ∧ s.fc < s.edgeDue 0 760 := by
  exact ⟨⟨by decide, by decide, fun _ => rfl⟩, by decide, by decide, by decide⟩

/-- Test of R34 and R35: decoding ×1 counts the rising edge of A, forward, from the last count of a turn. -/
theorem test_quadrature_wraps : (match exec (.quadratureTransition 0 ⟨true, false, false, 80, 1⟩) ((tstBase 1).setReg (Reg.abCount 0) 15) with
    | .next t => (t.reg (Reg.abCount 0), (t.base 0).turn)
    | _ => (1, 0)) = (0, 1) := by decide +kernel

def tstSsi : State := tstBase 2 0 0 { Base.zero with ssiRun := true }

theorem test_wit_ssi : tstSsi.takes 0 2 = true ∧ (∀ r, tstSsi.broken r = false) ∧ (tstSsi.base 0).frameAt = none ∧ (tstSsi.base 0).ssiRun = true ∧ (tstSsi.base 0).injRej = false ∧ (tstSsi.base 0).ssi = none := by
  exact ⟨by decide, fun _ => rfl, by decide⟩

/-- A mains base that has accepted seven crossings, the last one at 0. -/
def tstMains : State := tstBase 4 0 0x10 { Base.zero with cross := some 0, good := 7, bad := 3 } 

/-- Crossings of both edges at the ends of the accepted range, and outside it. -/
theorem test_wit_mains : tstMains.takes 0 4 = true ∧ tstMains.rbit (Reg.abSrc1 0) 4 = true ∧ (tstMains.base 0).cross = some 0 ∧
    (∀ k : Fin 4,
      (tstMains.reg (Reg.abSrc1 0)).toNat / 2 ^ 8 % 2 ^ 16 * 8000 < ((#v[60000000, 90000000, 59999999, 90000001] : Vector Stamp 4)[k] - 0).toNat) ∧ ((tstBase 4).base 0).cross = none ∧
    ((90000001 : Stamp) >>> 3) + 5 ≤ ({ tstMains with tb := 90000100 } : State).fc ∧
    90000000 < (({ tstMains with tb := 90000001 } : State).stamp - (tstMains.base 0).expect).toNat := by decide

def tstQuiet : State := { (tstBase 1 0 0 { Base.zero with vq := [(3, 7)] }).setReg (Reg.abSilt 0) 5 with tb := 40 }

theorem test_wit_silence : (tstQuiet.base 0).vq = [(3, 7)] ∧ (3 : DWord) ≤ tstQuiet.fc ∧ tstQuiet.abEn 0 = true ∧ tstQuiet.abBad 0 = false ∧
    tstQuiet.abSrc 0 ∈ [1, 2, 3, 4, 5] ∧ tstQuiet.reg (Reg.abSilt 0) ≠ 0 ∧ (tstQuiet.base 0).still = none ∧
    tstQuiet.lastFc 0 + (tstQuiet.reg (Reg.abSilt 0)).toNat ≤ tstQuiet.fc.toNat ∧ (tstBase 6).takes 0 6 = true ∧ ((tstBase 6).base 0).vmAt ≠ some (tstBase 6).now := by decide

/-- A staged change, armed, of a base with source `src`; bit 3 of AB_CTL asks for a load. -/
def tstStaged (src : Nat) (load : Word) : State := ((tstBase src).orReg (Reg.abStat 0) 0x20).orReg (Reg.abCtl 0) load

theorem test_wit_staged : (∀ src ∈ [1, 2, 3, 6], (tstStaged src 8).rbit (Reg.abStat 0) 5 = true ∧ (tstStaged src 8).tmrOn = true ∧
    (tstStaged src 8).abAt 0 ≤ (tstStaged src 8).fc ∧ ((tstStaged src 8).base 0).armAt < (tstStaged src 8).now ∧ (tstStaged src 8).abSrc 0 = src ∧ (tstStaged src 8).rbit (Reg.abCtl 0) 3 = true ∧
    (tstStaged src 8).abEn 0 = true ∧ (tstStaged src 8).abBad 0 = false ∧
    ((tstStaged src 8).reg (Reg.abPreLo 0)).toNat < (tstStaged src 8).cpt 0) ∧
    ((tstStaged 1 8).setReg (Reg.abPreLo 0) 16).cpt 0 ≤ (((tstStaged 1 8).setReg (Reg.abPreLo 0) 16).reg (Reg.abPreLo 0)).toNat ∧ (tstStaged 6 0).rbit (Reg.abCtl 0) 3 = false := by decide

theorem test_wit_base_control : State.reset.abEn 0 = false ∧ (State.reset.base 0).lsOff = false ∧
    (tstRegs [(Reg.abBc 0, 1)]).rbit (Reg.abBc 0) 0 = true ∧ (State.reset.base 0).bcAt = none ∧ State.reset.tmrOn = true := by decide

/-! The Almanac -/

/-- A slot's lookahead entry with this CTL word, due now and in time. -/
def tstLook (ctl lo hi : Word) : Look :=
  { slot := 0, turn := 0, frac := 0, ctl := ctl, lo := lo, hi := hi, order := false, failed := false, late := some false, tp := some 24,
    due := true }

/-- Ring 0 of four slots on base 0, which is a valid virtual master, with this head. -/
def tstRing (hs : List Look) : State :=
  let s := (tstRegs [(Reg.abCtl 0, 1), (Reg.abCfg 0, 6), (Reg.abStat 0, 1), (Reg.almCtl, 1), (Reg.almRctl 0, 1), (Reg.almRlen 0, 4)]).setRing 0
    { Ring.zero with look := hs }
  { s with released := true, tb := 24, bases := s.bases.set 0 { Base.zero with v := 1 }, map := s.map.set 0 (some 0), engines := s.engines.set 0 tstOwn }

theorem test_wit_walker : (tstRing []).walkPick = some 0 ∧ (tstRing []).walkFree = true ∧ (tstRing []).mtx.inj = [] ∧ (tstRing []).ecc.bad = [] ∧
    (tstRing []).ecc.injUe = [] ∧ (tstRing []).ecc.injCe = [] := by decide

/-- The head of a lookahead that its prediction leaves as it is. -/
theorem tst_head {s : State} {r : BaseId} {h : Look} {hs : List Look} {tp : Stamp} (h1 : (s.ring r).look = h :: hs) (h2 : s.lookPredict r h = h)
    (h3 : s.ringActs r = true ∧ (s.ring r).actAt ≠ some s.now ∧ (s.ring r).stepTo = none ∧ (s.ring r).stepN = none ∧ h.tp = some tp ∧
      h.late = some false ∧ h.order = false ∧ h.failed = false ∧ h.once = false ∧ h.slot < 2 ^ 14) : headStands s r h hs tp :=
  ⟨⟨h, h1, h2⟩, h3⟩

/-- A disabled entry, a deferred one, a dispatch to logical engine 0 and a post to it. -/
theorem test_wit_perform : (∀ k : Fin 4,
      let ctl := (#v[0, 0xA000_0000, 0x8100_0005, 0x8400_0000] : Vector Word 4)[k]
      headStands (tstRing [tstLook ctl 1 2]) 0 (tstLook ctl 1 2) [] 24 ∧ (tstLook ctl 1 2).isEdge = false) ∧
    (24 : Stamp).toNat < 8 * ((tstRing []).fc.toNat + 1) ∧ (tstLook 0 1 2).en = false ∧ (tstLook 0xA000_0000 1 2).defer = true ∧
    (tstLook 0x8100_0005 1 2).act = 1 ∧ (tstLook 0x8400_0000 1 2).act = 4 ∧ (tstRing []).phys 0 = some 0 ∧ (tstRing []).elDrop = false ∧
    ((tstRing []).frames 0).skip = [] ∧ ((tstRing []).eng 0).inq.length < 16 :=
  ⟨fun k => ⟨tst_head (by revert k; decide) (by revert k; decide) (by revert k; decide), by revert k; decide⟩, by decide⟩

/-- A rising edge of pin 0, which the Almanac owns or does not own. -/
theorem test_wit_commit : headStands (tstRing [tstLook 0x8200_0000 0 16]) 0 (tstLook 0x8200_0000 0 16) [] 24 ∧
    (tstLook 0x8200_0000 0 16).isEdge = true ∧ (tstLook 0x8200_0000 0 16).delay = 16 ∧ 24 + 16 < 8 * ((tstRing []).fc.toNat + 4) ∧
    8 * ((tstRing []).fc.toNat + 2) ≤ 24 + 16 ∧ (tstRing []).alm.injLs = false ∧ ((tstRing []).pin 0).owner ≠ .almanac ∧
    ((tstRing []).setPin 0 { Pin.zero with owner := .almanac }).pinBlocked 0 = false ∧ ((tstRing []).pin 0).q = [] ∧
    ((tstRing []).pin 0).lastT = none := ⟨tst_head (by decide) (by decide) (by decide), by decide⟩

def tstEdge : State := { State.reset with released := true, tb := 8, pins := State.reset.pins.set 5 { Pin.zero with q := [⟨15, true, 0⟩], lvl := .low } }

/-- The last time at which an edge belongs to this fc. -/
theorem test_wit_place : (tstEdge.pin 5).q = [⟨15, true, 0⟩] ∧ (15 : Stamp).toNat < tstEdge.tb.toNat + 8 ∧ tstEdge.pinBlocked 5 = false ∧
    tstEdge.comparing 5 = true ∧ tstEdge.alm.lsOff = false := by decide

def tstOut (m : OutMsg) : State :=
  { tstEng { tstOwn with outq := [m] } with now := 1, map := State.reset.map.set 3 (some 2) }

theorem test_wit_tables : (12 : SlotOffset).val % tableBytes .w32 = 0 ∧ (0 : SlotOffset).val % tableBytes .w128 = 0 ∧
    State.reset.ringOf 16383 = none ∧ (tstRing []).ringOf 3 = some 0 ∧ ((tstOut ⟨false, 3, 7, 8, 0, 0⟩).eng 0).outq = [⟨false, 3, 7, 8, 0, 0⟩] ∧
    ((tstOut ⟨false, 3, 7, 8, 0, 0⟩).eng 0).outAt ≠ some 1 ∧ (tstOut ⟨false, 3, 7, 8, 0, 0⟩).phys 3 = some 2 ∧
    (tstOut ⟨true, 0x3FFF, 7, 0, 0, 0⟩).tableStoreOpen 0 0 = false := by decide

theorem test_wit_rings : State.reset.rbit (Reg.almRctl 0) 0 = false ∧ State.reset.ringRefused 0 = false ∧
    (tstRegs [(Reg.almRctl 1, 1), (Reg.almRlen 1, 2), (Reg.almRbase 0, 1), (Reg.almRlen 0, 1)]).ringRefused 0 = true ∧
    (tstRegs [(Reg.almRbase 0, 16383), (Reg.almRlen 0, 1)]).ringRefused 0 = false ∧
    (tstRegs [(Reg.almRbase 0, 16383), (Reg.almRlen 0, 2)]).ringRefused 0 = true ∧ State.reset.rbit Reg.almCtl 0 = false := by decide

def tstQueue (n : Nat) : State :=
  { tstEng tstOwn with now := 3 }.setFrames 0 { Frames.zero with transit := [{ tstFreq with policy := 0x2000 }], q := List.replicate n tstFreq }

theorem test_wit_frames : ((tstQueue 3).frames 0).transit = [{ tstFreq with policy := 0x2000 }] ∧ tstFreq.fire + 3 ≤ (tstQueue 3).now ∧
    ((tstQueue 3).frames 0).q.length < 4 ∧ 4 ≤ ((tstQueue 4).frames 0).q.length ∧ ({ tstFreq with policy := 0x2000 } : FReq).miss = 1 ∧
    (tstQueue 5).frameDue 0 = true ∧ (tstQueue 1).frameDue 0 = true ∧ 5 ≤ ((tstQueue 5).frames 0).q.length ∧
    ({ tstQueue 4 with power := .retain } : State).frameDue 0 = false ∧ ((tstQueue 1).eng 0).useq.run = false ∧ ((tstQueue 1).eng 0).rep ≠ 2 := by decide

/-- A running frame whose budget of 3 has passed, with its deadline reached and a Gust count beyond its allowance. -/
def tstLateFrame : FReq := { tstFreq with budget := 3, dloff := 0x10, policy := 0x0001_3000, phase := 0, gust := 2 }

def tstLate : State := { (tstRing []) with now := 4 }.setFrames 0 { Frames.zero with run := some tstLateFrame }

theorem test_wit_misses : (tstLate.frames 0).run = some tstLateFrame ∧ tstLateFrame.missed = false ∧ tstLateFrame.miss = 1 ∧
    (tstLate.frames 0).injD = false ∧ tstLateFrame.budget.toNat < tstLate.now - tstLateFrame.fire ∧ tstLate.abValid tstLateFrame.base = true ∧
    ((tstLate.setBase 0 { Base.zero with acc := 0x10 * 2 ^ 32 }).phase 0 - (tstLateFrame.phase + tstLateFrame.dloff.setWidth 64)).msb = false ∧
    tstLate.leaving = false ∧ tstLateFrame.gover = false ∧ tstLateFrame.policy.toNat / 2 ^ 16 < tstLateFrame.gust := by decide

/-- A waiting frame whose Gust count is beyond its allowance. -/
theorem test_wit_gust_waiting : let s := (tstRing []).setFrames 0 { Frames.zero with q := [tstLateFrame] }
    (s.frames 0).run = none ∧ (s.frames 0).q = [tstLateFrame] ∧ tstLateFrame.gover = false ∧
    tstLateFrame.policy.toNat / 2 ^ 16 < tstLateFrame.gust := by decide

/-! Time Base, counters and captures -/

def tstCompare : State := { tstRegs [(Reg.tmrTbctl, 0x11), (Reg.tmrTbcmpLo, 5)] with tb := 40, time := ⟨0, 0, 0, 0, true⟩ }

/-- The compare at the first fc at which it is due. -/
theorem test_wit_compare : tstCompare.time.cmpArm = true ∧ tstCompare.rbit Reg.tmrTbctl 4 = true ∧
    (tstCompare.reg Reg.tmrTbcmpHi ++ tstCompare.reg Reg.tmrTbcmpLo : DWord) = tstCompare.fc := by decide

theorem test_wit_follower : ({ tstCompare with time := ⟨0, 5, 63, 1000000, false⟩ } : State).follower = true ∧
    (tstCompare.reg Reg.tmrTbsyncto).toNat ≤ 1000000 ∧ tstCompare.tmrOn = true ∧
    max 8 ((tstCompare.reg Reg.tmrTbsync).toNat / 2 ^ 16) ≤ 63 + 1 ∧ tstCompare.boot.fall = none ∧ tstCompare.boot.later = none ∧
    tstCompare.boot.hold = none ∧ tstCompare.boot.fetch = none := by decide

/-- A synchronised follower whose ring 0 walks a valid received base, with INVSAFE. -/
theorem test_wit_follower_ring :
    let s := { tstBase 5 0 0 { Base.zero with snaps := [⟨0, 0, 0, 0, false, true⟩] } with time := ⟨0, 0, 0, 1000000, false⟩ }
    let s := ((((s.setReg Reg.tmrTbctl 1).setReg Reg.tmrTbstat 1).setReg Reg.almCtl 1).setReg (Reg.almRctl 0) 5)
    s.follower = true ∧ s.ringOn 0 = true ∧ s.rbit (Reg.almRctl 0) 2 = true ∧ s.abSrc 0 = 5 ∧ s.abValid 0 = true := by decide +kernel

/-- Test of R266: the read of TMR_TBLO returns the low word of the Time Base. -/
theorem test_time_base : (match exec .timeBaseRead { State.reset with tb := 0x0000_0001_0000_0005 * 8 + 3 } with
    | .next t => (t.rdata, t.reg Reg.tmrTbhi, t.reg Reg.tmrTbsub)
    | _ => ([], 0, 0)) = ([5], 1, 3) := by decide

/-- Counter 1 at count `c` of period 2, running up or down, armed, with its window closed by now. -/
def tstCounter (c stat : Word) : State :=
  { tstRegs [(Reg.wcCnt 1, c), (Reg.wcStat 1, stat), (Reg.wcPer 1, 2)] with
    now := 1, wcs := State.reset.wcs.set 1 { Counter.zero with per := 2, links := [(0, 2, .start)] } }

/-- The counter below its period, at it and beyond it, and counting down to 0. -/
theorem test_wit_counter : (∀ k : Fin 4, let c : Word := BitVec.ofNat 32 k.val
      (tstCounter c 0x21).wcRun 1 = true ∧ (tstCounter c 0x21).wcCasc 1 = false ∧
      ((tstCounter c 0x21).wc 1).psc + (tstCounter c 0x21).wcPsc 1 ≤ (tstCounter c 0x21).now ∧ (tstCounter c 0x21).reg (Reg.wcLink 1) = 0 ∧
      (tstCounter c 0x21).wcDown 1 = false ∧ (tstCounter c 0x23).wcDown 1 = true ∧ (tstCounter c 0x20).wcRun 1 = false ∧
      (tstCounter c 0x21).rbit (Reg.wcStat 1) 5 = true) ∧ (tstCounter 0 0x21).tmrOn = true ∧
    ((tstCounter 0 0x21).wc 1).links = [(0, 2, .start)] ∧ ((tstCounter 0 0x21).wc 1).armAt < (tstCounter 0 0x21).now := by decide

/-- Test of R275: of one fc's actions a reset and a stop of register writes outweigh a start by an event; and a start alone runs. -/
theorem test_counter_acts :
    let f (ev wr : List WcAct) : State := let s := tstCounter 5 0x20
      ({ s with wcs := s.wcs.set 1 { (s.wc 1) with acts := ev, actW := wr } } : State).wcEnd 1
    (f [.start] [.reset, .stop]).wcRun 1 = false ∧ (f [.start] [.reset, .stop]).reg (Reg.wcCnt 1) = 0 ∧
    (f [] [.start]).wcRun 1 = true ∧ (f [] [.start]).reg (Reg.wcCnt 1) = 5 := by decide +kernel

/-- Test of R270: a counter that reaches its period turns down with TOP. -/
theorem test_counter_top : (match exec (.wcTick 1) (tstCounter 1 1) with
    | .next t => (t.reg (Reg.wcCnt 1), t.wcDown 1, t.rbit (Reg.wcStat 1) 12)
    | _ => (0, false, false)) = (2, true, true) := by decide +kernel

def tstCap (src : Word) : State :=
  { tstRegs [(Reg.capCfg 4, 1 + src)] with
    caps := State.reset.caps.set 4 { Capture.zero with owner := some 1, riseUnread := true, fallUnread := true, half := true } }

theorem test_wit_capture : (tstCap 0).tmrOn = true ∧ (tstCap 0).caps[4].owner = some 1 ∧ (tstCap 0).rbit (Reg.capCfg 4) 0 = true ∧
    (tstCap 0).rbit (Reg.capCfg 4) 1 = false ∧ (tstCap 2).rbit (Reg.capCfg 4) 1 = true ∧ (tstCap 0).caps[4].half = true ∧
    (tstCap 0).broken (.capture 4) = false ∧ ((tstCap 0x30000).reg (Reg.capCfg 4)).toNat / 2 ^ 16 % 16 = 3 := by decide

/-- A counter that changed in fc 5 and in fc 8: its count in fc 4, 7 and 9. -/
theorem test_wit_past : let s : State := { tstCounter 2 1 with wcs := State.reset.wcs.set 1 { Counter.zero with hist := [(8, 1, false), (5, 0, true)] } }
    s.wcPast 1 4 = (0, true) ∧ s.wcPast 1 7 = (1, false) ∧ s.wcPast 1 9 = (2, false) := by decide

/-! Well-formedness: each check refuses an ill-formed command and accepts one at its bound. -/

/-- A frame of this type and direction with `n` bytes. -/
def tstFrm (typ : Nibble) (rsp : Bool) (n : Nat := 0) (hops : BitVec 7 := 0) (w2 w3 : Word := 0) : HlFrame :=
  { typ := typ, bc := false, rsp := rsp, noseq := false, dst := 0, src := 5, lseq := 0, hops := hops, tag := 7, w2 := w2, w3 := w3,
    payload := List.replicate n 0xAA }

/-- A read of `n` bytes from `a`. -/
def tstRead (a : Word) (n : Nat) : ReqSpec := { addr := a, kind := .read, len := n, data := [], ordered := false, node := 0 }

theorem test_illformed_word : (∀ k : Fin 3, Instr.wellFormed (.registerWrite (#v[0x5000_0001, 0x5000_0002, 0x5000_0003] : Vector Word 3)[k] 0) = false) ∧
    Instr.wellFormed (.registerWrite 0x5000_0004 0) = true ∧ Instr.wellFormed (.monitorRead 0x1000_0002) = false ∧
    Instr.wellFormed (.monitorRead 0x1000_0004) = true ∧ Instr.wellFormed (.monitorWrite 0x1000_0003 0) = false ∧
    Instr.wellFormed (.monitorWrite 0x1000_0000 0) = true := by decide

theorem test_illformed_table : Instr.wellFormed (.tableWrite 0 2 .w32 0) = false ∧ Instr.wellFormed (.tableWrite 0 4 .w64 0) = false ∧
    Instr.wellFormed (.tableWrite 0 8 .w128 0) = false ∧ Instr.wellFormed (.tableWrite 0 12 .w32 0) = true ∧
    Instr.wellFormed (.tableWrite 0 8 .w64 0) = true ∧ Instr.wellFormed (.tableWrite 0 0 .w128 0) = true := by decide

theorem test_illformed_request : (tstRead 0 0).sendable 32 = false ∧ (tstRead 0x01 256).sendable 32 = false ∧ (tstRead 0 33).sendable 15 = false ∧
    (tstRead 0 256).sendable 16 = true ∧ (tstRead 0 32).sendable 15 = true ∧ ({ tstRead 0 4 with data := [1] } : ReqSpec).sendable 0 = false ∧
    ({ tstRead 0 4 with kind := .write, data := [1] } : ReqSpec).sendable 0 = false ∧
    ({ tstRead 2 4 with kind := .atomAdd, data := [1, 2, 3, 4] } : ReqSpec).sendable 0 = false ∧
    ({ tstRead 0 8 with kind := .atomSwap, data := [1, 2, 3, 4] } : ReqSpec).sendable 0 = false ∧
    Instr.wellFormed (.matrixRequest 15 (tstRead 0 33)) = false := by decide

theorem test_illformed_master : Instr.wellFormed (.masterReset 33) = false ∧ Instr.wellFormed (.masterReset 32) = true := by decide

/-- A frame of another type, in the other direction, with 257 bytes, or after 65 hops. -/
theorem test_illformed_frames : (tstFrm 1 false).fits 2 false = false ∧ (tstFrm 1 true).fits 1 false = false ∧
    (tstFrm 1 false 257).fits 1 false = false ∧ (tstFrm 1 false 0 65).fits 1 false = false ∧ (tstFrm 1 false 256 64).fits 1 false = true ∧
    Instr.wellFormed (.tsyncReceive 0 (tstFrm 2 false) 0) = false ∧ Instr.wellFormed (.angleReceive 0 (tstFrm 1 false)) = false ∧
    Instr.wellFormed (.msgReceive 0 (tstFrm 3 true)) = false ∧ Instr.wellFormed (.msgResponse 0 (tstFrm 3 false)) = false ∧
    Instr.wellFormed (.rreadRequest 0 (tstFrm 5 false)) = false ∧ Instr.wellFormed (.rwriteRequest 0 (tstFrm 4 false)) = false ∧
    Instr.wellFormed (.ratomRequest 0 (tstFrm 7 false)) = false ∧ Instr.wellFormed (.remoteResponse 0 (tstFrm 4 false)) = false ∧
    Instr.wellFormed (.configImageRequest 0 (tstFrm 7 true)) = false ∧ Instr.wellFormed (.configResponse 0 (tstFrm 7 false) none) = false := by
  decide

theorem test_wellformed_frames : Instr.wellFormed (.tsyncReceive 0 (tstFrm 1 false) 0) = true ∧ Instr.wellFormed (.angleReceive 0 (tstFrm 2 false)) = true ∧
    Instr.wellFormed (.msgReceive 0 (tstFrm 3 false)) = true ∧ Instr.wellFormed (.msgResponse 0 (tstFrm 3 true)) = true ∧
    Instr.wellFormed (.rreadRequest 0 (tstFrm 4 false)) = true ∧ Instr.wellFormed (.rwriteRequest 0 (tstFrm 5 false)) = true ∧
    Instr.wellFormed (.ratomRequest 0 (tstFrm 6 false)) = true ∧ Instr.wellFormed (.remoteResponse 0 (tstFrm 4 true)) = true ∧
    Instr.wellFormed (.configImageRequest 0 (tstFrm 7 false)) = true ∧ Instr.wellFormed (.configResponse 0 (tstFrm 7 true) none) = true := by
  decide

theorem test_illformed_pcie : PcieReq.fits ⟨false, true, 0, false, 0, []⟩ = false ∧ PcieReq.fits ⟨false, true, 0, false, 257, []⟩ = false ∧
    PcieReq.fits ⟨false, true, 0, true, 2, [1]⟩ = false ∧ PcieReq.fits ⟨false, true, 0, false, 2, [1, 2]⟩ = false ∧ PcieReq.fits ⟨false, true, 0, true, 2, [1, 2]⟩ = true ∧
    Instr.wellFormed (.pcieInboundRequest ⟨false, true, 0, false, 0, []⟩) = false ∧ Instr.wellFormed (.pcieInboundRequest ⟨false, true, 0, false, 256, []⟩) = true := by
  decide

theorem test_illformed_others : Instr.wellFormed (.sysInjCe 3) = false ∧ Instr.wellFormed (.sysInjUe 3) = false ∧ Instr.wellFormed (.sysInjCe 2) = true ∧
    Instr.wellFormed (.qspiCommand 0 (.erase 0x7FF_FFFF 2)) = false ∧ Instr.wellFormed (.qspiCommand 0 (.erase 0x7FF_FFFF 1)) = true ∧
    Instr.wellFormed (.qspiCommand 0 (.program 0x7FF_FFFF [1, 2])) = false ∧ Instr.wellFormed (.qspiCommand 0 (.program 0x7FF_FFFF [1])) = true ∧
    Instr.wellFormed (.monitorLoad 3 [1, 2] 0) = false ∧ Instr.wellFormed (.monitorLoad 2 [1, 2] 0) = true := by decide

theorem test_illformed_i2c : Instr.wellFormed (.i2cTargetAddressed 0 ⟨0, 1, List.replicate 65537 0, 0⟩) = false ∧
    Instr.wellFormed (.i2cTargetAddressed 0 ⟨0, 1, [1], 0⟩) = true := by
  exact ⟨by rw [Instr.wellFormed, List.length_replicate]; decide, by decide⟩

/-! Dependability, the performance counters and the matrix -/

theorem test_wit_injections : State.reset.present 15 = true ∧ State.reset.region 0x2000_0000 = .tile 0 ∧ State.reset.region 0x20F0_0000 = .tile 15 ∧
    State.reset.power = .run ∧ State.reset.bankBusy 0x2000_0000 = false ∧
    ({ State.reset with mtx := { State.reset.mtx with busy := [(0, 1)] } } : State).bankBusy 0x1000_0000 = true := by decide

/-- Borrows that end with an injected failure: one that no access has cut, and one that an access cut in fc 40. -/
theorem test_wit_march : (⟨5, 0, ⟨[], []⟩, none⟩ : Borrow).found = ⟨[], []⟩ ∧ (⟨5, 0, ⟨[], []⟩, some 40⟩ : Borrow).cut.isSome = true ∧
    ({ State.reset with cur := { State.reset.cur with injM := true } } : State).cur.injM = true := by decide

/-- The Curator may borrow Vitrine 5 of an engine without a running frame, after three that it never borrows. -/
def tstCur : State := { tstRegs [(Reg.curCtl, 3), (Reg.curNb 0, 0x1C), (Reg.curBint, 1)] with now := 400, cur := ⟨2, none, 0, 0, 0, false⟩ }

theorem test_wit_borrow : tstCur.power = .run ∧ tstCur.rbit Reg.curCtl 1 = true ∧ tstCur.cur.borrow = none ∧
    tstCur.cur.endAt + max 1 (tstCur.reg Reg.curBint).toNat ≤ tstCur.now ∧ (5 = (tstCur.cur.pos + 3) % 6144 ∧ mayBorrow tstCur 5) ∧
    (∀ j, j < 3 → ¬mayBorrow tstCur ((tstCur.cur.pos + j) % 6144)) ∧ (tstCur.frames 0).run = none ∧ mayBorrow tstCur 6143 ∧ mayBorrow tstCur 2047 := by
  unfold mayBorrow; decide

theorem test_wit_scrub : tstCur.rbit Reg.curCtl 0 = true ∧ tstCur.cur.scrubAt + max 8 (tstCur.reg Reg.curScrubdiv).toNat ≤ tstCur.now ∧
    tstCur.scrubRow tstCur.cur.scrub ≠ none ∧ tstCur.ecc.bad = [] ∧ tstCur.ecc.injUe = [] ∧ tstCur.ecc.injCe = [] ∧
    tstCur.scrubRow tstCur.cur.scrub = some 0x1000_0000 ∧ tstCur.bankBusy 0x1000_0000 = false := by decide +kernel

/-- A write of CUR_NB0 marks the borrowed Vitrine 5. -/
theorem test_wit_giveback : (({ tstCur with cur := { tstCur.cur with borrow := some ⟨5, 400, ⟨[], []⟩, none⟩ } } : State).cur.borrow =
      some ⟨5, 400, ⟨[], []⟩, none⟩) ∧ 5 / 32 = (0 : NbWord).val ∧ (0x3C : Word).getLsbD 5 = true ∧ (tstCur.reg (Reg.curNb 0)).getLsbD 5 = false := by
  decide

/-- A watchdog at 0, in STAGE 0 or 1, and one that counts. -/
def tstWdg (ctl cnt : Word) : State := tstEng tstRun [(Reg.teWdctl 0, ctl), (Reg.teWdcnt 0, cnt)]

theorem test_wit_watchdog : (∀ k : Fin 2, (tstWdg (#v[0x1, 0xFF07] : Vector Word 2)[k] 0).live 0 = true) ∧ (tstWdg 1 0).present 0 = true ∧
    (tstWdg 1 0).rbit (Reg.teWdctl 0) 0 = true ∧ (tstWdg 1 0).reg (Reg.teWdcnt 0) = 0 ∧ (tstWdg 1 0).rbit (Reg.teWdctl 0) 2 = false ∧
    (tstWdg 0xFF07 0).rbit (Reg.teWdctl 0) 2 = true ∧ (tstWdg 0xFF07 0).rbit (Reg.teWdctl 0) 1 = true ∧
    ((tstWdg 1 1).eng 0).wdgDue = none ∧ (tstWdg 1 1).reg (Reg.teWdcnt 0) ≠ 0 := by decide

/-- An input buffer with one entry before a log of `n` entries from `h` on. -/
def tstLog (n h : Nat) (ctl : Word) : State :=
  { tstRegs [(Reg.errStat, BitVec.ofNat 32 (n + h * 2 ^ 16)), (Reg.errCtl, ctl)] with logq := [⟨8, 0x1800_0001, 0x40⟩] }

theorem test_wit_log : (tstLog 63 63 0).rfld Reg.errStat 0 7 = 63 ∧ (tstLog 63 63 0).rfld Reg.errStat 16 6 = 63 ∧ (tstLog 64 1 0).rfld Reg.errStat 0 7 = 64 ∧
    (tstLog 64 1 0).rbit Reg.errCtl 0 = false ∧ (tstLog 64 1 1).rbit Reg.errCtl 0 = true ∧ (tstLog 0 0 0).rfld Reg.errStat 0 7 = 0 := by decide

/-- Two entries raised in this fc, before an input buffer with one free place. -/
def tstRaised : State :=
  { State.reset with tb := 64, logn := [⟨8, 0x0100_0000, 0⟩, ⟨8, 0x1800_0001, 0⟩], logq := List.replicate 15 ⟨7, 0x0100_0000, 0⟩ }

theorem test_wit_log_order : (∀ y ∈ tstRaised.logn, y.t = tstRaised.fc) ∧ tstRaised.logn.Pairwise (fun a b => LogEntry.before a b = true) ∧
    tstRaised.logq.length ≤ 16 ∧ 16 - tstRaised.logq.length < tstRaised.logn.length ∧
    (tstRaised.reg Reg.errLost).toNat + (tstRaised.logn.length - 1) < 2 ^ 32 := by decide

/-- Test of R415: of two entries of one fc only the first finds a place, and the other is lost. -/
theorem test_log_enter : tstRaised.logEnter.logq.length = 16 ∧ tstRaised.logEnter.reg Reg.errLost = 1 := by decide +kernel

/-- Test of R415: the first entry goes to the place after the youngest. -/
theorem test_log_accept : (match exec .errorLogAccept (tstLog 2 63 0) with
    | .next t => (t.reg (Reg.errEnt 1 2), t.rfld Reg.errStat 0 7, t.logq.length)
    | _ => (0, 0, 9)) = (0x1800_0001, 3, 0) := by decide +kernel

def tstPerf (ctl sinfo : Word) : State := tstEng { tstRun with wrapped := 0x80 } [(Reg.perfCtl 0, ctl), (Reg.perfSinfo 0, sinfo)]

theorem test_wit_perf : ((tstPerf 0 0).eng 0).wrapped.getLsbD 7 = true ∧ ((tstPerf 0 0).eng 0).wrapped.getLsbD 6 = false ∧
    (tstPerf 0 0).rbit (Reg.perfCtl 0) 15 = false ∧ (tstPerf 0x8003 0).rbit (Reg.perfCtl 0) 15 = true ∧
    (tstPerf 0x8003 0).rbit (Reg.perfSinfo 0) 31 = false ∧ (tstPerf 0x8003 0x8000_0000).rbit (Reg.perfSinfo 0) 31 = true ∧
    (∀ e, (tstPerf 0 0).present e = true) ∧ ((tstPerf 0 0).eng 0).perfAt = none ∧
    ((tstPerf 0 0).modEng 0 fun x => { x with perfAt := some (0, (1, 5)) }).perfCtx 0 = (1, 5) := by decide

/-- A counter written in this fc. -/
theorem test_wit_perf_write : let s := tstEng { tstRun with perfW := [(3, 9)] }
    (s.eng 0).wrapped = 0 ∧ (s.eng 0).perfW = [(3, 9)] := by decide

/-- A request in the matrix. -/
def tstReq (m : Nat) (a : Word) (tgt : Option Nat) (stage : ReqStage) (kind : ReqKind := .read) (n : Nat := 4) (resp : Resp := .okay) : Req :=
  { id := 3, m := m, addr := a, kind := kind, len := n, data := if kind = .read then [] else List.replicate n 1, ordered := false, node := 0, orig := none,
    tgt := tgt, remap := false, stage := stage, beats := 0, accSeq := 0, resp := resp, rdata := [], issued := 0 }

/-- A running device with these requests. -/
def tstMtx (qs : List Req) : State := { State.reset with mtx := { State.reset.mtx with reqs := qs, next := 9 } }

/-- Issuing: the masters that may; a served, an unserved and a bridged address; a full engine; an ordered request behind another. -/
theorem test_wit_issue : State.reset.mayIssue 26 = true ∧ reqOk (tstRead 0x1000_0000 4) 26 = true ∧ State.reset.outstanding 26 = 0 ∧
    State.reset.target 0x1000_0000 ≠ none ∧ State.reset.target 0x3000_0000 = some 24 ∧ State.reset.target 0x4000_0000 = some 26 ∧ State.reset.target 0xF000_0000 = none ∧ (∃ a, State.reset.target a = some 28) ∧
    (tstMtx (List.replicate 32 (tstReq 26 0x1000_0000 (some 0) .waiting))).outstanding 26 = 32 ∧
    (∃ o ∈ (tstMtx [tstReq 26 0x1000_0000 (some 0) .waiting]).mtx.reqs, o.m = 26 ∧ o.stage ≠ .queued) :=
  ⟨by decide, by decide, by decide, by decide, by decide, by decide, by decide, ⟨0x6000_0000, by decide⟩, by decide, ⟨_, List.mem_singleton_self _, by decide⟩⟩

theorem test_wit_held : (tstMtx [tstReq 32 0x1000_0000 (some 0) .held]).mtx.reqs.find? (·.m == 32) = some (tstReq 32 0x1000_0000 (some 0) .held) ∧
    (0x0000_0420 : Word).toNat / 2 ^ 8 % 8 = Resp.link.code ∧ (0x0000_0120 : Word).toNat / 2 ^ 8 % 8 = Resp.decErr.code ∧ Resp.decErr ≠ .okay := by
  decide

/-- Target 0 chose master 0 last; of the masters after it only 26 has a request. -/
theorem test_wit_accept : let s := tstMtx [tstReq 26 0x1000_0000 (some 0) .waiting]
    s.mtx.last[(0 : TargetId)] = 0 ∧ s.mtx.accAt[(0 : TargetId)] ≠ some s.now ∧ s.oldest 0 26 = some (tstReq 26 0x1000_0000 (some 0) .waiting) ∧ s.accepted 0 < 56 ∧
    (∀ j, j < 25 → s.oldest 0 (1 + j) = none) ∧ ∀ j, j < 33 → State.reset.oldest 0 ((0 + 1 + j) % 33) = none := by decide

/-- Target 0 has accepted a request and had a beat in this fc, and bank 0 of the Main Store is busy in it. -/
theorem test_wit_used : let s : State := { State.reset with mtx := { State.reset.mtx with
      accAt := State.reset.mtx.accAt.set 0 (some 0), beatAt := State.reset.mtx.beatAt.set 0 (some 0), busy := [(0, 1)] } }
    s.mtx.accAt[(0 : TargetId)] = some s.now ∧ s.mtx.beatAt[(0 : TargetId)] = some s.now ∧
    ∃ p ∈ s.mtx.busy, s.now < p.2 ∧ p.1 = 0x1000_000C % 2 ^ 24 / 2 ^ 18 := ⟨rfl, rfl, (0, 1), List.mem_singleton_self _, by decide⟩

/-- A request in hand at each kind of store; those of the Main Store of every kind. -/
theorem test_wit_access : (∀ k : Fin 4, let q := tstReq 26 0x1000_000C (some 0) .accepted (#v[ReqKind.read, .write, .atomAdd, .atomSwap])[k] 4
      (tstMtx [q]).inHand 0 = some q ∧ q.refused = false ∧ storesSound (tstMtx [q]) ∧ q.site = 0x1000_000C ∧ q.site % 256 + q.len ≤ 256 ∧
      (tstMtx [q]).mtx.beatAt[(0 : TargetId)] ≠ some (tstMtx [q]).now ∧ (tstMtx [q]).mtx.busy = [] ∧
      (q.kind ≠ .read → q.data.length = q.len)) ∧
    (∀ p ∈ ([(8, 0x2000_000C), (23, 0x20F0_0010), (24, 0x3000_0004), (25, 0x3800_0008), (27, 0x5100_8004), (26, 0x4000_0001)] : List (Nat × Word)),
      let q := tstReq 0 p.2 (some p.1) .accepted
      (tstMtx [q]).inHand p.1 = some q ∧ q.refused = false ∧ q.site = p.2.toNat) ∧
    emuStore 0x5100_8004 = true ∧ tileAddr 15 0 ≤ 0x20F0_0010 := by unfold storesSound; decide

/-- A far read of a doubleword in which an atomic of the near port is at work in this fc, and one of another doubleword. -/
theorem test_wit_tile_meets : let s := (tstMtx []).modEng 0 fun x => { x with uses := [⟨0, true, true, true, 0x2000_0008 / 8, [], []⟩] }
    s.meetsAtomic 0 0x2000_000C 4 false = true ∧ s.meetsAtomic 0 0x2000_0010 4 false = false := by decide +kernel

/-- A read of 32 bytes in hand at a bridge has four beats, and its last beat is at hand after three; a register, and a cycle window. -/
theorem test_wit_bridge : let q := tstReq 0 0x6000_0000 (some 28) .accepted .read 32
    (tstMtx [q]).inHand 28 = some q ∧ q.refused = false ∧ q.beats + 1 < (q.addr.toNat + q.len - 1) / 8 - q.addr.toNat / 8 + 1 ∧
    ¬({ q with beats := 3 }.beats + 1 < (q.addr.toNat + q.len - 1) / 8 - q.addr.toNat / 8 + 1) ∧
    (tstReq 0 0x5000_0000 (some 27) .accepted).refused = false ∧ emuStore 0x5000_0000 = false ∧ lbpWindow 0x5000_0000 = none ∧
    (tstReq 0 0x5010_8000 (some 27) .accepted).refused = false ∧ lbpWindow 0x5010_8000 = some (0, 0) ∧ emuStore 0x5010_8000 = false ∧
    (tstReq 0 0xC000_0000 (some 29) .accepted).refused = false := by decide

theorem test_wit_refused : (tstReq 26 0x5000_0002 (some 27) .accepted .read 2).refused = true ∧
    (tstMtx [tstReq 26 0x5000_0002 (some 27) .accepted .read 2]).inHand 27 = some (tstReq 26 0x5000_0002 (some 27) .accepted .read 2) := by decide

/-- Answered requests of the host and of an engine that stand at the head of the matrix. -/
theorem test_wit_next_answered : (∀ k : Fin 4, let q := tstReq 26 0x1000_0000 (some 0) .done .read 4 (#v[Resp.okay, .decErr, .eccErr, .refuse])[k]
      nextAnswered (tstMtx [q]) q ∧ (tstMtx [q]).waitsFor q = false) ∧
    nextAnswered (tstMtx [tstReq 0 0x1000_0000 (some 0) .done]) (tstReq 0 0x1000_0000 (some 0) .done) := by
  refine ⟨fun k => ⟨⟨.inl rfl, by revert k; decide, by revert k; decide, by revert k; decide, by revert k; decide, [], [], rfl, by simp⟩,
    by revert k; decide⟩, ⟨.inl rfl, rfl, rfl, by decide, by decide, [], [], rfl, by simp⟩⟩

/-- What an engine may wait for with its request 3: a far load, a BMU element, a vector word. -/
theorem test_wit_engine_waits : let s := (tstMtx []).modEng 0 fun x => { x with bmu := some { tstBmuOp with code := 0, elems :=
      [⟨4, 0, 0, none, none, [⟨3, 0x8000_0000, none, []⟩], [], none⟩] } }
    let v := (tstMtx []).modEng 0 fun x => { x with vreq := some (3, 160, true) }
    (s.eng 0).vreq = none ∧ (s.eng 0).far = [] ∧ (s.eng 0).bmu = some { tstBmuOp with code := 0, elems :=
      [⟨4, 0, 0, none, none, [⟨3, 0x8000_0000, none, []⟩], [], none⟩] } ∧ s.rbit (Reg.teDfinfo 0) 14 = false ∧
    (v.eng 0).bmu = none ∧ (v.eng 0).vreq = some (3, 160, true) ∧ v.rbit (Reg.teCfg 0) 8 = false := by decide

theorem test_wit_master_reset : let s := tstMtx [{ tstReq 18 0x1000_0000 (some 0) .accepted .write 32 with beats := 1 }]
    (∀ q ∈ s.mtx.reqs, q.m = 18 → q.kind = .read ∨ q.kind = .write) ∧ (s.mtx.reqs.filter fun q => q.m == 18).filter Req.cut = s.mtx.reqs ∧
    (s.mtx.reqs.filter fun q => q.m == 32) = [] ∧ (s.mtx.reqs.filter fun q => q.m == 18).filter (fun q => q.stage != .passed && q.stage != .done && !q.gone) ≠ [] := by
  decide

/-! The Hatorlink -/

/-- Node 0, whose port 0 is in state `st` with these parts; node 5 stands at port 1. -/
def tstPort (st : Word) (x : HlPort := HlPort.zero) (rs : List (Nat × Word) := []) : State :=
  { tstRegs ([(Reg.hlStat 0, st), (Reg.hlRoute 0, 0x0010_0004), (Reg.hlNode, 0)] ++ rs) with
    now := 2000000, hl := { Hl.zero with ports := Hl.zero.ports.set 0 x } }

theorem test_wit_ports : (∀ st ∈ [0, 1, 2, 3], (tstPort (BitVec.ofNat 32 st)).hlState 0 = st) ∧
    ((tstPort 0 { HlPort.zero with retryAt := some 2000000 } [(Reg.hlCtl 0, 1)]).hlPort 0).retryAt = some 2000000 ∧
    (tstPort 0 HlPort.zero [(Reg.hlCtl 0, 1)]).rbit (Reg.hlCtl 0) 0 = true ∧
    ((tstPort 2).hlPort 0).win = (tstPort 2).fc.toNat / (1000 * max 1 ((tstPort 2).rfld (Reg.hlQcfg 0) 16 16)) ∧
    ((tstPort 2 { HlPort.zero with win := 1 }).hlPort 0).win ≠ (tstPort 2).fc.toNat / (1000 * max 1 ((tstPort 2).rfld (Reg.hlQcfg 0) 16 16)) := by
  decide

/-- Test of R321 and R327: a port that comes up drops from its replay buffer what its partner has received. -/
theorem test_port_up : (match exec (.portUp 0 5 1) (tstPort 1 { HlPort.zero with sent := [⟨{ tstFrm 3 false with lseq := 0 }, 1, 0, false⟩,
      ⟨{ tstFrm 3 false with lseq := 1 }, 1, 0, false⟩] }) with
    | .next t => ((t.hlPort 0).sent.map (·.f.lseq), t.reg (Reg.hlPartner 0))
    | _ => ([], 0)) = ([1], 0x8000_0005) := by decide +kernel

/-- A frame that waits. -/
def tstItem (typ : Nibble) (rsp orig : Bool) : HlItem := ⟨tstFrm typ rsp, 0, orig, none⟩

/-- What has been sent with LSEQ `n`. -/
def tstSent (n : Byte) (again : Bool) (tries : Nat := 1) : HlSent := ⟨{ tstFrm 3 false with lseq := n }, tries, 0, again⟩

/-- A TSYNC frame of each kind; a replay; ANGLE with the last free place; a response and a request with three. -/
theorem test_wit_send : (∀ o ∈ [true, false], ([tstItem 3 false false, tstItem 1 false o].find? fun i => hlClass i.f == 1) = some (tstItem 1 false o)) ∧
    ([tstSent 0 false, tstSent 1 true].find? (·.again)) = some (tstSent 1 true) ∧
    (let x : HlPort := { HlPort.zero with cred := 2, sent := [tstSent 0 false], txq := [tstItem 2 false false] }
     x.cred - x.sent.length = 1 ∧ (x.txq.find? fun i => hlClass i.f == 2) = some (tstItem 2 false false) ∧ (x.sent.find? (·.again)) = none) ∧
    (let x : HlPort := { HlPort.zero with cred := 3, txq := [tstItem 3 false false, tstItem 3 true false] }
     x.cred - x.sent.length = 3 ∧ (x.txq.find? fun i => hlClass i.f == 2) = none ∧
     (x.txq.find? fun i => hlClass i.f == 3) = some (tstItem 3 true false)) ∧
    (let x : HlPort := { HlPort.zero with cred := 3, txq := [tstItem 3 false false] }
     (x.txq.find? fun i => hlClass i.f == 3) = none ∧ (x.txq.find? fun i => hlClass i.f == 4) = some (tstItem 3 false false)) ∧
    (tstPort 2).hlState 0 = 2 ∧ ((tstPort 2).hlPort 0).busy ≤ (tstPort 2).now := by decide

/-- An acknowledged LSEQ that is outstanding, at the wrap, and one that is not; a replay whose tries are at and above RETRY. -/
theorem test_wit_ack : let s := tstPort 2 { HlPort.zero with sent := [tstSent 0xFF false, tstSent 0 false] } [(Reg.hlCfg 0, 1)]
    s.hlState 0 = 2 ∧ (s.hlPort 0).injAck = false ∧ (∃ q ∈ (s.hlPort 0).sent, q.f.lseq = 0xFF) ∧ (∀ q ∈ (s.hlPort 0).sent, q.f.lseq ≠ 1) ∧
    (∀ q ∈ (s.hlPort 0).sent, q.tries ≤ max 1 (s.rfld (Reg.hlCfg 0) 0 4)) ∧ (tstSent 0xFF false).since + max 500 (s.rfld (Reg.hlCfg 0) 8 16) ≤ s.now ∧
    (∀ r ∈ (s.hlPort 0).sent, (r.f.lseq - 0xFF).toNat < 128) ∧ max 1 (s.rfld (Reg.hlCfg 0) 0 4) < (tstSent 0xFF false 2).tries ∧
    (tstPort 2 HlPort.zero [(Reg.hlQcfg 0, 0)]).rfld (Reg.hlQcfg 0) 0 8 = 0 := by decide

theorem test_wit_frame_error : (let s := { (tstPort 2) with csr := ((tstPort 2).setReg (Reg.hlStat 1) 2).csr }
      s.route 5 = .port 1 ∧ s.hlState 1 = 2 ∧ (s.hlPort 1).busy ≤ s.now ∧ (tstFrm 3 false).hops.toNat < 64 ∧ (tstFrm 3 false).bc = false) ∧
    (tstPort 2).hlState 0 = 2 ∧ (tstFrm 4 true).rsp = true ∧ (tstFrm 1 false).typ = 1 ∧ (tstFrm 1 false).rsp = false := by decide

/-- A request, a message and a response for an unexpected node whose SRC has a route. -/
theorem test_wit_wrong_node : (tstPort 2).hlState 0 = 2 ∧ (tstPort 2).route (tstFrm 4 false).src = .port 1 ∧ (tstFrm 4 false).bc = false ∧
    (tstFrm 3 false).typ = 3 ∧ (tstFrm 7 false).typ = 7 ∧ (tstFrm 4 true).rsp = true := by decide

/-- The routes of a request at the bridge: another node over a port that is or is not in quarantine, this node, and none; every tag in use. -/
theorem test_wit_bridge_routes : (tstPort 2).route 5 = .port 1 ∧ (tstPort 2).hlState 1 = 0 ∧ (tstPort 2 HlPort.zero [(Reg.hlStat 1, 3)]).hlState 1 = 3 ∧
    (tstPort 2).route 0 = .own ∧ State.reset.route 0x7FF = .none ∧ (tstPort 2).freeTag ≠ none ∧
    (let s := tstPort 2
     ({ s with hl := { s.hl with txns := (List.range 256).map fun k => ⟨BitVec.ofNat 8 k, 0, 5, 1, 0⟩ } } : State).freeTag = none) := by decide +kernel

/-- A Time Base source whose TSYNC frame is due. -/
theorem test_wit_tsync_send : (tstPort 2 HlPort.zero [(Reg.tmrTbctl, 2)]).rfld Reg.tmrTbctl 0 2 = 2 ∧
    (tstPort 2 HlPort.zero [(Reg.tmrTbctl, 2)]).tmrOn = true ∧
    (tstPort 2 HlPort.zero [(Reg.hlTsper, 0x1E8480)]).hl.tsAt + max 1000 ((tstPort 2 HlPort.zero [(Reg.hlTsper, 0x1E8480)]).reg Reg.hlTsper).toNat ≤ 2000000 ∧
    2000000 < (tstPort 2 HlPort.zero [(Reg.hlTsper, 0x1E8481)]).hl.tsAt + max 1000 ((tstPort 2 HlPort.zero [(Reg.hlTsper, 0x1E8481)]).reg Reg.hlTsper).toNat := by
  decide

/-- A TSYNC frame of node 5 after 63 hops at a follower of it, relayed on port 1. -/
def tstTsync : HlFrame := { tstFrm 1 false 8 63 with bc := true, noseq := true }

theorem test_wit_tsync : let s := tstPort 2 HlPort.zero [(Reg.tmrTbctl, 1), (Reg.hlBcfwd 0, 0x12), (Reg.hlTsctl, 0x5000)]
    lineUp s 0 ∧ hlGood tstTsync = true ∧ tstTsync.hops.toNat < 64 ∧ s.rbit (Reg.hlBcfwd 0) 1 = true ∧ s.rbit (Reg.hlBcfwd 0) 4 = true ∧
    s.follower = true ∧ tstTsync.src.toNat = s.rfld Reg.hlTsctl 12 12 ∧ (0 : PortId).val = s.rfld Reg.hlTsctl 0 2 ∧ s.hl.tsSeen = [] := by
  unfold lineUp; decide

def tstAngle : HlFrame := { tstFrm 2 false 32 0 0x33 with bc := true }

theorem test_wit_angle : let s := tstPort 2 HlPort.zero [(Reg.hlBcfwd 0, 0x10), (Reg.abCtl 7, 1), (Reg.abCfg 7, 5), (Reg.abCpt 7, 16), (Reg.abSrc1 7, 0x3005)]
    lineUp s 0 ∧ tstAngle.noseq = false ∧ tstAngle.lseq = (s.hlPort 0).rxSeq ∧ hlGood tstAngle = true ∧ s.rbit (Reg.hlBcfwd 0) 4 = true ∧
    s.followsBase 7 tstAngle.src (tstAngle.w2.toNat % 8) = true ∧ (s.base 7).snaps = [] ∧ s.hl.anSeen = [] := by unfold lineUp; decide

/-- Messages for this node, with delivery off, to a full queue, and to one with a place. -/
def tstMsg (eng : Word) (n : Nat) : State :=
  { tstPort 2 HlPort.zero [(Reg.hlMsgeng, eng)] with
    map := State.reset.map.set 2 (some 0), engines := State.reset.engines.set 0 { tstRun with inq := List.replicate n ⟨0, 0, 0, 0⟩ } }

theorem test_wit_msg : received (tstMsg 0 0) 0 (tstFrm 3 false 8) 3 false ∧ (tstMsg 0 0).route 5 = .port 1 ∧ (tstMsg 0 0).power = .run ∧
    (tstMsg 0 0).rbit Reg.hlMsgeng 31 = false ∧ received (tstMsg 0x8000_0002 16) 0 (tstFrm 3 false 8) 3 false ∧
    (tstMsg 0x8000_0002 16).rbit Reg.hlMsgeng 31 = true ∧
    (tstMsg 0x8000_0002 16).map[(tstMsg 0x8000_0002 16).rfld Reg.hlMsgeng 0 4]? = some (some 0) ∧
    ((tstMsg 0x8000_0002 16).eng 0).inq.length = 16 ∧ ((tstMsg 0x8000_0002 15).eng 0).inq.length = 15 := by unfold received lineUp; decide

/-- A message with tag 7 to node 5, sent or not. -/
def tstSend (sent : Option Nat) (tries : Nat) : State :=
  let s := tstPort 2 HlPort.zero [(Reg.hlBusyrt, 0x0001_0001)]
  { s with hl := { s.hl with msgs := [⟨7, some 0, 5, 1, 2, tries, sent, 0⟩] } }

theorem test_wit_msg_response : (∀ w ∈ [0, 1], received (tstSend (some 0) 1) 0 { tstFrm 3 true with w3 := BitVec.ofNat 32 w } 3 true) ∧
    (tstSend (some 0) 1).hl.msgs = [⟨7, some 0, 5, 1, 2, 1, some 0, 0⟩] ∧ 1 ≤ (tstSend (some 0) 1).rfld Reg.hlBusyrt 16 8 ∧
    (tstFrm 3 true).tag = 7 ∧ (tstPort 2).hl.msgs = [] ∧ (tstSend none 1).route 5 = .port 1 ∧ (tstSend none 1).hl.msgs = [⟨7, some 0, 5, 1, 2, 1, none, 0⟩] ∧
    (tstSend (some 0) 1).hl.txns = [] ∧ 0 + max 1000 ((tstSend (some 0) 1).reg Reg.hlTxto).toNat ≤ (tstSend (some 0) 1).now := by
  unfold received lineUp; decide

/-- A message to this node itself, which is due: node 0 with its own number routed to itself. -/
def tstOwnMsg : State :=
  let s := tstMsg 0x8000_0002 15
  { s with hl := { s.hl with msgs := [⟨7, some 0, 0, 1, 2, 1, some 0, 0⟩], own := [(s.now, 7)] } }

theorem test_wit_own_message : tstOwnMsg.hl.own = [(tstOwnMsg.now, 7)] ∧ tstOwnMsg.hl.msgs = [⟨7, some 0, 0, 1, 2, 1, some 0, 0⟩] ∧
    tstOwnMsg.power = .run ∧ tstOwnMsg.rbit Reg.hlMsgeng 31 = true ∧ tstOwnMsg.map[tstOwnMsg.rfld Reg.hlMsgeng 0 4]? = some (some 0) ∧
    (tstOwnMsg.eng 0).inq.length = 15 ∧ tstOwnMsg.route 0 = .own := by decide

/-- Requests of node 5: at the end of the window, beyond it, and across 256 bytes. -/
theorem test_wit_remote_request : (∀ k : Fin 4, let a := (#v[0x1FF_FFF8, 0x200_0000, 0xFF_FFF8, 0xFC] : Vector Word 4)[k]
      received (tstPort 2) 0 (tstFrm 4 false 0 0 a 8) 4 false) ∧ received (tstPort 2) 0 (tstFrm 5 false 8 0 0xFC 5) 5 false ∧
    received (tstPort 2) 0 (tstFrm 6 false 8 0 0x10 0x1000) 6 false ∧ (tstPort 2).route 5 = .port 1 ∧
    (0x1F00_0000 + 0x1FF_FFF8) % 256 + 8 ≤ 256 ∧ 256 < (0x1000_0000 + 0xFC) % 256 + 5 := by unfold received lineUp; decide

/-- A remote read of this part with tag 7 to node 5, and no transaction. -/
def tstTxn : State :=
  let s := tstPort 2
  { s with hl := { s.hl with txns := [⟨7, 3, 5, 1, 0⟩] },
           mtx := { s.mtx with reqs := [tstReq 0 0x6000_0000 (some 28) .accepted] } }

theorem test_wit_remote_response : received tstTxn 0 (tstFrm 4 true 8) 4 true ∧ received (tstPort 2) 0 (tstFrm 4 true 8) 4 true ∧
    (tstTxn.hl.txns.find? (fun x => x.tag == (tstFrm 4 true 8).tag && x.node == (tstFrm 4 true 8).src)) = some ⟨7, 3, 5, 1, 0⟩ ∧
    tstTxn.findReq 3 = some (tstReq 0 0x6000_0000 (some 28) .accepted) ∧ (tstPort 2).hl.txns = [] ∧
    0 + max 1000 (tstTxn.reg Reg.hlTxto).toNat ≤ tstTxn.now ∧
    (0 : Nat) < 0 + max 1000 (tstTxn.reg Reg.hlTxto).toNat := by unfold received lineUp; decide

/-- Responses that fit the read of `tstTxn` and that do not, by type and by length. -/
theorem test_wit_response_fits : ((tstFrm 4 true 8).typ = 4 ∧ (tstFrm 4 true 8).w3.toNat / 2 ^ 24 % 8 = 0 ∧ (tstFrm 4 true 8).payload.length = max 4 8) ∧
    received tstTxn 0 (tstFrm 5 true) 5 true ∧ (tstFrm 5 true).typ ≠ 4 ∧
    received tstTxn 0 (tstFrm 4 true 16) 4 true ∧ (tstFrm 4 true 16).payload.length ≠ max 4 8 := by unfold received lineUp; decide

/-- A request of node 5 in hand, one part of which is under way. -/
theorem test_wit_remote_done : let s := tstPort 2
    let q : HlIn := ⟨[(9, none)], 0, 5, 7, 4, 0x10, 8, 8⟩
    let t : State := { s with hl := { s.hl with inb := [q] } }
    t.hl.inb = [q] ∧ q.parts = [(9, none)] ∧ t.route q.src = .port 1 ∧ ({ q with typ := 7 } : HlIn).typ = 7 := by decide

/-- An image request at the last bytes of the window, and one byte beyond it. -/
theorem test_wit_config : let s := tstPort 2 HlPort.zero [(Reg.hlImgbase, 0x1000_0000), (Reg.hlImglen, 0x18)]
    received s 0 (tstFrm 7 false 0 0 0x801 0x10) 7 false ∧ (s.reg Reg.hlImglen).toNat = 0x10 + 8 ∧
    received s 0 (tstFrm 7 false 0 0 0x901 0x10) 7 false ∧ storesSound s ∧ s.mtx.inj = [] ∧ (∀ i, i < 8 → s.region (0x1000_0010 + i) = .main) ∧
    received s 0 (tstFrm 7 true 8 0 0x801 0x10) 7 true ∧ s.boot.wait = none := by unfold received lineUp storesSound; decide

/-! PCIe, Ethernet and the Legacy Bus Ports -/

/-- The link is up with these registers, configuration space and outbound reads. -/
def tstPcie (rs : List (Nat × Word)) (p : Pcie := Pcie.zero) (qs : List Req := []) : State :=
  { tstRegs ([(Reg.pcieStat, 8), (Reg.pcieCtl, 1)] ++ rs) with pcie := p, now := 60000, mtx := { State.reset.mtx with reqs := qs } }

/-- Offsets at the ends of the windows of BAR0, and the addresses they name (R352). -/
theorem test_bar : (tstPcie []).barAddr true 0x1F_FFFF = 0x501F_FFFF ∧ (tstPcie []).barAddr true 0x20_0000 = 0x5100_0000 ∧
    (tstPcie []).barAddr true 0x2F_FFFF = 0x510F_FFFF ∧ (tstPcie []).target ((tstPcie []).barAddr true 0x30_0000) = none ∧
    (tstPcie []).target ((tstPcie []).barAddr true 0x3F_FFFC) = none ∧ (tstPcie [(Reg.pcieWin 3, 0x10)]).barAddr false 0x300_0004 = 0x1000_0004 := by
  decide

theorem test_wit_pcie : (tstPcie []).pcieUp = true ∧ (tstPcie []).power = .run ∧ (tstPcie []).pcie.out = [] ∧
    (let s := tstPcie [] { Pcie.zero with out := [(3, 0)] } [tstReq 0 0x7000_0000 (some 29) .accepted]
     s.findReq 3 = some (tstReq 0 0x7000_0000 (some 29) .accepted) ∧ 0 + 1000 * max 1 (s.reg Reg.pcieCplto).toNat ≤ s.now ∧
     (∀ q ∈ s.mtx.reqs, q.m = 26 → q.kind = .read ∨ q.kind = .write)) ∧
    (0 : Nat) < 0 + 1000 * max 1 ((tstPcie []).reg Reg.pcieCplto).toNat ∧ (tstPcie []).rbit Reg.pcieCtl 0 = true := by decide

/-- A malformed request and one of the most bytes; a write of the host whose only part is answered with DECERR or REFUSE; a read whose second
part fails. -/
theorem test_wit_pcie_inbound : (⟨true, true, 0, false, 4, []⟩ : PcieReq).bad = true ∧ (⟨false, true, 0xFC, false, 256, []⟩ : PcieReq).bad = false ∧
    (let q : PcieIn := ⟨true, [(3, none)]⟩
     let s := tstPcie [] { Pcie.zero with inb := [q] }
     s.pcie.inb.find? (fun x => x.parts.any (·.1 == 3)) = some q ∧ q.write = true ∧ (tstReq 26 0 (some 0) .done .write 4 .decErr).resp = .decErr ∧
     (tstReq 26 0 (some 0) .done .write 4 .refuse).resp ≠ .okay ∧ (tstReq 26 0 (some 0) .done .write 4 .refuse).resp ≠ .decErr) ∧
    (let q : PcieIn := ⟨false, [(2, some (.okay, [1])), (3, none)]⟩
     let s := tstPcie [] { Pcie.zero with inb := [q] }
     s.pcie.inb.find? (fun x => x.parts.any (·.1 == 3)) = some q ∧
     q.parts.map (partTake 3 .refuse []) = [(2, some (.okay, [1]))] ++ [(3, some (.refuse, []))]) := by decide

/-- Vector 31 follows source 8, the Almanac, which is asserted; MSI is on with 32 vectors, and the vector is masked or not. -/
def tstMsi (mask pend : Word) : State :=
  tstPcie [(Reg.pcieMsirt 31, 0x8000_0008), (Reg.almStat, 0xF00), (Reg.almCtl, 0xF00)]
    { Pcie.zero with cfg := [(msiCap, 0x0051_0000), (msiCap + 16, mask)], pend := pend }

theorem test_wit_msi : (tstMsi 0 0).rbit (Reg.pcieMsirt 31) 31 = true ∧ (tstMsi 0 0).source ((tstMsi 0 0).rfld (Reg.pcieMsirt 31) 0 8) = true ∧
    (tstMsi 0 0).msiOn = true ∧ (tstMsi 0 0).pcie.seen.getLsbD 31 = false ∧ (tstMsi 0 0).msiMasked 31 = false ∧
    (tstMsi 0x8000_0000 0).msiMasked 31 = true ∧ (tstMsi 0x8000_0000 0x8000_0000).pcie.pend = BitVec.ofNat 32 (2 ^ (31 : MsiId).val) ∧
    (0x7FFF_FFFF : Word).getLsbD (31 : MsiId).val = false := by decide

/-- MAC 0 with its rings and these descriptors in hand, and these requests in the matrix. -/
def tstEth (tx rx : Option EthJob) (qs : List Req := []) : State :=
  { tstRegs [(Reg.ethCtl 0, 3), (Reg.ethTxring 0, 0x1000_0000), (Reg.ethRxring 0, 0x1000_0100)] with
    eth := State.reset.eth.set 0 { State.reset.eth[(0 : PairId)] with txJob := tx, rxJob := rx }, mtx := { State.reset.mtx with reqs := qs, next := 9 } }

/-- A descriptor in hand in this step, whose one request is number 3. -/
def tstJob (step : EthStep) (a : Nat) (w1 : Word) : EthJob := ⟨step, a, w1, if step = .ready then [] else [(3, none)], List.replicate 64 7, 0⟩

/-- The answer to that request: `w1` as the second word of a descriptor. -/
def tstDesc (w1 : Word) (resp : Resp) : Req :=
  { tstReq 27 0x1000_0000 (some 0) .done .read 16 resp with rdata := bytesOf 4 0x1000_0200 ++ bytesOf 4 w1.toNat ++ List.replicate 8 0 }

/-- A transmit descriptor in each step, owned or not, read or not. -/
theorem test_wit_eth_transmit : (tstEth none none).power = .run ∧ (tstEth none none).rbit (Reg.ethCtl 0) 0 = true ∧
    (tstEth none none).eth[(0 : PairId)].down = false ∧ (tstEth none none).eth[(0 : PairId)].pause ≤ (tstEth none none).now ∧
    (tstEth none none).eth[(0 : PairId)].txJob = none ∧ State.reset.rbit (Reg.ethCtl 0) 0 = false ∧
    (tstEth (some (tstJob .ready 0x1000_0000 0xB000_0040)) none).eth[(0 : PairId)].txJob = some (tstJob .ready 0x1000_0000 0xB000_0040) ∧
    (tstJob .ready 0x1000_0000 0xB000_0040).step = .ready ∧ (tstJob .data 0 0).step ≠ .ready ∧
    (let s := tstEth (some (tstJob .desc 0x1000_0000 0)) none [tstDesc 0x8000_0040 .okay]
     s.nextResponse 27 = some (tstDesc 0x8000_0040 .okay) ∧ EthJob.asks s.eth[(0 : PairId)].txJob 3 = true) := by decide

theorem test_wit_eth_answer : (∀ st ∈ [EthStep.desc, .data, .back], ∀ c ∈ [Resp.okay, .decErr],
      answered (tstJob st 0x1000_0000 0).parts (tstDesc 0x8000_0040 c) c (tstDesc 0x8000_0040 c).rdata) ∧
    (wordAt (tstDesc 0x8000_0040 .okay).rdata 1).getLsbD 31 = true ∧ (wordAt (tstDesc 0x40 .okay).rdata 1).getLsbD 31 = false ∧
    0 < min (tstJob .desc 0 0).bytes.length ((wordAt (tstDesc 0x8000_0040 .okay).rdata 1).toNat % 2 ^ 11) ∧
    (tstJob .back 0x1000_0000 0).at' = ((tstEth none none).reg (Reg.ethTxring 0)).toNat + (tstEth none none).eth[(0 : PairId)].tx ∧
    (tstJob .back 0x1000_0100 0).at' = ((tstEth none none).reg (Reg.ethRxring 0)).toNat + (tstEth none none).eth[(0 : PairId)].rx ∧
    (tstJob .data 0 0x8000_0040).bytes.length ≤ (tstJob .data 0 0x8000_0040).w1.toNat % 2 ^ 11 ∧
    EthJob.asks (tstEth none (some (tstJob .desc 0x1000_0100 0))).eth[(0 : PairId)].txJob 3 = false := by unfold answered; decide

/-- Frames of 59, 60, 1518 and 1519 bytes that are ready to be sent, and an MDIO access in progress and none. -/
theorem test_wit_eth_lengths : (∀ n ∈ [59, 60, 1518, 1519], ({ tstJob .ready 0 0 with bytes := List.replicate n 7 } : EthJob).bytes.length = n) ∧
    (tstEth none none).eth[(0 : PairId)].mdio = none ∧
    (({ tstEth none none with eth := State.reset.eth.set 0 { State.reset.eth[(0 : PairId)] with mdio := some (5, 0x4000_0000) } } : State).eth[(0 : PairId)].mdio =
      some (5, 0x4000_0000)) ∧ (tstEth none none).now < 5 := by
  exact ⟨fun n _ => List.length_replicate .., by decide⟩

/-- A frame of 64 bytes, of which the first ones are given. -/
def tstMac (bs : List Byte) : EthFrame := ⟨bs ++ List.replicate (64 - bs.length) 0, true, 800⟩

/-- A PAUSE frame as R357 gives it: its time is 0x0102 quanta. -/
def tstPause : EthFrame := tstMac [1, 0x80, 0xC2, 0, 0, 1, 0, 0, 0, 0, 0, 0, 0x88, 8, 0, 1, 1, 2]

theorem test_wit_eth_receive : (tstEth none none).rbit (Reg.ethCtl 0) 1 = true ∧ (tstEth none none).eth[(0 : PairId)].rxJob = none ∧
    (tstEth none none).eth[(0 : PairId)].rxq = [] ∧ (tstEth none (some (tstJob .data 0 0))).eth[(0 : PairId)].rxJob ≠ none ∧
    (tstMac []).data.length = 64 ∧ pauseTime (tstMac []).data = none ∧ pauseTime tstPause.data = some 0x102 ∧ tstPause.data.length = 64 := by
  decide +kernel

/-- Backplane port 0 with this LBP_CFG. -/
def tstLbp (cfg : Word) (x : Lbp := Lbp.zero) (rs : List (Nat × Word) := []) (qs : List Req := []) : State :=
  { tstRegs ([(Reg.lbpCfg 0, cfg)] ++ rs) with lbp := State.reset.lbp.set 0 x, now := 5000, mtx := { State.reset.mtx with reqs := qs } }

/-- Window accesses in master mode without the READY role, with it, and in another mode. -/
theorem test_wit_window : (tstLbp 1).power = .run ∧ (tstLbp 1).lbp[(0 : PairId)].cyc = none ∧ (tstLbp 1).lbp[(0 : PairId)].idle ≠ some (tstLbp 1).now ∧ (tstLbp 1).mtx.reqs = [] ∧
    (tstLbp 0).lbpMode 0 ≠ 1 ∧ (tstLbp 3).lbpMode 0 = 0 ∧ (tstLbp 1).lbpMode 0 = 1 ∧ (tstLbp 1).lbpHasRole 0 4 = false ∧
    (tstLbp 1 Lbp.zero [(Reg.lbpHsrole 0, 4), (Reg.lbpMaxw 0, 9)]).lbpHasRole 0 4 = true ∧
    (9 : BitVec 16).toNat ≤ max 1 ((tstLbp 1 Lbp.zero [(Reg.lbpHsrole 0, 4), (Reg.lbpMaxw 0, 9)]).rfld (Reg.lbpMaxw 0) 0 16) := by decide

/-- Two requests at the window of port 0, of which the second in issue order was accepted first. -/
theorem test_wit_window_request : let q := { tstReq 26 0x5010_8000 (some 27) .passed with id := 4, accSeq := 1 }
    let r := tstReq 0 0x5010_8004 (some 27) .passed
    let s := tstLbp 1 Lbp.zero [] [q, r]
    r ∈ s.mtx.reqs ∧ r.atWindow 0 = true ∧ (∀ q ∈ s.mtx.reqs, q.atWindow 0 = true → q = r ∨ r.accSeq < q.accSeq) ∧ s.findReq 3 = some r := by decide

/-- A cycle that began at 0: its strobe stands from 10 on, and READY has been seen or not. -/
def tstCyc (write : Bool) (rel : Option Nat) (req : Option Nat := some 3) : LbpCycle := ⟨0, write, 0x55, 0, 10, rel, 4, req, false⟩

/-- Port 0 at model fc `n` in this cycle, for a read of its window. -/
def tstCycle (c : LbpCycle) (n : Nat) : State :=
  { tstLbp 1 { Lbp.zero with cyc := some c, a := some 0 } [(Reg.lbpMaxw 0, 0x100)] [tstReq 26 0x5010_8000 (some 27) .passed] with now := n }

/-- No READY until the timeout and at it. -/
theorem test_wit_ready_timeout : (tstCycle (tstCyc false none) 265).lbp[(0 : PairId)].cyc = some (tstCyc false none) ∧
    (tstCycle (tstCyc false none) 265).lbp[(0 : PairId)].a ≠ none ∧
    (265 : Nat) < 10 + max 1 ((tstCycle (tstCyc false none) 265).rfld (Reg.lbpMaxw 0) 0 16) ∧
    10 + max 1 ((tstCycle (tstCyc false none) 266).rfld (Reg.lbpMaxw 0) 0 16) ≤ 266 := by decide

/-- A strobe that stands until 20 and a hold of 4 fc after it: before, in and after it. -/
theorem test_wit_cycle : (tstCyc false (some 20)).rel = some 20 ∧ (19 : Nat) < 20 ∧ (20 : Nat) ≤ 23 ∧ 23 < 20 + (tstCyc false (some 20)).hold ∧
    20 + (tstCyc false (some 20)).hold ≤ 24 ∧ (tstCycle (tstCyc false (some 20)) 20).findReq 3 = some (tstReq 26 0x5010_8000 (some 27) .passed) ∧
    (tstReq 26 0x5010_8000 (some 27) .passed).kind = .read ∧ (tstCyc false (some 20) none).req = none ∧ (tstCyc true (some 20)).write = true := by
  decide

/-- Test of R362: a read is answered as the strobe is released, and the lines are released THLD later. -/
theorem test_cycle_ends : ((((tstCycle (tstCyc false (some 20)) 20).lbpCycleTick 0).findReq 3).map (·.rdata)) = some [0x55, 0, 0, 0] ∧
    ((tstCycle (tstCyc false (some 20)) 24).lbpCycleTick 0).lbp[(0 : PairId)].a = none := by decide +kernel

theorem test_wit_lbp_mode : (tstLbp 0).lbpMode 0 = 0 ∧ (tstLbp 0 Lbp.zero [(Reg.lbpHsrole 0, 0x77)]).lbpTwice 0 = true ∧ (tstLbp 0).lbpTwice 0 = false ∧
    (tstLbp 2).lbpMode 0 = 2 ∧ (tstLbp 1).lbp[(0 : PairId)].cyc = none ∧ (tstLbp 0).lbp[(0 : PairId)].evq = [] ∧
    (3 : Word).toNat % 4 = 3 := by decide

/-- A slave that serves the word addresses 0x10 and 0x11. -/
def tstSlave : State := tstLbp 2 Lbp.zero [(Reg.lbpSbase 0, 0x10), (Reg.lbpSlen 0, 2), (Reg.lbpTim 0, 0x500), (Reg.lbpHsrole 0, 0x321)]

theorem test_wit_slave : tstSlave.lbpMode 0 = 2 ∧ tstSlave.lbpHasRole 0 1 = true ∧ tstSlave.lbpHasRole 0 2 = true ∧ tstSlave.lbpHasRole 0 3 = true ∧
    (tstLbp 2).lbpHasRole 0 1 = false ∧ tstSlave.rfld (Reg.lbpSbase 0) 0 24 = 0x10 ∧ tstSlave.rfld (Reg.lbpSlen 0) 0 25 = 2 ∧
    (4 : Stall).toNat < max 1 (tstSlave.rfld (Reg.lbpTim 0) 8 8) ∧ ¬(5 : Stall).toNat < max 1 (tstSlave.rfld (Reg.lbpTim 0) 8 8) := by decide

/-- A read of a slave that is answered while its strobe stands. -/
theorem test_wit_slave_answer : let s : State := tstLbp 2 { Lbp.zero with cyc := some ⟨0, false, 0, 4990, 4990, some 5010, 0, some 3, false⟩ }
    s.lbp[(0 : PairId)].opens = none ∧ s.lbp[(0 : PairId)].backs = [] ∧ s.lbp[(0 : PairId)].a = none ∧ s.now < 5010 ∧
    (tstReq 18 0x1000_0000 (some 0) .done).id = 3 := by decide

/-- A slave with bursts and this burst, with this event at the end of the fc. -/
def tstBurst (b : Option LbpBurst) (ev : List (Nat × LbpEvent) := []) (o : Option (Nat × Bool) := none) : State :=
  tstLbp 0xA { Lbp.zero with burst := b, evq := ev, opens := o } [(Reg.lbpRxring 0, 0x1000_0000), (Reg.lbpGapt 0, 100)]

/-- A burst of `n` beats in a descriptor of `cap`, the last one at 4900. -/
def tstOpen (n cap : Nat) (orphan : Bool := false) : LbpBurst := ⟨0x1000_0000, 0x1000_0200, cap, false, n, orphan, 0, 4900⟩

/-- A burst with each event; the gap timer at its end and before it; the last place of a descriptor and one before it. -/
theorem test_wit_burst_events : burstsOn (tstBurst none) 0 ∧
    (∀ ev ∈ [LbpEvent.start, .beat 5 8, .done, .gap, .stop], (tstBurst none [(5000, ev)]).lbp[(0 : PairId)].evq = [(5000, ev)] ∧
      (tstBurst (some (tstOpen 1 2)) [(5000, ev)]).lbp[(0 : PairId)].burst = some (tstOpen 1 2) ∧ 5000 ≤ (tstBurst none).now) ∧
    (tstBurst none).lbp[(0 : PairId)].opens = none ∧ (tstOpen 1 2).cap ≤ (tstOpen 1 2).count + 1 ∧ (tstOpen 1 3).count + 1 < (tstOpen 1 3).cap ∧
    (tstOpen 1 2).count + 1 < 2 ^ 16 ∧ (tstBurst none).reg (Reg.lbpGapt 0) ≠ 0 ∧
    (tstOpen 1 2).since + ((tstBurst none).reg (Reg.lbpGapt 0)).toNat ≤ 5000 ∧ 4999 < (tstOpen 1 2).since + ((tstBurst none).reg (Reg.lbpGapt 0)).toNat ∧
    (tstOpen 1 2).orphan = false ∧ (tstOpen 1 2 true).orphan = true ∧ (tstBurst none).rbit (Reg.lbpCfg 0) 7 = false := by
  unfold burstsOn; decide

/-- A descriptor that has been read, owned or not, with no event and with a beat; and a write-back that is answered. -/
theorem test_wit_burst_open : (tstBurst none [] (some (3, true))).lbp[(0 : PairId)].opens = some ((tstDesc 0x8000_0002 .okay).id, true) ∧
    (tstDesc 0x8000_0002 .okay).resp = .okay ∧ (wordOf ((tstDesc 0x8000_0002 .okay).rdata.drop 4 |>.take 4)).getLsbD 31 = true ∧
    (tstDesc 2 .okay).resp = .okay ∧ (tstBurst none [(5000, .beat 5 8)] (some (3, true))).lbp[(0 : PairId)].evq = [(5000, .beat 5 8)] ∧
    (tstBurst none [] (some (3, true))).lbp[(0 : PairId)].burst = none ∧
    (tstReq 18 0x1000_0004 (some 0) .done .write 12).id ∈ ({ Lbp.zero with backs := [3] }).backs := by decide

/-! Serial ports, pins and DMA -/

/-- UART 0 with these FIFOs. -/
def tstUart (ctl : Word) (rx : List Half) (tx : List Byte) (shift cts : Bool) : State :=
  { tstRegs [(Reg.uartCtl 0, ctl)] with uart := State.reset.uart.set 0 ⟨rx, tx, shift, cts, none⟩ }

theorem test_wit_uart : (tstUart 1 (List.replicate 63 0) [] false true).power = .run ∧ (tstUart 1 [] [] false true).rbit (Reg.uartCtl 0) 0 = true ∧
    (tstUart 1 (List.replicate 63 0) [] false true).uart[(0 : PortId)].rx.length = 63 ∧
    (tstUart 1 (List.replicate 64 0) (List.replicate 64 0) true false).uart[(0 : PortId)].rx.length = 64 ∧
    (tstUart 1 [] (List.replicate 64 0) true false).uart[(0 : PortId)].tx.length = 64 ∧ (tstUart 1 [] [5] true false).uart[(0 : PortId)].tx = [5] ∧
    (tstUart 3 [] [] false false).rbit (Reg.uartCtl 0) 1 = true ∧ (tstUart 1 [9] [] false true).uart[(0 : PortId)].rx = [9] ∧
    (let s : State := { tstUart 1 [] [] false true with power := .hold, holdAt := 5, now := 9 }
     s.power = .hold ∧ s.rbit (Reg.uartCtl 0) 0 = true ∧ s.now ≤ s.holdAt + 4 ∧ s.holdAt + 3 < s.now) := by decide

/-- Test of R371: a 7-bit character with a parity error, with parity off. -/
theorem test_uart_receive : (match exec (.uartReceive 0 ⟨0, 0xC1, true, true, false⟩) (tstUart 0x21 [] [] false true) with
    | .next t => t.uart[(0 : PortId)].rx
    | _ => []) = [0x141] := by decide +kernel

/-- SPI 1 with these FIFO lengths. -/
def tstSpi (ctl : Word) (rx tx : Nat) (sh : Option Word := none) : State :=
  { tstRegs [(Reg.spiCtl 1, ctl)] with
    spi := State.reset.spi.set 0 ⟨List.replicate rx 1, List.replicate tx 2, sh, sh.isSome, none, none, none⟩ }

theorem test_wit_spi : (tstSpi 1 0 31).rbit (Reg.spiCtl 1) 0 = true ∧ (tstSpi 1 0 31).spi[(0 : SpiId)].tx.length = 31 ∧
    (tstSpi 1 32 32).spi[(0 : SpiId)].tx.length = 32 ∧ (tstSpi 1 32 32).spi[(0 : SpiId)].rx.length = 32 ∧ (tstSpi 1 0 0).rbit (Reg.spiCtl 1) 2 = false ∧
    (tstSpi 1 0 0).power = .run ∧ (tstSpi 0 0 0).rbit (Reg.spiCtl 1) 0 = false ∧ (tstSpi 5 0 1).spi[(0 : SpiId)].tx ≠ [] ∧ (tstSpi 5 0 1).spi[(0 : SpiId)].sh = none ∧
    (tstSpi 5 32 1 (some 9)).spi[(0 : SpiId)].sh = some 9 ∧ (tstSpi 1 0 1).spi[(0 : SpiId)].sh = none ∧
    (tstSpi 1 0 1).spi[(0 : SpiId)].ctl = none ∧ (tstSpi 1 0 1).spi[(0 : SpiId)].fmt = none ∧ (tstSpi 1 0 1 (some 9)).spi[(0 : SpiId)].sh ≠ none := by decide

/-- Test of R380: a word that a master shifts ends, and the next one starts with its chip select. -/
theorem test_spi_word : (match exec (.spiWord 0 ⟨false, 0x1AB⟩) ((tstSpi 5 0 1 (some 9)).setReg (Reg.spiFmt 1) 7) with
    | .next t => (t.spi[(0 : SpiId)].rx, t.spi[(0 : SpiId)].sh, t.spi[(0 : SpiId)].out, t.spi[(0 : SpiId)].cs)
    | _ => ([], none, none, false)) = ([0xAB], some 2, some 9, true) := by decide +kernel

/-- I²C 0 with these FIFOs and run. -/
def tstI2c (ctl : Word) (rx tx : Nat) (run : Option I2cRun) : State :=
  { tstRegs [(Reg.i2cCtl 0, ctl), (Reg.i2cAddr 0, 0x42)] with
    i2c := State.reset.i2c.set 0 { State.reset.i2c[(0 : PairId)] with rx := List.replicate rx 1, tx := List.replicate tx 2, run := run } }

theorem test_wit_i2c : (tstI2c 1 0 0 none).power = .run ∧ (tstI2c 1 0 0 none).rbit (Reg.i2cCtl 0) 0 = true ∧
    (tstI2c 1 0 0 none).rbit (Reg.i2cCtl 0) 1 = false ∧ (tstI2c 1 0 0 none).i2c[(0 : PairId)].run = none ∧ (0x8000_0002 : Word).getLsbD 31 = true ∧
    (0x2000_0010 : Word).getLsbD 29 = true ∧ (tstI2c 1 0 0 none).i2c[(0 : PairId)].rx.length + (0x2000_0010 : Word).toNat % 2 ^ 8 ≤ 16 ∧
    (tstI2c 1 0 16 none).i2c[(0 : PairId)].tx.length = 16 ∧ (tstI2c 1 0 15 none).i2c[(0 : PairId)].tx.length = 15 ∧
    (tstI2c 1 0 0 (some ⟨2, 1, true⟩)).i2c[(0 : PairId)].run = some ⟨2, 1, true⟩ ∧ (tstI2c 1 0 0 (some ⟨2, 1, true⟩)).i2c[(0 : PairId)].tx = [] ∧
    (tstI2c 3 15 0 none).rbit (Reg.i2cCtl 0) 1 = true ∧ (tstI2c 3 15 0 none).rfld (Reg.i2cAddr 0) 0 7 = (0x42 : BitVec 7).toNat ∧
    (tstI2c 3 15 0 none).i2c[(0 : PairId)].rx.length + 1 ≤ 16 := by decide

theorem test_wit_pins : State.reset.rbit (Reg.gpioDir 3) 23 = false ∧ (95 : GpioId).val / 24 = 3 ∧ (95 : GpioId).val % 24 = 23 ∧
    State.reset.broken (.gpio 95) = false ∧ State.reset.tap.ir ≠ some 0 ∧ State.reset.power = .run ∧ (Ball.ev 63).cell ≠ none ∧ (Ball.ev 63).input = false ∧
    (State.reset.setPin 0 { Pin.zero with lvl := .high }).pin 0 = { Pin.zero with lvl := .high } := by decide

/-- Every boundary-scan cell is one ball's. -/
theorem test_cells : cellBalls.map Ball.cell = (List.range 439).map some := by decide +kernel

/-- DMA channel 0 with these registers, and requests of its master. -/
def tstDma (rs : List (Nat × Word)) (x : Dma := ⟨none, []⟩) (qs : List Req := []) : State :=
  { tstRegs rs with dma := State.reset.dma.set 0 x, mtx := { State.reset.mtx with reqs := qs, next := 9 } }

theorem test_wit_dma_go : (tstDma [(Reg.lbpCfg 0, 1)]).dmaLent 0 = true ∧ (tstDma []).dmaLent 0 = false ∧ (tstDma []).rbit (Reg.dmaStat 0) 0 = false ∧
    (let s := tstDma [(Reg.dmaCnt 0, 0x40), (Reg.dmaSrc 0, 0x1000_00FC), (Reg.dmaDst 0, 0x2000_0000)]
     (s.reg (Reg.dmaCnt 0)).toNat % 4 = 0 ∧ (s.reg (Reg.dmaSrc 0)).toNat % 4 = 0 ∧ (s.reg (Reg.dmaDst 0)).toNat % 4 = 0 ∧ s.reg (Reg.dmaCnt 0) ≠ 0 ∧
     s.power = .run) ∧ (tstDma [(Reg.dmaCnt 0, 3)]).reg (Reg.dmaCnt 0) = 3 ∧ (0x0014_0002 : Word).toNat / 2 ^ 16 % 2 ^ 8 = 0x14 := by decide

theorem test_wit_dma_request : (let s : State := { tstDma [(Reg.dmaStat 0, 1), (Reg.dmaCtl 0, 0x0001_0001), (Reg.dmaCnt 0, 4)] with
        uart := State.reset.uart.set 0 { State.reset.uart[(0 : PortId)] with rx := [9] } }
     s.dmaOn 0 = true ∧ s.dmaReq 0 = 1 ∧ s.dmaWant 1 = true ∧ State.reset.dmaWant 1 = false ∧ State.reset.dmaWant 5 = true ∧ s.reg (Reg.dmaCnt 0) ≠ 0) ∧
    (tstDma []).dma[(0 : ChanId)].op = none ∧ (tstDma []).dma[(0 : ChanId)].buf = [] ∧
    (tstDma [(Reg.dmaStat 0, 1)]).reg (Reg.dmaCnt 0) = 0 ∧ (tstDma [(Reg.dmaStat 0, 1)]).reg (Reg.dmaNext 0) = 0 ∧
    (tstDma [(Reg.dmaStat 0, 1), (Reg.dmaNext 0, 0x1000_0000)]).reg (Reg.dmaNext 0) ≠ 0 := by decide

/-- An answered request of the channel. -/
def tstDone (step : DmaStep) (resp : Resp) : State :=
  tstDma [(Reg.dmaStat 0, 1), (Reg.dmaCnt 0, 4)] ⟨some (3, step, 4), []⟩
    [tstReq 18 0x1000_0000 (some 0) .done (if step = .write then .write else .read) 4 resp]

theorem test_wit_dma_response : (∀ k : Fin 4, let x := (#v[(DmaStep.read, Resp.okay), (.write, .okay), (.read, .eccErr), (.chain, .decErr)])[k]
      (tstDone x.1 x.2).power = .run ∧ (tstDone x.1 x.2).dmaOn 0 = true ∧ (∀ p : PairId, (tstDone x.1 x.2).lbp[p].asks 3 = false) ∧
      (tstDone x.1 x.2).monAsks 3 = false ∧ (tstDone x.1 x.2).dmaLent 0 = false ∧
      (tstDone x.1 x.2).mtx.reqs = [tstReq 18 0x1000_0000 (some 0) .done (if x.1 = .write then .write else .read) 4 x.2] ∧
      (tstDone x.1 x.2).dma[(0 : ChanId)].op = some (3, x.1, 4)) ∧
    (let s := tstDma [(Reg.dmaStat 0, 1)] ⟨some (3, .write, 4), []⟩ [tstReq 18 0x1000_0000 (some 0) .accepted .write]
     (∀ q ∈ s.mtx.reqs, q.m = 18 → q.kind = .read ∨ q.kind = .write) ∧ s.dma[(0 : ChanId)].op = some (3, .write, 4) ∧
     s.findReq 3 = some (tstReq 18 0x1000_0000 (some 0) .accepted .write)) := by decide

/-! Power, supply, start-up and the monitor -/

/-- This power state, waiting request and registers. -/
def tstPower (p : PowerState) (r : Option PowerRequest := none) (rs : List (Nat × Word) := []) : State := { tstRegs rs with power := p, request := r }

theorem test_wit_power : (tstPower .hold).supply.stopped = false ∧ (tstPower .run (some .hold)).request = some .hold ∧
    (∀ e, ((tstPower .run (some .hold)).eng e).clocked = false) ∧ (∀ e, (tstPower .run (some .retain)).iftUsed e = 0) ∧
    (tstPower .run (some .off)).supply.wakeDue = none ∧ (tstPower .run (some .off)).cur.borrow = none ∧ (tstPower .retain).boot.due = none ∧
    (tstPower .retain).boot.go = false ∧ (tstPower .retain).boot.seek = false ∧ (tstPower .retain).leaving = false ∧
    (tstPower .retain).rbit Reg.pwrWakecfg 0 = true ∧ (tstPower .retain none [(Reg.pwrWakecfg, 2)]).rbit Reg.pwrWakecfg 1 = true ∧
    ((tstPower .retain).reg Reg.pwrAlarmHi ++ (tstPower .retain).reg Reg.pwrAlarmLo : DWord) ≤ (tstPower .retain).fc ∧
    (let s : State := { tstPower .hold none [(Reg.pwrTemp, 460)] with supply := { State.reset.supply with stopped := true } }
     s.supply.stopped = true ∧ 460 ≤ ((s.reg Reg.pwrTemp).setWidth 16 : Half).toInt) := by decide

/-- RESET# falls at 5, is low, and has risen. -/
def tstLow (low : Bool) (fall : Option Nat) (later : Option (Nat × Nat × BootOffer)) (now : Nat) : State :=
  { State.reset with now := now, boot := { State.reset.boot with low := low, fall := fall, later := later } }

theorem test_wit_reset (o : BootOffer) : (tstLow false none none 5).boot.low = false ∧ (tstLow true none none 5).boot.low = true ∧
    ((tstLow false (some 5) none 1004).boot.fall = some 5 ∧ (tstLow false (some 5) none 1004).now < 5 + 1000 ∧ 5 + 1000 ≤ (tstLow false (some 5) none 1005).now) ∧
    (tstLow false none (some (9, 1, o)) 8).boot.later = some (9, 1, o) ∧ (tstLow false none (some (9, 1, o)) 8).now < 9 ∧
    9 ≤ (tstLow false none (some (9, 1, o)) 9).now := by
  refine ⟨rfl, rfl, by decide, rfl, ?_, Nat.le_refl 9⟩
  show 8 < 9
  decide

/-- A frame runs on a clocked engine. -/
theorem test_wit_hold_waits : (tstFrame.eng 0).clocked = true ∧ (tstFrame.frames 0).run = some tstFreq := by decide

/-- A warning that stands or not, at the level 4,300 mV with its margin of 200 mV. -/
theorem test_wit_supply : (tstRegs [(Reg.pwrBarstat, 1)]).rbit Reg.pwrBarstat 0 = true ∧ State.reset.rbit Reg.pwrBarstat 0 = false ∧
    min 26000 (max 4200 ((tstRegs [(Reg.pwrBarctl, 0x10CC_0000)]).rfld Reg.pwrBarctl 16 16)) = 4300 ∧ (4296 : Half).toNat / 8 * 8 < 4300 ∧
    4300 + 200 ≤ (4504 : Half).toNat / 8 * 8 ∧ State.reset.rbit Reg.pwrInj 0 = false ∧
    (let s : State := { tstRegs [(Reg.pwrBarstat, 1)] with now := 50000, supply := { State.reset.supply with run := some 0 } }
     s.supply.run = some 0 ∧ 0 + 50000 ≤ s.now) := by decide

/-- 125.0 °C, one step below 120.0 °C and 135.0 °C in quarters of a degree. -/
theorem test_wit_thermal : (500 : Int) ≤ (500 : Half).toInt ∧ (479 : Half).toInt < 480 ∧ (540 : Int) ≤ (540 : Half).toInt ∧
    (tstRegs [(Reg.pwrTstat, 1)]).rbit Reg.pwrTstat 0 = true ∧ State.reset.rbit Reg.pwrTstat 0 = false ∧
    ({ State.reset with supply := { State.reset.supply with hot := 1 } } : State).supply.stopped = false ∧
    (tstEng tstRun [(Reg.teExcctl 0, 4)]).rbit (Reg.teExcctl 0) 2 = true := by decide

theorem test_wit_reference : State.reset.rbit Reg.clkStat 0 = false ∧ (tstRegs [(Reg.clkStat, 1)]).rbit Reg.clkStat 0 = true ∧
    ((0 : PortId).val = (tstPort 2).rfld Reg.hlTsctl 0 2 ∧ (tstPort 2).hlState 0 = 2) ∧
    (∀ p : PortId, p.val = (tstPort 1).rfld Reg.hlTsctl 0 2 → (tstPort 1).hlState p ≠ 2) ∧ State.reset.supply.xinAt = none := by decide

/-- Straps and nothing at any source. -/
def tstOffer (straps : BitVec 2) : BootOffer := ⟨false, straps, false, .readError none, .readError none, none⟩

/-- Every kind of beginning. -/
theorem test_wit_begins (o : BootOffer) : beginsStart (.powerOn o) o State.reset 0 0 ∧
    beginsStart (.monitorBoot o) o (tstRegs [(Reg.sysBootcause, 0x8000)]) 2 0 ∧
    beginsStart (.deviceReset o) o (tstRegs [(Reg.sysBootst, 2)]) 2 2 ∧
    beginsStart (.xinLossTimeout o) o { State.reset with boot := { State.reset.boot with due := some 3 } } 3 0 ∧
    beginsStart (.confirmationWindowExpiry o) o { State.reset with boot := { State.reset.boot with window := some 0 } } 5 0 ∧
    beginsStart (.barometerReset .vcore o) o State.reset 3 0 ∧
    beginsStart (.xinLossTimeout o) o { State.reset with now := 100000, supply := { State.reset.supply with xinAt := some 0 } } 3 0 ∧
    beginsStart (.wakePinEdge o) o (tstPower .off) 4 0 ∧ beginsStart (.pwrAlarm o) o (tstPower .off none [(Reg.pwrWakecfg, 2)]) 4 0 := by
  unfold beginsStart
  exact ⟨.inl ⟨rfl, .inl ⟨.inl rfl, ⟨rfl, rfl⟩, rfl⟩⟩, .inl ⟨rfl, .inr ⟨rfl, by decide, rfl, rfl⟩⟩,
    .inr ⟨by decide, .inl ⟨rfl, rfl, rfl, .inl rfl, rfl⟩⟩,
    .inr ⟨by decide, .inr (.inl ⟨.inr (.inr (.inr (.inr rfl))), rfl, rfl, rfl, rfl, rfl⟩)⟩,
    .inr ⟨by decide, .inr (.inr (.inl ⟨rfl, rfl, 0, rfl, by decide⟩))⟩,
    .inr ⟨by decide, .inr (.inr (.inr (.inl ⟨.inr (.inr (.inl ⟨rfl, .inl rfl⟩)), ⟨rfl, rfl⟩, rfl⟩)))⟩,
    .inr ⟨by decide, .inr (.inr (.inr (.inl ⟨.inr (.inr (.inr ⟨rfl, 0, rfl, by decide⟩)), ⟨rfl, rfl⟩, rfl⟩)))⟩,
    .inr ⟨by decide, .inr (.inr (.inr (.inr ⟨.inl ⟨rfl, by decide⟩, rfl, rfl, rfl, rfl⟩)))⟩,
    .inr ⟨by decide, .inr (.inr (.inr (.inr ⟨.inr ⟨rfl, by decide, by decide⟩, rfl, rfl, rfl, rfl⟩)))⟩⟩

/-- The straps of each clause, and counts of failed starts that end in Fallback and that do not. -/
theorem test_wit_straps : (tstOffer 1).straps = 1 ∧ (tstOffer 2).straps = 2 ∧ ((tstOffer 3).straps = 3 ∧ (tstOffer 3).flash = false) ∧
    ((tstOffer 0).straps = 0 ∧ (tstOffer 0).flash = false) ∧ ({ tstOffer 0 with testen := true } : BootOffer).testen = true ∧
    failsAfter State.reset 1 2 = 2 ∧ failsAfter { State.reset with boot := { State.reset.boot with unconf := true } } 1 2 = 3 ∧
    failsAfter State.reset 3 3 = 3 := by decide

/-- An image of two logical engines with LOCK, of which engine 0 requires TE15: header, table of six sections, map and digest (R386–R388),
with CRC-32 and SHA-256 computed by another program. -/
def tstImage : List Byte := List.flatMap (bytesOf 4) (
  [0x3639545a, 0x00010000, 0x000000a4, 0x00100002, 0x00000001, 0x00000006, 0x00000000, 0xe5433e01] ++
  [0x00000001, 0x00000080, 0x00000004, 0x947e7971, 0x00000002, 0x00000084, 0x00000000, 0x00000000] ++
  [0x00000003, 0x00000084, 0x00000000, 0x00000000, 0x00000004, 0x00000084, 0x00000000, 0x00000000] ++
  [0x00000005, 0x00000084, 0x00000000, 0x00000000, 0x00000006, 0x00000084, 0x00000000, 0x00000000] ++
  [0x0000008f, 0x0e025bae, 0x65c30b53, 0x5dd2dcc3, 0x6d52ea90, 0xca8164a2, 0x76366db7, 0xf198ca35] ++
  [0x54f2fc61])

/-- The content of its other sections: nothing connected, no segments. -/
def tstBody : ImgBody :=
  { ids := none, conn := [], engines := List.replicate 2 ⟨false, 0, 0, []⟩, slices := [], msClass := 0, tsClass := [], pins := [], volts := 0, rcvs := [],
    scks := [], caps := [], never := [], lbpBw := [], contents := [], odd := [] }

/-- A flash with that image in slot A and nothing in slot B: the directory (R390), with its CRC-32 computed by another program. -/
def tstFlash : List (Nat × Option Byte) :=
  (List.flatMap (bytesOf 4) [0x52494444, 0x00000020, 0x000000a4, 0x00001000, 0x00000000, 0x00000000, 0x00000000, 0xa8dce804] ++
    tstImage).zipIdx.map fun p => (p.2, some p.1)

/-- Test of R387: CRC-32 of the nine digits, and SHA-256 of "abc", from the standards. -/
theorem test_crc : crc32 [0x31, 0x32, 0x33, 0x34, 0x35, 0x36, 0x37, 0x38, 0x39] = 0xCBF4_3926 := by decide +kernel
theorem test_sha : (sha256 [0x61, 0x62, 0x63]).take 8 = [0xba, 0x78, 0x16, 0xbf, 0x8f, 0x01, 0xcf, 0xea] := by decide +kernel

/-- The flash, with a power-on under straps 0b00. -/
def tstBoot : State := { State.reset with flash := tstFlash }
def tstStart : BootOffer := { tstOffer 0 with flash := true, slotA := .image tstBody }

theorem test_wit_image : tstStart.testen = false ∧ tstStart.straps = 0 ∧ tstStart.flash = true ∧ tstBoot.flashDir = some ((32, 164), (0x1000, 0)) ∧
    tstStart.slotA = .image tstBody ∧ tstBoot.flashBytes 32 164 = tstImage ∧ tstBoot.boot.unconf = false := by decide +kernel

theorem test_wit_plain : plainImage tstBoot tstImage tstBody := by unfold plainImage; decide +kernel

/-- Test of R391 and R399: a wrong byte of the digest, of a section, and of the header. -/
theorem test_image_errors : State.reset.imageError (tstImage.set 163 0) tstBody = some (5, 0) ∧
    State.reset.imageError (tstImage.set 129 1) tstBody = some (4, 0) ∧ State.reset.imageError (tstImage.set 8 0) tstBody = some (3, 0) := by
  decide +kernel

/-- The holding registers while the image is verified, and while the stores are cleared. -/
def tstHeld : Verified := ⟨imageOf tstImage tstBody, 0, 0, false, 10⟩
def tstVerify (phase : Word) (now : Nat) : State :=
  { tstRegs [(Reg.sysBootst, phase <<< 4)] with now := now, boot := { State.reset.boot with hold := some tstHeld } }

theorem test_wit_verify : (tstVerify 3 9).boot.hold = some tstHeld ∧ (tstVerify 3 9).now < tstHeld.till ∧ tstHeld.till ≤ (tstVerify 3 10).now ∧
    (tstVerify 3 10).rfld Reg.sysBootst 4 4 = 3 ∧ (tstVerify 4 10).rfld Reg.sysBootst 4 4 ≠ 3 ∧ (tstVerify 2 9).rfld Reg.sysBootst 4 4 = 2 := by decide

/-- The map of the image is one that can be served: engine 0 requires TE15, engine 1 nothing. -/
theorem test_wit_map : tstHeld.img.map = [0x8F, 0] ∧ (tstHeld.img.map.filterMap mapNeeds).Nodup ∧
    (∀ e ∈ tstHeld.img.map.filterMap mapNeeds, State.reset.present e = true) ∧ ((List.finRange 16).filter State.reset.present).length = 16 ∧
    tstHeld.img.almen = false := by decide +kernel

/-- Test of R396: logical engine 0 gets the engine that it requires, engine 1 the lowest free one. -/
theorem test_boot_maps : (let t := (tstVerify 3 10).bootStep
    (t.map[0], t.map[1], t.map[2], t.released, t.rfld Reg.sysBootst 4 4)) = (some 15, some 0, none, false, 4) := by decide +kernel

/-- Test of R398: the release, with the confirmation window that a BOOTWIN of 0 gives. -/
theorem test_boot_releases : (let t := (tstVerify 4 10).bootStep
    (t.released, t.rfld Reg.sysBootst 4 4, t.boot.window, t.boot.hold)) = (true, 5, some (10 + 1000 * 1000000), none) := by decide +kernel

/-- A slot that cannot be read, and one with a wrong byte of the digest. -/
theorem test_wit_slot : State.reset.slotError (.readError none) = some (0x0C, 0) ∧
    State.reset.slotError (.image (tstImage.set 163 0) tstBody) = some (5, 0) := by decide +kernel

/-- A device that waits for the host. -/
def tstSource (straps : BitVec 2) (now : Nat) : State :=
  { tstRegs [(Reg.sysBootmbx 2, 164)] with now := now, boot := { State.reset.boot with straps := straps, wait := some (1, 0) } }

theorem test_wit_confirm : (0xA5C2 : Word) ≠ 0xA5C3 ∧ (tstSource 3 0).boot.go = false ∧ (tstSource 3 0).boot.seek = false ∧
    (tstSource 3 9_999_999_999).now < 0 + 10_000_000_000 ∧ 0 + 10_000_000_000 ≤ (tstSource 3 10_000_000_000).now ∧ (tstSource 3 0).boot.wait = some (1, 0) ∧
    (tstSource 3 0).boot.straps = 3 ∧ ((tstSource 1 0).reg (Reg.sysBootmbx 2)).toNat = 164 ∧ tstImage.take 164 = tstImage := by decide

theorem test_wit_mailbox : plainImage (tstSource 1 0) (tstImage.take 164) tstBody := by unfold plainImage; decide +kernel

/-- A device whose port 0 is up, waiting for its neighbour or reading its image. -/
def tstNear (h : Option HlImage) : State :=
  { tstPort 2 HlPort.zero [(Reg.hlPartner 0, 0x8000_0005)] with
    boot := { State.reset.boot with wait := if h.isNone then some (2, 0) else none, fetch := h } }
def tstAsk : HlImage := { port := 0, len := some 164, pos := 164, out := [(0, 164, none)], got := [], body := some tstBody, since := 0 }

/-- An image response for 164 bytes from offset 0: with the image, or with an error code. -/
def tstPart (err : Bool) : HlFrame :=
  { tstFrm 7 true 0 0 (if err then 0x200_A401 else 0xA401) 0 with tag := 0, payload := if err then [] else tstImage }

theorem test_wit_image_fetch : (tstNear none).boot.wait = some (2, 0) ∧ (tstNear none).boot.fetch = none ∧ (tstNear none).hlState 0 = 2 ∧
    (tstNear (some tstAsk)).boot.fetch = some tstAsk ∧ (tstNear (some tstAsk)).hlNeighbour 0 = 5 ∧ headerOk tstImage = true ∧
    imgLength tstImage = tstImage.length ∧ tstAsk.out.find? (fun y => y.2.2.isNone && y.1 / 256 % 256 == 0) = some (0, 164, none) := by decide +kernel

/-- The response that matches, one without a request, one that disagrees with its request, and one with an error code. -/
theorem test_wit_neighbour : received (tstNear (some tstAsk)) 0 (tstPart false) 7 true ∧ received (tstNear none) 0 (tstPart false) 7 true ∧
    received (tstNear (some { tstAsk with out := [(0, 160, none)] })) 0 (tstPart false) 7 true ∧ received (tstNear (some tstAsk)) 0 (tstPart true) 7 true ∧
    (tstPart false).src = 5 ∧ (tstPart false).w3.toNat = 0 ∧ (tstPart false).w2.toNat / 2 ^ 8 % 2 ^ 9 = 164 ∧
    (tstPart true).w2.toNat / 2 ^ 24 % 8 = 2 := by unfold received lineUp; decide +kernel

/-- The image without error where the last response takes it. -/
theorem test_wit_fetched : let s := tstNear (some tstAsk)
    let base := { s.hlTake 0 (tstPart false) with boot := { s.boot with wait := none, go := false, fetch := none } }.bootPhase 2 2
    base.imageError tstImage tstBody = none := by decide +kernel

/-- Fallback, with a character at UART0 while a line is being received. -/
def tstFall (inp : List Byte := []) (rx : List Half := []) : State :=
  { tstRegs [(Reg.sysBootcause, 0x8000)] with
    boot := { State.reset.boot with recv := some 4, inp := inp }, uart := State.reset.uart.set 0 { State.reset.uart[(0 : PortId)] with rx := rx } }

theorem test_wit_monitor : tstFall.inFallback = true ∧ State.reset.inFallback = false ∧ tstFall.boot.mon = none ∧
    bootArea (memKey 0x10FF_FFFC) = false ∧ bootArea (memKey (0x2007_C000 : Word).toNat) = true ∧
    (4 : Word).toNat ≤ 0x0100_0000 ∧ [1, 2, 3, (4 : Byte)].length = (4 : Word).toNat ∧ (0xB63C_FBCD : Word) = crc32 [1, 2, 3, 4] ∧
    tstFall.boot.recv = some 4 ∧ State.reset.boot.recv = none ∧
    ({ tstFall with flash := tstFlash } : State).flashDir = some ((32, 164), (0x1000, 0)) ∧
    ({ tstFall with flash := (0, some 0) :: tstFlash.tail } : State).flashDir = none := by decide +kernel

/-- A character of a line, and the ends of the lines I, R 10000000, W 10000000 00000005 and X. -/
theorem test_wit_line : (tstFall [] [0x49]).uart[(0 : PortId)].rx = 0x49 :: [] ∧ ((0x49 : Half).setWidth 8 : Byte) ≠ 0x0D ∧
    (tstFall [0x49] [0x0D]).boot.inp = [0x49] ∧ (tstFall [] []).boot.line = none ∧ (tstFall [] []).boot.raw = none ∧
    [0x52, 0x20] ++ hexText 8 (0x1000_0000 : Word).toNat = [0x52, 0x20, 0x31, 0x30, 0x30, 0x30, 0x30, 0x30, 0x30, 0x30] ∧
    ((0x0D : Half).setWidth 8 : Byte) = 0x0D ∧ [(0x58 : Byte)].head? = some 0x58 ∧ (0x58 : Byte) ∉ [(0x49 : Byte), 0x52, 0x57, 0x4C, 0x43, 0x50, 0x42] := by decide

/-- The answers to the two parts of a monitor's access that crosses a multiple of 256. -/
theorem test_wit_mon_answer : let s : State := { tstFall with boot := { tstFall.boot with mon := some ⟨[(2, some (.okay, [1, 2])), (3, none)], false⟩ } }
    s.boot.mon = some ⟨[(2, some (.okay, [1, 2])), (3, none)], false⟩ ∧
    answered [(2, some (.okay, [1, 2])), (3, none)] { tstReq 0 0x1000_0100 (some 0) .done .read 2 with rdata := [3, 4] } .okay [1, 2, 3, 4] ∧
    (answered [(3, none)] (tstReq 0 0x1000_0100 (some 0) .done .read 4 .decErr) .decErr []) := by unfold answered; decide

theorem test_wit_register_write : (tstRegs [(Reg.sysCtl, 2)]).rbit Reg.sysCtl 1 = true ∧ State.reset.rbit Reg.sysCtl 1 = false ∧
    (tstPower .retain).power ≠ .run ∧ (tstPower .retain).power ≠ .hold ∧ (0x500F_FFFD : Word).toNat % 4 ≠ 0 ∧ (0x500F_FFFD : Word).toNat < 0x5010_0000 ∧
    (0x10FF_FFFC : Word).toNat % 4 = 0 ∧ State.reset.region (0x10FF_FFFC : Word).toNat = .main := by decide

/-! The whole block -/

/-- A canonical state with one command in its queue, whose step answers a next state. -/
theorem test_wit_canonical : let s : State := { tstRegs [(Reg.curBint, 4)] with pending := [.lockSet] }
    (Memory.wf s.cat s.mem = true ∧ Csr.wf s.csr = true ∧ s.logq.length ≤ 16) ∧ s.pending = .lockSet :: [] ∧
    (match step s with | .next t => t.rbit Reg.sysCtl 1 | _ => false) = true ∧ State.reset.pending = [] := by decide


end
end

section
/-! What a trigger of a compute unit leaves behind it in the state: lemmas over `State.trigger` for every latency, then the
multiply-accumulators (R160–R164) and the bit unit (R168–R170). -/

namespace Sys2Proof.ComputeUnits

open Sys2Proof.Machine Sys2Proof.Laws

variable {s t : State} {e : EngId} {u : Fin 16}

/-! Frames of the updates that a trigger is made of -/

/-- A state differs from itself in nothing. -/
theorem onlyEngine_refl (s : State) (e : EngId) (rs : List Nat) : s.onlyEngine s e rs :=
  ⟨rfl, fun _ _ => rfl, fun _ _ => rfl, fun _ => rfl⟩

/-- A further update of the same engine stays within the frame. -/
theorem onlyEngine_setEng {rs : List Nat} (x : Engine) (h : s.onlyEngine t e rs) : s.onlyEngine (t.setEng e x) e rs := by
  obtain ⟨hrest, heng, hreg, hbyte⟩ := h
  refine ⟨?_, fun f hf => (eng_setEng_other t x hf).trans (heng f hf), hreg, hbyte⟩
  calc t.setEng e x = { t with engines := (t.setEng e x).engines } := rfl
    _ = { s with csr := t.csr, engines := (t.setEng e x).engines } := by rw [hrest]

theorem onlyEngine_setPort {rs : List Nat} (k : Nat) (v : Word) (h : s.onlyEngine t e rs) :
    s.onlyEngine (t.setPort e k v) e rs :=
  onlyEngine_setEng _ h

theorem onlyEngine_setUnit (s : State) (e : EngId) (u : Fin 16) (x : UnitRes) : s.onlyEngine (s.setUnit e u x) e [] :=
  onlyEngine_setEng _ (onlyEngine_refl s e [])

theorem onlyUnit_setUnit (s : State) (e : EngId) (u : Fin 16) (x : UnitRes) : s.onlyUnit (s.setUnit e u x) e u := by
  refine ⟨?_, fun v hv => unit_setUnit_other s x (.inr hv)⟩
  rw [eng_setUnit_same]

theorem eng_iftTake (s : State) (e f : EngId) (n : Nat) : (s.iftTake e n).eng f = s.eng f := by
  rw [iftTake_frame]; rfl

theorem unit_iftTake (s : State) (e f : EngId) (n : Nat) (u : Fin 16) : (s.iftTake e n).unit f u = s.unit f u := by
  rw [iftTake_frame]; rfl

theorem port_iftTake (s : State) (e f : EngId) (n k : Nat) : (s.iftTake e n).port f k = s.port f k := by
  rw [iftTake_frame]; rfl

/-- Taking in-flight entries writes TE_IFT alone. -/
theorem onlyEngine_iftTake (n : Nat) (h : s.onlyEngine t e []) : s.onlyEngine (t.iftTake e n) e [Reg.teIft e] := by
  obtain ⟨hrest, heng, hreg, hbyte⟩ := h
  refine ⟨?_, fun f hf => (eng_iftTake t e f n).trans (heng f hf), fun a ha => ?_,
    fun a => (readByte_iftTake t e n a).trans (hbyte a)⟩
  · rw [iftTake_frame, hrest]
  · exact (reg_iftTake_other t e n a (by simpa using ha)).trans (hreg a (by simp))

theorem eng_setPort_same (s : State) (e : EngId) (k : Nat) (v : Word) : (s.setPort e k v).eng e = (s.eng e).put k v :=
  eng_setEng_same s e _

/-- Writing an engine word leaves every unit. -/
theorem unit_setPort (s : State) (e : EngId) (k : Nat) (v : Word) (u : Fin 16) : (s.setPort e k v).unit e u = s.unit e u := by
  unfold State.unit
  rw [eng_setPort_same]; rfl

/-! A trigger of any latency -/

/-- Of its engine a trigger changes its own unit alone. -/
theorem onlyUnit_trigger (s : State) (e : EngId) (u : Fin 16) (n lat occ : Nat) (q q1 : Word) (two : Bool) (flag : Word) :
    s.onlyUnit (s.trigger e u n lat occ q q1 two flag) e u := by
  unfold State.trigger
  dsimp only
  split
  · unfold State.onlyUnit
    simp only [eng_iftTake, unit_iftTake]
    exact onlyUnit_setUnit s e u _
  · exact onlyUnit_setUnit s e u _

/-- An injection that does not wait before a trigger does not wait after it. -/
theorem injSpar_of_onlyUnit (h : s.onlyUnit t e u) (hinj : (s.eng e).injSpar = false) : (t.eng e).injSpar = false := by
  obtain ⟨heng, -⟩ := h
  rw [heng]; exact hinj

/-! A trigger with a latency of 1 fc -/

section Short

variable {n occ : Nat} {q q1 : Word} {two : Bool} {flag : Word}

/-- The oldest result owed to .q after a trigger of latency 1 is the trigger's own, complete (R106). -/
theorem owed_trigger_one : ((s.trigger e u n 1 occ q q1 two flag).unit e u).owed false =
    some { due := n + 1, done := true, q := q, q1 := q1, uq := true, uq1 := two, flag := flag, ift := false } := by
  rw [trigger_one, unit_setUnit_same]
  exact find_dropped _ _ rfl

theorem value_trigger_one : ((s.trigger e u n 1 occ q q1 two flag).unit e u).value false = q := by
  simp [UnitRes.value, owed_trigger_one]

theorem stalls_trigger_one : ((s.trigger e u n 1 occ q q1 two flag).unit e u).stalls false = false := by
  simp [UnitRes.stalls, owed_trigger_one]

theorem onlyEngine_trigger_one : s.onlyEngine (s.trigger e u n 1 occ q q1 two flag) e [] := by
  rw [trigger_one]; exact onlyEngine_setUnit s e u _

end Short

/-! A trigger with a longer latency -/

section Long

variable {n lat occ : Nat} {q q1 : Word} {two : Bool} {flag : Word} (hlat : 1 < lat)

include hlat

theorem owes_trigger_long : (s.trigger e u n lat occ q q1 two flag).owes e u (n + lat) q q1 two flag := by
  unfold State.owes
  rw [trigger_long (h := hlat), unit_iftTake, unit_setUnit_same]
  exact List.getLast?_concat

theorem oneInFlight_trigger_long (hift : s.iftUsed e < 256) : s.oneInFlight (s.trigger e u n lat occ q q1 two flag) e := by
  rw [trigger_long (h := hlat)]
  have hroom : s.iftUsed e + 1 < 512 := by omega
  exact ⟨iftUsed_iftTake _ e 1 hroom, iftMark_iftTake _ e 1 hroom⟩

theorem onlyEngine_trigger_long : s.onlyEngine (s.trigger e u n lat occ q q1 two flag) e [Reg.teIft e] := by
  rw [trigger_long (h := hlat)]
  exact onlyEngine_iftTake 1 (onlyEngine_setUnit s e u _)

theorem port_trigger_long (f : EngId) (k : Nat) : (s.trigger e u n lat occ q q1 two flag).port f k = s.port f k := by
  rw [trigger_long (h := hlat), port_iftTake, port_setUnit]

end Long

/-- A unit that can start an operation of more than 1 fc finds an in-flight entry free (R136). -/
theorem iftUsed_lt_of_canTrigger {n lat : Nat} (h : s.canTrigger e u n lat = true) (hlat : 1 < lat) : s.iftUsed e < 256 := by
  simp only [State.canTrigger, Bool.and_eq_true, Bool.or_eq_true, decide_eq_true_eq] at h
  omega

/-! Doublewords and integers -/

theorem toNat_dword (hi lo : Word) : (dword hi lo).toNat = hi.toNat * 2 ^ 32 + lo.toNat := by
  rw [dword, BitVec.toNat_append, ← Nat.shiftLeft_add_eq_or_of_lt lo.isLt, Nat.shiftLeft_eq]

theorem dword_hiW_loW (d : DWord) : dword (hiW d) (loW d) = d := by
  apply BitVec.eq_of_toNat_eq
  rw [toNat_dword]
  simp only [hiW, loW, BitVec.truncate_eq_setWidth, BitVec.toNat_setWidth, BitVec.toNat_ushiftRight, Nat.shiftRight_eq_div_pow]
  omega

theorem ofInt_toNat (d : DWord) : BitVec.ofInt 64 d.toNat = d := by
  rw [BitVec.ofInt_natCast, BitVec.ofNat_toNat, BitVec.setWidth_eq]

theorem dword_eq_ofInt (hi lo : Word) : dword hi lo = BitVec.ofInt 64 (hi.toNat * 2 ^ 32 + lo.toNat) := by
  rw [← ofInt_toNat (dword hi lo), toNat_dword]
  rfl

theorem add_ofInt (a : DWord) (v : Int) : a + BitVec.ofInt 64 v = BitVec.ofInt 64 (a.toInt + v) := by
  rw [BitVec.ofInt_add, BitVec.ofInt_toInt]

theorem sub_ofInt (a : DWord) (v : Int) : a - BitVec.ofInt 64 v = BitVec.ofInt 64 (a.toInt - v) := by
  rw [BitVec.sub_eq_add_neg, ← BitVec.ofInt_neg, add_ofInt, Int.sub_eq_add_neg]

/-- The unsigned reading of the accumulator gives the same sum modulo 2^64. -/
theorem add_ofInt_unsigned (a : DWord) (v : Int) : a + BitVec.ofInt 64 v = BitVec.ofInt 64 (a.toNat + v) := by
  rw [BitVec.ofInt_add, ofInt_toNat]

theorem sat64_eq (v : Int) : sat64 v = BitVec.ofInt 64 (max (-2 ^ 63) (min v (2 ^ 63 - 1))) := by
  unfold sat64
  split
  · rw [max_eq_left (by omega)]; rfl
  split
  · rw [min_eq_right (by omega)]; rfl
  · rw [min_eq_left (by omega), max_eq_right (by omega)]

/-! What each MAC operation computes (R160–R164) -/

theorem macFn_macs (a : DWord) (o o1 t : Word) :
    macFn 0 a o o1 t = (BitVec.ofInt 64 (a.toInt + o.toInt * t.toInt), false) :=
  congrArg (·, false) (add_ofInt a _)

theorem macFn_macu (a : DWord) (o o1 t : Word) :
    macFn 1 a o o1 t = (BitVec.ofInt 64 (a.toNat + o.toNat * t.toNat), false) := by
  refine congrArg (·, false) ?_
  rw [← BitVec.ofInt_natCast, add_ofInt_unsigned, Nat.cast_mul]

theorem macFn_msbs (a : DWord) (o o1 t : Word) :
    macFn 2 a o o1 t = (BitVec.ofInt 64 (a.toInt - o.toInt * t.toInt), false) :=
  congrArg (·, false) (sub_ofInt a _)

theorem macFn_ldacc (a : DWord) (o o1 t : Word) :
    macFn 6 a o o1 t = (BitVec.ofInt 64 (o.toNat * 2 ^ 32 + t.toNat), false) :=
  congrArg (·, false) (dword_eq_ofInt o t)

/-- The rounded shift of R163, with the division that rounds toward minus infinity. -/
theorem macFn_rsh (a : DWord) (o o1 t : Word) :
    macFn 7 a o o1 t = (BitVec.ofInt 64 (if t.toNat % 64 = 0 then a.toInt
      else (a.toInt + 2 ^ (t.toNat % 64 - 1)) / 2 ^ (t.toNat % 64)), false) := by
  refine congrArg (·, false) ?_
  split
  · rw [BitVec.ofInt_toInt]
  · rw [Int.fdiv_eq_ediv_of_nonneg _ (by positivity)]

theorem macFn_adda (a : DWord) (o o1 t : Word) :
    macFn 8 a o o1 t = (BitVec.ofInt 64 (a.toNat + (o.toNat * 2 ^ 32 + t.toNat)), false) := by
  refine congrArg (·, false) ?_
  rw [dword_eq_ofInt, add_ofInt_unsigned]

/-- macss saturates exactly when the saturated sum is not the exact one (R164). -/
theorem macFn_macss_saturates_iff (a : DWord) (o o1 t : Word) : (macFn 3 a o o1 t).2 = true ↔
    max (-2 ^ 63) (min (a.toInt + o.toInt * t.toInt) (2 ^ 63 - 1)) ≠ a.toInt + o.toInt * t.toInt := by
  simp only [macFn, Bool.or_eq_true, decide_eq_true_eq]
  generalize a.toInt + o.toInt * t.toInt = v
  omega

/-- An entry of `macOps` is MAC operation `code` of the model: what its command does, its accumulator, and when it saturates. -/
structure MacMeans (op : (EngId → PairId → Word → Instr) × (DWord → Word → Word → Word → Int)) (code : Nat) : Prop where
  exec_eq : ∀ e u w s, exec (op.1 e u w) s = .next (s.macOp e u code 0 w)
  acc_eq : ∀ a o o1 w, (macFn code a o o1 w).1 = BitVec.ofInt 64 (op.2 a o o1 w)
  sat_iff : ∀ e u a o o1 w, (macFn code a o o1 w).2 = true ↔
    op.1 e u w = .macMacss e u w ∧ op.2 a o o1 w ≠ a.toInt + o.toInt * w.toInt

/-- An operation other than macss wraps and never saturates. -/
theorem MacMeans.of_wraps {op : (EngId → PairId → Word → Instr) × (DWord → Word → Word → Word → Int)} {code : Nat}
    (hexec : ∀ e u w s, exec (op.1 e u w) s = .next (s.macOp e u code 0 w))
    (hfn : ∀ a o o1 w, macFn code a o o1 w = (BitVec.ofInt 64 (op.2 a o o1 w), false))
    (hne : ∀ e u w, op.1 e u w ≠ .macMacss e u w) : MacMeans op code where
  exec_eq := hexec
  acc_eq a o o1 w := by rw [hfn]
  sat_iff e u a o o1 w := by simp [hfn, hne]

/-- Every entry of `macOps` is an operation of the model, by its code. -/
theorem macOps_mean : ∀ op ∈ macOps, ∃ code, MacMeans op code := by
  simp only [macOps, List.forall_mem_cons, List.not_mem_nil, false_imp_iff, implies_true, and_true]
  refine ⟨⟨0, .of_wraps (fun _ _ _ _ => rfl) macFn_macs nofun⟩, ⟨1, .of_wraps (fun _ _ _ _ => rfl) macFn_macu nofun⟩,
    ⟨2, .of_wraps (fun _ _ _ _ => rfl) macFn_msbs nofun⟩, ⟨3, ?macss⟩,
    ⟨4, .of_wraps (fun _ _ _ _ => rfl) (fun _ _ _ _ => rfl) nofun⟩,
    ⟨5, .of_wraps (fun _ _ _ _ => rfl) (fun _ _ _ _ => rfl) nofun⟩,
    ⟨6, .of_wraps (fun _ _ _ _ => rfl) macFn_ldacc nofun⟩, ⟨7, .of_wraps (fun _ _ _ _ => rfl) macFn_rsh nofun⟩,
    ⟨8, .of_wraps (fun _ _ _ _ => rfl) macFn_adda nofun⟩⟩
  case macss => exact ⟨fun _ _ _ _ => rfl, fun _ _ _ _ => sat64_eq _, fun _ _ a o o1 w => by
    rw [macFn_macss_saturates_iff]; simp⟩

/-! What a MAC trigger does to the state -/

section Mac

variable (s : State) (e : EngId) (u : PairId) (code : Nat) (w : Word)

/-- What operation `code` makes of the accumulator and the operands as the trigger finds them. -/
def macResult : DWord × Bool := macFn code (s.acc e u) (s.port e (opO (6 + u.val))) (s.port e (opO1 (6 + u.val))) w

/-- The flag of TE_CUSTAT that the completion sets (R164). -/
def macFlag : Word := if (macResult s e u code w).2 then bitW (2 + u.val) else 0

/-- The state after the trigger's operation has started, before the accumulator takes its new value. -/
def macStarted : State :=
  s.trigger e (macU u) s.now 4 1 (loW (macResult s e u code w).1) (hiW (macResult s e u code w).1) true
    (macFlag s e u code w)

/-- The state with both words of the accumulator written. -/
def setAcc (d : DWord) : State := (s.setPort e (keyAcc u.val 0) (loW d)).setPort e (keyAcc u.val 1) (hiW d)

theorem onlyUnit_macStarted : s.onlyUnit (macStarted s e u code w) e (macU u) :=
  onlyUnit_trigger ..

theorem port_macStarted (k : Nat) : (macStarted s e u code w).port e k = s.port e k :=
  port_trigger_long (by decide) _ _

theorem acc_setAcc (d : DWord) : (setAcc s e u d).acc e u = d := by
  have hkey : keyAcc u.val 0 ≠ keyAcc u.val 1 := by unfold keyAcc; omega
  simp [setAcc, State.acc, port_setPort, hkey, dword_hiW_loW]

theorem port_setAcc_other {k : Nat} (d : DWord) (h0 : k ≠ keyAcc u.val 0) (h1 : k ≠ keyAcc u.val 1) :
    (setAcc s e u d).port e k = s.port e k := by
  simp [setAcc, port_setPort, h0, h1]

theorem eng_setAcc (d : DWord) : (setAcc s e u d).eng e = { s.eng e with ports := ((setAcc s e u d).eng e).ports } := by
  unfold setAcc
  rw [eng_setPort_same, eng_setPort_same]; rfl

theorem unit_setAcc (d : DWord) (v : Fin 16) : (setAcc s e u d).unit e v = s.unit e v := by
  unfold setAcc
  rw [unit_setPort, unit_setPort]

theorem onlyEngine_setAcc {t : State} {rs : List Nat} (d : DWord) (h : s.onlyEngine t e rs) : s.onlyEngine (setAcc t e u d) e rs :=
  onlyEngine_setPort _ _ (onlyEngine_setPort _ _ h)

variable {s e u}

/-- A MAC trigger that can start starts its operation and writes the accumulator; nothing waits at its sockets. -/
theorem macOp_eq (hcan : s.canTrigger e (macU u) s.now 4 = true) (hinj : (s.eng e).injSpar = false) :
    s.macOp e u code 0 w = setAcc (macStarted s e u code w) e u (macResult s e u code w).1 := by
  have hspar : ((setAcc (macStarted s e u code w) e u (macResult s e u code w).1).eng e).injSpar = false := by
    rw [eng_setAcc]; exact injSpar_of_onlyUnit (onlyUnit_macStarted s e u code w) hinj
  simp only [State.macOp, Nat.add_zero, hcan, if_true]
  exact meetSpar_none _ _ _ hspar

end Mac

/-- Settles O2: the trigger is `setAcc` after a long trigger, and each code's result is the accumulator that `macOps` states. -/
theorem macTriggerUpdatesAccumulator : Obligations.MacTriggerUpdatesAccumulator := by
  unfold Obligations.MacTriggerUpdatesAccumulator
  intro op hop e u w s hcan hinj v
  obtain ⟨code, hmeans⟩ := macOps_mean op hop
  have hv : (macResult s e u code w).1 = BitVec.ofInt 64 v := hmeans.acc_eq ..
  have hsat : (macResult s e u code w).2 = true ↔ _ := hmeans.sat_iff e u ..
  have hexec := hmeans.exec_eq e u w s
  obtain ⟨heng, hunit⟩ := onlyUnit_macStarted s e u code w
  rw [macOp_eq code w hcan hinj] at hexec
  refine ⟨_, loW (macResult s e u code w).1, hiW (macResult s e u code w).1, macFlag s e u code w, hexec, ?q, ?acc, ?owes,
    ?flag, ?inFlight, ?ports, ?eng, ?units, ?only⟩
  case q => exact (dword_hiW_loW _).trans hv
  case acc => rw [acc_setAcc, hv]
  case owes =>
    unfold State.owes
    rw [unit_setAcc]
    exact owes_trigger_long (by decide)
  case flag => simp only [macFlag, hsat, v]
  case inFlight => exact oneInFlight_trigger_long (by decide) (iftUsed_lt_of_canTrigger hcan (by decide))
  case ports =>
    intro k h0 h1
    rw [port_setAcc_other _ _ _ _ h0 h1, port_macStarted]
  case eng => rw [eng_setAcc, heng]
  case units =>
    intro x hx
    rw [unit_setAcc, hunit x hx]
  case only => exact onlyEngine_setAcc s e u _ (onlyEngine_trigger_long (by decide))

/-! What each bit operation computes (R168–R170) -/

theorem fieldPos_eq (o1 : Word) : fieldPos o1 = o1.toNat % 32 := by simp [fieldPos, fldOf]

theorem fieldWid_eq (o1 : Word) : fieldWid o1 = min (min (o1.toNat / 2 ^ 8 % 64) 32) (32 - o1.toNat % 32) := by
  rw [fieldWid, fieldPos_eq]; rfl

/-- A field of no bits is 0 in either reading. -/
theorem signExtend_ofNat_zero_width (n : Nat) : (BitVec.ofNat 0 n).signExtend 32 = 0 := by
  rw [BitVec.of_length_zero (x := BitVec.ofNat 0 n)]; rfl

/-- A field of `k + 1` bits with value `v` is negative exactly when its top bit, `v / 2 ^ k`, is 1. -/
theorem signExtend_ofNat_succ_width {k n v : Nat} (hv : n % 2 ^ (k + 1) = v) :
    (BitVec.ofNat (k + 1) n).signExtend 32 = if v / 2 ^ k = 1 then BitVec.ofInt 32 (v - 2 ^ (k + 1)) else BitVec.ofNat 32 v := by
  have hlt : v < 2 ^ (k + 1) := hv ▸ Nat.mod_lt _ (by positivity)
  have htop : v / 2 ^ k = 1 ↔ ¬ 2 * v < 2 ^ (k + 1) := by
    rw [Nat.div_eq_iff (by positivity)]
    omega
  rw [BitVec.signExtend, BitVec.toInt_eq_toNat_cond, BitVec.toNat_ofNat, hv]
  simp only [htop, ite_not]
  split
  · exact BitVec.ofInt_natCast ..
  · rw [Nat.cast_pow, Nat.cast_ofNat]

theorem bitFn_exts (o o1 t : Word) :
    bitFn 1 o o1 t = (BitVec.ofNat (fieldWid o1) (t.toNat / 2 ^ fieldPos o1)).signExtend 32 := by
  simp only [bitFn]
  cases fieldWid o1 with
  | zero => rw [signExtend_ofNat_zero_width, if_pos rfl]
  | succ k => rw [signExtend_ofNat_succ_width rfl, if_neg k.succ_ne_zero]; rfl

/-- What `countZeros` counts: the run of zeros from bit `i` on, ended by the first 1 or by the `n` bits. -/
theorem countZeros_spec (f : Nat → Bool) (n i : Nat) :
    countZeros f i n ≤ n ∧ (∀ j, j < countZeros f i n → f (i + j) = false) ∧
      (countZeros f i n < n → f (i + countZeros f i n) = true) := by
  induction n generalizing i with
  | zero => simp [countZeros]
  | succ n ih =>
    obtain ⟨hle, hzeros, hone⟩ := ih (i + 1)
    unfold countZeros
    cases hf : f i with
    | true => simp [hf]
    | false =>
      simp only [Bool.false_eq_true, if_false]
      refine ⟨by omega, fun j hj => ?_, fun hlt => ?_⟩
      · cases j with
        | zero => exact hf
        | succ j => rw [Nat.add_comm j, ← Nat.add_assoc]; exact hzeros j (by omega)
      · rw [← Nat.add_assoc]; exact hone (by omega)

theorem permByte_lt (n : Nat) (t o1 : Word) : permByte n t o1 < 256 := by
  have hbyte (w : Word) (i : Nat) : byteAt w i < 256 := fldOf_lt ..
  unfold permByte
  split_ifs
  · exact hbyte t n
  · exact hbyte o1 (n - 4)
  all_goals decide

theorem ofNat_byteAt (w : Word) (i : Nat) : BitVec.ofNat 8 (byteAt w i) = w.extractLsb' (8 * i) 8 := by
  apply BitVec.eq_of_toNat_eq
  simp [byteAt, fldOf, Nat.shiftRight_eq_div_pow]

/-- The model's byte of a selector nibble is the one that R170's table names. -/
theorem ofNat_permByte (n : Nat) (t o1 : Word) : BitVec.ofNat 8 (permByte n t o1) = permPick t o1 n := by
  unfold permByte permPick bitOf
  simp only [apply_ite (BitVec.ofNat 8), ofNat_byteAt]
  grind

/-- Byte `i` of a word packed from four bytes. -/
theorem extractLsb'_packed (b : Nat → Nat) (hb : ∀ j, b j < 256) {i : Nat} (hi : i < 4) :
    (BitVec.ofNat 32 (b 0 + 2 ^ 8 * b 1 + 2 ^ 16 * b 2 + 2 ^ 24 * b 3)).extractLsb' (8 * i) 8 = BitVec.ofNat 8 (b i) := by
  apply BitVec.eq_of_toNat_eq
  rw [BitVec.extractLsb'_toNat, BitVec.toNat_ofNat, BitVec.toNat_ofNat, Nat.shiftRight_eq_div_pow]
  have h0 := hb 0
  have h1 := hb 1
  have h2 := hb 2
  have h3 := hb 3
  interval_cases i <;> omega

theorem bitFn_perm (o o1 t : Word) {i : Nat} (hi : i < 4) :
    (bitFn 6 o o1 t).extractLsb' (8 * i) 8 = permPick t o1 (o.toNat / 2 ^ (4 * i) % 16) := by
  rw [← ofNat_permByte]
  exact extractLsb'_packed (fun j => permByte (fldOf o (4 * j) 4) t o1) (fun j => permByte_lt ..) hi

/-! What a trigger of the bit unit does to the state -/

section Bit

variable {code : Nat} (w : Word)

/-- A trigger of the bit unit that can start starts its operation; nothing waits at its sockets. -/
theorem bitOp_eq (hcan : s.canTrigger e 9 s.now (bitLat code) = true) (hinj : (s.eng e).injSpar = false) :
    s.bitOp e code 0 w =
      s.trigger e 9 s.now (bitLat code) 1 (bitFn code (s.port e (opO 9)) (s.port e (opO1 9)) w) 0 false 0 := by
  simp only [State.bitOp, Nat.add_zero, hcan, if_true]
  exact meetSpar_none _ _ _ (injSpar_of_onlyUnit (onlyUnit_trigger ..) hinj)

/-- A field operation: its result comes after 2 fc and takes an in-flight entry. -/
theorem bitOp_field (hcode : code < 3) (hcan : s.canTrigger e 9 s.now 2 = true) (hinj : (s.eng e).injSpar = false) :
    let t := s.bitOp e code 0 w
    t.owes e 9 (s.now + 2) (bitFn code (s.port e (opO 9)) (s.port e (opO1 9)) w) 0 false 0 ∧
      s.oneInFlight t e ∧ s.onlyUnit t e 9 ∧ s.onlyEngine t e [Reg.teIft e] := by
  have hlat : bitLat code = 2 := if_pos hcode
  rw [bitOp_eq w (hlat ▸ hcan) hinj, hlat]
  exact ⟨owes_trigger_long (by decide), oneInFlight_trigger_long (by decide) (iftUsed_lt_of_canTrigger hcan (by decide)),
    onlyUnit_trigger .., onlyEngine_trigger_long (by decide)⟩

/-- A count or a permutation: its result can be read in the same fc. -/
theorem bitOp_count (hcode : ¬ code < 3) (hcan : s.canTrigger e 9 s.now 1 = true) (hinj : (s.eng e).injSpar = false) :
    let t := s.bitOp e code 0 w
    (t.unit e 9).value false = bitFn code (s.port e (opO 9)) (s.port e (opO1 9)) w ∧
      (t.unit e 9).stalls false = false ∧ s.onlyUnit t e 9 ∧ s.onlyEngine t e [] := by
  have hlat : bitLat code = 1 := if_neg hcode
  rw [bitOp_eq w (hlat ▸ hcan) hinj, hlat]
  exact ⟨value_trigger_one, stalls_trigger_one, onlyUnit_trigger .., onlyEngine_trigger_one⟩

end Bit

/-- Every entry of `fieldOps` is a field operation of the model, with the field of R168. -/
theorem fieldOps_mean : ∀ op ∈ fieldOps, ∃ code, code < 3 ∧ (∀ e w s, exec (op.1 e w) s = .next (s.bitOp e code 0 w)) ∧
    ∀ o o1 t, bitFn code o o1 t = op.2 o (fieldPos o1) (fieldWid o1) t := by
  simp only [fieldOps, List.forall_mem_cons, List.not_mem_nil, false_imp_iff, implies_true, and_true]
  exact ⟨⟨0, by decide, fun _ _ _ => rfl, fun _ _ _ => rfl⟩, ⟨1, by decide, fun _ _ _ => rfl, bitFn_exts⟩,
    ⟨2, by decide, fun _ _ _ => rfl, fun _ _ _ => rfl⟩⟩

/-- Settles O4: a trigger of the bit unit delivers `bitFn`, which is the field, the count or the permutation of R169 and R170. -/
theorem bitTriggerGivesResult : Obligations.BitTriggerGivesResult := by
  unfold Obligations.BitTriggerGivesResult
  refine ⟨fun op hop e w s hcan hinj => ?field, fun e w s hcan hinj => ⟨?clz, ?ctz, ?popc, ?perm⟩⟩
  case field =>
    obtain ⟨code, hcode, hexec, hfn⟩ := fieldOps_mean op hop
    have h := bitOp_field w hcode hcan hinj
    rw [hfn, fieldWid_eq, fieldPos_eq] at h
    exact ⟨_, hexec e w s, h⟩
  case clz =>
    obtain ⟨hvalue, hrest⟩ := bitOp_count (code := 3) w (by decide) hcan hinj
    obtain ⟨hle, hzeros, hone⟩ := countZeros_spec (fun i => w.getLsbD (31 - i)) 32 0
    simp only [Nat.zero_add] at hzeros hone
    exact ⟨_, _, rfl, hvalue, hle, hzeros, hone, hrest⟩
  case ctz =>
    obtain ⟨hvalue, hrest⟩ := bitOp_count (code := 4) w (by decide) hcan hinj
    obtain ⟨hle, hzeros, hone⟩ := countZeros_spec w.getLsbD 32 0
    simp only [Nat.zero_add] at hzeros hone
    exact ⟨_, _, rfl, hvalue, hle, hzeros, hone, hrest⟩
  case popc => exact ⟨_, rfl, bitOp_count (code := 5) w (by decide) hcan hinj⟩
  case perm =>
    obtain ⟨hvalue, hrest⟩ := bitOp_count (code := 6) w (by decide) hcan hinj
    exact ⟨_, rfl, fun i hi => by rw [hvalue, bitFn_perm _ _ _ hi], hrest⟩

end Sys2Proof.ComputeUnits
end

section
/-! The Time Base: its read, the reads of the angle port as far as `apu.t:tb` needs them, and its compare (R111, R266, R269). -/

namespace Sys2Proof.TimeBase

open Sys2Proof.Machine Sys2Proof.Laws Sys2Proof.ComputeUnits

section Rules

variable (s : State)

/-- A register write leaves every other register. -/
theorem sameRegs_setReg (a : Nat) (v : Word) : s.sameRegs (s.setReg a v) [a] :=
  fun _ hb => reg_setReg_other s v (by simpa using hb)

/-! The read of TMR_TBLO (R266) -/

theorem reg_tbRead_tbhi : s.tbRead.2.reg Reg.tmrTbhi = hiW s.fc := by
  have hne : Reg.tmrTbhi ≠ Reg.tmrTbsub := by decide
  exact (reg_setReg_other _ _ hne).trans (reg_setReg_same ..)

/-- The fraction of the Time Base is its low 3 bits (R265). -/
theorem reg_tbRead_tbsub : s.tbRead.2.reg Reg.tmrTbsub = (s.tb.extractLsb' 0 3).setWidth 32 := by
  have hfraction : BitVec.ofNat 32 (s.tb.toNat % 8) = (s.tb.extractLsb' 0 3).setWidth 32 := by
    apply BitVec.eq_of_toNat_eq
    simp
  exact (reg_setReg_same ..).trans hfraction

theorem sameRegs_tbRead : s.sameRegs s.tbRead.2 [Reg.tmrTbhi, Reg.tmrTbsub] := by
  intro a ha
  obtain ⟨hhi, hsub⟩ : a ≠ Reg.tmrTbhi ∧ a ≠ Reg.tmrTbsub := by simpa using ha
  exact (reg_setReg_other _ _ hsub).trans (reg_setReg_other _ _ hhi)

/-! The reads of the angle port (R111) -/

/-- An update of an engine outside its units leaves every unit. -/
theorem unit_modEng_of_units {e : EngId} {f : Engine → Engine} (hf : (f (s.eng e)).units = (s.eng e).units) (u : Fin 16) :
    (s.modEng e f).unit e u = s.unit e u := by
  unfold State.unit
  rw [modEng_eq, eng_setEng_same, hf]

section Read

variable {s} {e : EngId} {code : Nat} (w : Word)

/-- A read starts with a trigger of latency 2 and notes the fc of its evaluation, the one after. -/
theorem apuStart_read (hcode : code < 8) : s.apuStart e code 0 w =
    (s.trigger e 14 s.now 2 1 0 0 true 0).modEng e fun x => { x with apuR := x.apuR ++ [(s.now + 1, code, Fin.ofNat 8 w.toNat)] } :=
  if_pos hcode

theorem owes_apuStart_read (hcode : code < 8) : (s.apuStart e code 0 w).owes e 14 (s.now + 2) 0 0 true 0 := by
  unfold State.owes
  rw [apuStart_read w hcode, unit_modEng_of_units _ rfl]
  exact owes_trigger_long (by decide)

/-- Of its engine a read's start changes the APU and the list of reads to evaluate. -/
theorem eng_apuStart_read (hcode : code < 8) : (s.apuStart e code 0 w).eng e =
    { s.eng e with
      units := ((s.trigger e 14 s.now 2 1 0 0 true 0).eng e).units
      apuR := (s.eng e).apuR ++ [(s.now + 1, code, Fin.ofNat 8 w.toNat)] } := by
  obtain ⟨heng, -⟩ := onlyUnit_trigger s e 14 s.now 2 1 0 0 true 0
  rw [apuStart_read w hcode, modEng_eq, eng_setEng_same, heng]

/-- A read that need not wait starts at once; nothing waits at the APU's sockets. -/
theorem apuOp_read (hcode : code < 8) (hfree : runsFree s e) (hapu : (s.eng e).apu = none) (hift : s.iftUsed e < 256) :
    s.apuOp e code w = s.apuStart e code 0 w := by
  obtain ⟨hruns, hinj⟩ := hfree
  have hstall : s.apuStall e = false := by simp [State.apuStall, hapu, hift]
  have hspar : ((s.apuStart e code 0 w).eng e).injSpar = false := by rw [eng_apuStart_read w hcode]; exact hinj
  simp only [State.apuOp, hruns, hstall, Bool.not_true, Bool.or_false, Bool.false_eq_true, if_false]
  exact meetSpar_none _ _ _ hspar

/-- In the fc of its evaluation the one read owed takes the words of that fc. -/
theorem ops_apuEval_read {b : BaseId} {r : Res} (hread : (s.eng e).apuR = [(s.now, code, b)]) (hops : (s.unit e 14).ops = [r])
    (hdone : r.done = false) (hdue : r.due = s.now + 1) :
    ((s.apuEval e).unit e 14).ops = [{ r with q := (s.apuWords code b).1, q1 := (s.apuWords code b).2 }] := by
  have hdues : (s.eng e).apuR.filter (fun p => decide (p.1 ≤ s.now)) = [(s.now, code, b)] := by simp [hread]
  simp only [State.apuEval, hdues, List.isEmpty_cons, Bool.false_eq_true, if_false]
  rw [unit_modEng_of_units _ rfl, unit_setUnit_same]
  simp [hops, hdone, hdue]

end Read

/-! The compare (R269) -/

/-- When TB_COMPARE sets CMP: it is armed and enabled, and the Time Base is at or above TMR_TBCMP. -/
def compareDue : Prop := s.time.cmpArm = true ∧ s.rbit Reg.tmrTbctl 4 = true ∧ s.tbCmp ≤ s.fc

/-- The state after a compare that is due: CMP is set, and the compare is no longer armed. -/
def compared : State := { s.orReg Reg.tmrTbstat (bitW 8) with time := { s.time with cmpArm := false } }

theorem exec_tbCompare_of_due (h : compareDue s) : exec .tbCompare s = .next (compared s) := by
  obtain ⟨harm, hen, hle⟩ := h
  exact congrArg Host.Outcome.next (if_pos (by simp [harm, hen, hle]))

theorem exec_tbCompare_of_not_due (h : ¬ compareDue s) : exec .tbCompare s = .next s :=
  congrArg Host.Outcome.next (if_neg (by simpa [compareDue] using h))

theorem reg_compared_tbstat : (compared s).reg Reg.tmrTbstat = s.reg Reg.tmrTbstat ||| 0x100 :=
  reg_setReg_same ..

theorem rbit_compared_cmp : (compared s).rbit Reg.tmrTbstat 8 = true := by
  unfold State.rbit
  rw [reg_compared_tbstat]
  exact (bitOf_or_bitW _ 8 8 (by decide)).trans (by simp)

end Rules

/-- Settles O27: `tbRead` is a read with its snapshots, the angle port's read of code 3 takes the Time Base in the fc of its evaluation, and
the compare disarms itself where it sets CMP. -/
theorem timeBaseReadAndCompare : Obligations.TimeBaseReadAndCompare := by
  unfold Obligations.TimeBaseReadAndCompare
  refine ⟨fun s => ?read, fun e w s hfree hapu hift => ?apuStarts, fun e s b r hread hops hdone hdue => ?apuEvaluates,
    fun hi s => ?arm, fun s => ⟨fun hdue => ?due, exec_tbCompare_of_not_due s⟩⟩
  case read =>
    refine ⟨_, rfl, rfl, ?_, reg_tbRead_tbsub s, rfl, sameRegs_tbRead s⟩
    exact (congrArg (· ++ loW s.fc) (reg_tbRead_tbhi s)).trans (dword_hiW_loW s.fc)
  case apuStarts =>
    have hstart : exec (.apuTb e w) s = .next (s.apuStart e 3 0 w) :=
      congrArg Host.Outcome.next (apuOp_read w (by decide) hfree hapu hift)
    exact ⟨_, _, hstart, owes_apuStart_read w (by decide), by rw [eng_apuStart_read w (by decide)]⟩
  case apuEvaluates => exact ⟨loW s.fc, hiW s.fc, dword_hiW_loW s.fc, ops_apuEval_read hread hops hdone hdue⟩
  case arm => exact ⟨_, rfl, reg_setReg_same .., rfl, rfl, sameRegs_setReg s _ _⟩
  case due =>
    exact ⟨compared s, exec_tbCompare_of_due s hdue, rbit_compared_cmp s, rfl, reg_compared_tbstat s, sameRegs_setReg s _ _⟩

end Sys2Proof.TimeBase
end
